-- ==== Sys2Proof/Word.lean ====
section
/-! DEFINITION. The words of the JW-60: host link bytes, loop words and ring words (chapter "Formats"). -/

namespace Sys2Proof

/-- A byte of the host link (R196). -/
abbrev Byte := BitVec 8

/-- A 16-bit word of the station loop (R196 to R200, "FMT: LOOP WORDS"). -/
abbrev LoopWord := BitVec 16

/-- A 48-bit word of the recorder ring ("FMT: RECORDER WORDS"). -/
abbrev RingWord := BitVec 48

/-- A word as it returns on LOOP_IN: its value, and whether it came with a line-code error (R21, R200). -/
structure RxWord where
  word : LoopWord
  lineError : Bool
deriving DecidableEq, Repr

end Sys2Proof
end

