-- ==== Sys2Proof/Syntax.lean ====
section
/-! DEFINITION. The commands of the JW-60: one constructor of Instr per row of spec/opcode_table.json, and the
types of their operands. -/

namespace Sys2Proof

/-- The governing states (R1). -/
inductive Gov where
  | halted | standby | drive | safeHold
deriving DecidableEq, Repr

/-- The rear wheels, and the sides of wheel pairs. -/
inductive Side where
  | left | right
deriving DecidableEq, Repr

/-- The retarding grids. -/
inductive Grid where
  | a | b
deriving DecidableEq, Repr

/-- The producers that post outputs within 200 us of a publication (R50, R64): TAL, RGV and SGV. -/
inductive Producer where
  | tal | rgv | sgv
deriving DecidableEq, Repr

/-- The four protected memories (R175). -/
inductive Mem where
  | acq | screen | image | record
deriving DecidableEq, Repr

/-- The conditions that ask for a number of consecutive evaluations (R84, R86, R87). -/
inductive CountedCond where
  | dcLinkOver | overspeed
deriving DecidableEq, Repr

/-- The derate causes (R85), in table order. -/
inductive DerateCause where
  | motorHot | inverterHot | tempUnknown | slipPersist | slipRefLost | payloadOver | gridHeat | gridWithdrawn
  | dcLinkHigh | steerTrack | accLow | stationSuspect | ambientUnknown
deriving DecidableEq, Repr

/-- The targets of derates (R89). -/
inductive DerateTarget where
  | left | right | vehicle
deriving DecidableEq, Repr

/-- READ, WRITE and ACT, the functions of an exchange (R23). -/
inductive Func where
  | read | write | act
deriving DecidableEq, Repr, Inhabited

/-- The settle modes (R44 to R46). -/
inductive Settle where
  | strict | lenient | persist | span
deriving DecidableEq, Repr, Inhabited

/-- An entry of the acquisition table (R41). -/
structure AcqEntry where
  valid : Bool
  func : Func
  addr : Nat
  channel : Nat
  size32 : Bool
  settle : Settle
  retry : Nat
  span : Nat
  tolerate : Bool
  signal : Nat
  divisor : Nat
  phase : Nat
  corrupt : Bool
deriving DecidableEq, Repr, Inhabited

/-- A not-valid entry with every other field zero (R41): span 1 and divisor 1 are what their zero codes mean. -/
def AcqEntry.empty : AcqEntry :=
  ⟨false, .read, 0, 0, false, .strict, 0, 1, false, 0, 1, 0, false⟩

/-- The tests of the screening table (R67); `unknown` is code 3, which no write can store (R68). -/
inductive ScreenTest where
  | range | step | agree | unknown
deriving DecidableEq, Repr, Inhabited

/-- The fail actions of the screening table (R67); `unknown` is code 3, which no write can store (R68). -/
inductive FailAction where
  | hold | bad | subst | unknown
deriving DecidableEq, Repr, Inhabited

/-- An entry of the screening table (R67). `low` is also the largest change of STEP and the tolerance of AGREE;
`partner` is 0 for none. -/
structure ScreenEntry where
  valid : Bool
  signal : Nat
  test : ScreenTest
  low : Int
  high : Int
  partner : Nat
  action : FailAction
  failCount : Nat
  corrupt : Bool
deriving DecidableEq, Repr, Inhabited

/-- A not-valid screening entry (R67, R79). -/
def ScreenEntry.empty : ScreenEntry := ⟨false, 0, .range, 0, 0, 0, .hold, 0, false⟩

/-- The commands: the 28 host requests, each with its tag and its payload fields as R197 and the payload tables lay
them out, and then the events. A field is as wide as its bytes, so every payload a host can send has its command. -/
inductive Instr where
  | statusQuery (tag : Byte)
  | modeRequest (tag target : Byte)
  | demand (tag dir : Byte) (propel retard hold steer : BitVec 16) (brake : Byte)
  | settingWrite (tag id : Byte) (value : BitVec 32)
  | settingRead (tag id : Byte)
  | tableCursor (tag table : Byte) (index : BitVec 16) (mode : Byte)
  | tableWrite (tag : Byte) (data : List Byte)
  | tableRead (tag count : Byte)
  | signalRead (tag : Byte) (ids : List Byte)
  | flagsRead (tag : Byte)
  | countsRead (tag : Byte)
  | tripClear (tag cause : Byte)
  | loopScan (tag : Byte)
  | loopExchange (tag addr channel func size : Byte) (data : BitVec 32)
  | stationReinstate (tag addr : Byte)
  | gridCheckStart (tag grid : Byte)
  | gridCheckStop (tag : Byte)
  | steerCheckStart (tag : Byte)
  | procResult (tag proc : Byte)
  | recordStart (tag : Byte)
  | recordStop (tag : Byte)
  | recordStatus (tag : Byte)
  | recordRead (tag flags : Byte)
  | recordFind (tag position comparison start reserved : Byte) (value : BitVec 32)
  | integrityRead (tag mem flags : Byte)
  | integrityInject (tag mem kind : Byte)
  | governorReset (tag : Byte)
  | fullReset (tag : Byte)
  | fullResetTakesEffect
  | powerOn (stopAsserted : Bool)
  | resetPinAssert
  | resetPinRelease
  | stopLineAssert
  | stopLineRelease
  | demandTimerExpiry
  | hostFrameReceived (bytes : List Byte)
  | hostInterByteGap
  | messageSent
  | cleanIdleWordReturned
  | uncleanWordReturned (word : RxWord)
  | loopSyncReached
  | loopEdgeTimeout
  | frameStart
  | streamBlockReady
  | recorderFrozen
  | exchangeStart
  | exchangeComplete (words : List RxWord)
  | slotTimeout
  | stationSuspect (addr : Nat)
  | stationExcluded (addr : Nat)
  | persistRetryExhausted
  | budgetExhaustion
  | heldItemJoin
  | dispatchMarkReached
  | publication
  | holdAllowanceExceeded (signal : Nat)
  | conditionCountReached (cond : CountedCond)
  | derateHoldExpiry (cause : DerateCause) (target : DerateTarget)
  | slipPersistSet (wheel : Side)
  | holdShortEntry
  | holdShortExit
  | steerTrackArise
  | steerTrackGo
  | steerSupplyArise
  | accLowArise
  | steerCheckWatchEnd
  | outputPosting (producer : Producer)
  | recordFindComplete
  | unknownRequestKind (kind tag : Byte) (payload : List Byte)
  | storedBitFlipped (mem : Mem) (addr : Nat) (bits : List Nat)
deriving DecidableEq, Repr

end Sys2Proof
end

