-- ==== Sys2Proof/Decode.lean ====
section
/-! DEFINITION. The decoder of table words. The rows of spec/opcode_table.json give no bits: no word spells a command. The
part's own decoding of host link frames is Sys2Proof/Machine/Requests.lean. -/

namespace Sys2Proof

/-- The command that a word spells by the table's bits: none, since no row of the table has bits. -/
def decodeTableWord (_nbits _w : Nat) : Option Instr := none

end Sys2Proof
end

