-- ==== Sys2Proof/Config.lean ====
section
/-! DEFINITION. What the spec leaves open: free values, each an opaque constant applied to what it may depend on. No
proof can see what they are, so a claim about the model holds whatever they are. -/

namespace Sys2Proof.Config

/-- The acquisition entry read from a stored word with an uncorrectable error: its content and the flipped bits give it,
by a layout of the stored word that the spec does not give (R177; log 12). -/
opaque acqAsRead : List Nat → AcqEntry → AcqEntry

/-- The screening entry read from a stored word with an uncorrectable error (R177; log 12). -/
opaque screenAsRead : List Nat → ScreenEntry → ScreenEntry

/-- The value read from an image entry with an uncorrectable error, "as read and untrusted" (R178; log 12). -/
opaque imageValueAsRead : List Nat → Int → Int

/-- The held count read from an image entry with an uncorrectable error (R178; log 12). -/
opaque imageHeldAsRead : List Nat → Nat → Nat

/-- The age read from an image entry with an uncorrectable error (R178; log 12). -/
opaque imageAgeAsRead : List Nat → Nat → Nat

/-- The bit positions that injections flip, in order of use (R181; log 13). -/
opaque injectedBit : Nat → Nat

/-- The quantities that are rounded to the nearest step and can fall on a tie (R77, R83, R129; log 18). -/
inductive RoundSite where
  | payloadNow | haulPayload | densityRatio
deriving DecidableEq, Repr

/-- Whether a quantity halfway between two steps goes to the upper one, given the lower one (log 18). -/
opaque tieUp : RoundSite → Int → Bool

/-- Whether an energy change that falls between two steps of 0.001 MJ goes to the upper one, given the change in
thousandths of 0.001 MJ (R131 "It is held to 0.001 MJ"; log 19). -/
opaque energyUp : Int → Bool

/-- Whether half of an odd torque factor, in steps of 0.001, goes to the upper step (R113; log 19). -/
opaque halfFactorUp : Nat → Bool

/-- The density ratio, in hundredths, at an ambient temperature of -273 degrees, where the formula of R129 divides by
zero, given AMB_P (log 20). -/
opaque densityAtZero : Int → Int

/-- The kind of the reply to a request kind of 80h and above, which has no reply kind in a byte (R185, R197; log 23). -/
opaque replyKindOfHigh : Byte → Byte

end Sys2Proof.Config
end

