-- ==== Sys2Proof/Machine/State.lean ====
section
/-! DEFINITION. The state of the JW-60: everything the spec gives its ten blocks and its pins, as plain data, the reset
values of each block, and the queue of waiting commands. -/

namespace Sys2Proof.Machine

/-- No command of the JW-60 stops the part with a fault: the spec reports trouble by refusals of requests, trips, flags
and notices, which are next states. Nothing raises a fault (safe: there is none to lean on). -/
inductive Fault where
deriving DecidableEq, Repr

/-- Refusals of the MODEL (not the part's REFUSED replies, which are next states). -/
inductive Refusal where
  /-- A row of the table with no meaning yet. No arm of exec raises it (safe). -/
  | notModelled (mnemonic : String)
deriving DecidableEq, Repr

/-! ### Values shared by the blocks -/

/-- Travel and demand directions (R10, R105). -/
inductive Dir where
  | neutral | forward | reverse
deriving DecidableEq, Repr

/-- Station kinds (R26). -/
inductive Kind where
  | inverter | chopper | steer | sense
deriving DecidableEq, Repr

/-- Signal qualities (R65). -/
inductive Quality where
  | absent | fresh | kept | held | subst | bad
deriving DecidableEq, Repr

/-- A stored word of a protected memory: its good content, and the bits of the stored word that have flipped since it
was written (R175, R181). No flipped bit: sound. One: a single-bit error. Two or more: uncorrectable. -/
structure Prot (α : Type) where
  val : α
  flips : List Nat
deriving DecidableEq, Repr

/-- A posted output or derived signal: its value and the frame it was posted for, or the not-posted mark (R64). -/
structure Posted where
  value : Int
  frame : Option Nat
deriving DecidableEq, Repr

/-- An initial value: zero, not posted (R52, R103, R119, R137, R161). -/
def Posted.initial : Posted := ⟨0, none⟩

/-- The causes of procedure endings (R143, R158, and the codes of R199). -/
inductive ProcCause where
  | none | moved | stop | halted | loopDown | stationExcluded | requested | reset | accNotFresh | exchange | supply
deriving DecidableEq, Repr

/-- Exchange outcomes (R24), and EXCLUDED, which a claimant can be told instead (R25). -/
inductive ExOutcome where
  | takenReady | takenNotReady | untaken | noReply | check | excluded | loopDown
deriving DecidableEq, Repr

/-- The trip causes, OVERFLOW among them (R86, R87, R95). -/
inductive TripCause where
  | inverterFaultL | inverterFaultR | motorOvertempL | motorOvertempR | dcLinkOver | chopperFault | steerSupply
  | steerAngleLost | speedLost | loopLost | demandLost | stopLine | tableFault | overflow | payloadGross
  | gridOvertempA | gridOvertempB | screenFault | overspeed
deriving DecidableEq, Repr

/-! ### DSC: governing state and demand record (chapter 1) -/

/-- The demand record (R10): propel and retard in per mille, hold speed in 0.1 km/h, steer angle in 0.01 degrees. -/
structure Demand where
  dir : Dir
  propel : Nat
  retard : Nat
  hold : Nat
  steer : Int
  brakeApplied : Bool
deriving DecidableEq, Repr

/-- The initial demand record (R10). -/
def Demand.initial : Demand := ⟨.neutral, 0, 0, 0, 0, true⟩

/-- The state of the Drive State Controller. -/
structure Dsc where
  gov : Gov
  demand : Demand
  fresh : Bool
  timerRunning : Bool
  demandLost : Bool
  stopLine : Bool
deriving DecidableEq, Repr

/-- The full-reset values of the DSC, with the STOP line as found on the pin (R19). -/
def Dsc.initial (stop : Bool) : Dsc := ⟨.halted, .initial, false, false, false, stop⟩

/-- The pins: the levels of STOP and RESET (true: asserted), and the bytes of the message last sent on HOST_TX. -/
structure Pins where
  stop : Bool
  reset : Bool
  hostTx : List Byte
deriving DecidableEq, Repr

/-! ### SLC: loop, directory, tables, passes, service queue (chapters 2 and 3) -/

/-- Loop states (R21). -/
inductive LoopState where
  | down | syncing | up
deriving DecidableEq, Repr

/-- Station states (R27). -/
inductive StationState where
  | enrolled | suspect | excluded
deriving DecidableEq, Repr

/-- Last failure kinds (R27). -/
inductive FailKind where
  | none | noReply | check | untaken
deriving DecidableEq, Repr

/-- An entry of the station directory (R27). -/
structure Station where
  addr : Nat
  kind : Kind
  revision : Nat
  state : StationState
  streak : Nat
  total : Nat
  lastFail : FailKind
deriving DecidableEq, Repr

/-- The causes of MISSED (R47) and OVERRUN, the cause of a skip at a frame start (R55). -/
inductive MissCause where
  | notReady | untaken | noReply | check | loopDown | excluded | budget | corrupt | overrun
deriving DecidableEq, Repr

/-- The result of an entry's run: DELIVERED with the value, or MISSED with the cause (R47). -/
inductive Result where
  | delivered (value : Int)
  | missed (cause : MissCause)
deriving DecidableEq, Repr

/-- An item of the delivery buffer (R47). -/
structure Delivery where
  entry : Nat
  signal : Nat
  frame : Nat
  result : Result
deriving DecidableEq, Repr

/-- The claimants of the service queue (R56). -/
inductive Claimant where
  | gridCheck | steerCheck | loopExchange | reinstate
deriving DecidableEq, Repr

/-- An item of the service queue (R56). `retry` is the retry limit of a PERSIST item, none for SINGLE. `started` says
that its first exchange has begun, `used` counts the repeats begun. `discard` marks an item in its slot whose procedure has
aborted: its outcome is discarded (R58). -/
structure Item where
  claimant : Claimant
  addr : Nat
  channel : Nat
  func : Func
  size32 : Bool
  data : Nat
  retry : Option Nat
  started : Bool
  used : Nat
  discard : Bool
deriving DecidableEq, Repr

/-- Who gets the outcome of the exchange in its slot: an entry of the acquisition or the dispatch pass, the head of the
service queue, a scan probe, a REINSTATE probe whose request a governor reset has answered (`probe`: only its directory
effect is left, R38), or nobody any more (the pass was ended, R2, R39; the queue was emptied, R38). -/
inductive Claim where
  | acq (entry : Nat)
  | dispatch (entry : Nat)
  | service
  | scan
  | probe
  | orphan
deriving DecidableEq, Repr

/-- The exchange in its slot: the command sent (R23), its claimant, whether UNTAKEN is tolerated (R29), and whether a
governor reset has been taken while it was in its slot (R38). -/
structure SlotEx where
  claim : Claim
  addr : Nat
  channel : Nat
  func : Func
  size32 : Bool
  data : Nat
  tolerate : Bool
  afterReset : Bool
deriving DecidableEq, Repr

/-- The entry of a pass whose turn it is (R44 to R46). `e`: the entry as the pass read it (R48); `begun`: its first
exchange has begun; `used`: repeats made; `offset`: the next address of a SPAN run; `last`: the cause of the last exchange
of a SPAN run. -/
structure Run where
  entry : Nat
  e : AcqEntry
  begun : Bool
  used : Nat
  offset : Nat
  last : Option MissCause
deriving DecidableEq, Repr

/-- A LOOP-SCAN in progress (R32, R33; log 40): the next address to probe, and what the reply carries. -/
structure Scan where
  next : Nat
  full : Bool
  noRoom : Nat
  notEnrolled : Nat
  last : Nat
deriving DecidableEq, Repr

/-- The SLC condition posting (R31). -/
structure SlcPosting where
  loop : LoopState
  wasDown : Bool
  stations : List (Nat × Kind × StationState)
  nSuspect : Nat
  nExcluded : Nat
deriving DecidableEq, Repr

/-- The phases of a frame: the acquisition pass runs; it has ended and publication is due; published, waiting for the
dispatch mark; the dispatch pass runs; the service pass runs; all passes have ended. `idle`: no frame. -/
inductive Phase where
  | idle | acq | acqEnded | published | dispatch | service | done
deriving DecidableEq, Repr

/-- The state of the Station Loop Controller. -/
structure Slc where
  loopState : LoopState
  sync : Nat
  dir : List Station
  acq : List (Prot AcqEntry)
  frameTimer : Bool
  frameNo : Nat
  firstFrame : Bool
  phase : Phase
  markReached : Bool
  loopLost : Bool
  passIdx : Nat
  run : Option Run
  slots : Nat
  slot : Option SlotEx
  delivery : List Delivery
  queue : List Item
  held : List Item
  scan : Option Scan
  posting : Option SlcPosting
deriving DecidableEq, Repr

/-- The full-reset values of the SLC (R38, R62). -/
def Slc.initial : Slc where
  loopState := .down
  sync := 0
  dir := []
  acq := List.replicate 64 ⟨AcqEntry.empty, []⟩
  frameTimer := false
  frameNo := 0
  firstFrame := false
  phase := .idle
  markReached := false
  loopLost := false
  passIdx := 0
  run := none
  slots := 0
  slot := none
  delivery := []
  queue := []
  held := []
  scan := none
  posting := none

/-- The output signals and the derived signals with a posted value (R64). -/
structure Outputs where
  tcL : Posted
  tcR : Posted
  mdL : Posted
  mdR : Posted
  cdA : Posted
  cdB : Posted
  bfA : Posted
  bfB : Posted
  svCmd : Posted
  haul : Posted
  geA : Posted
  geB : Posted
  rcap : Posted
  rreq : Posted
  yaw : Posted
  slipL : Posted
  slipR : Posted
  speedLimit : Posted
deriving DecidableEq, Repr

/-- Every output at its initial value (R52), every derived signal zero and not posted (R103, R119, R137, R161). -/
def Outputs.initial : Outputs :=
  ⟨.initial, .initial, .initial, .initial, .initial, .initial, .initial, .initial, .initial, .initial, .initial,
    .initial, .initial, .initial, .initial, .initial, .initial, .initial⟩

/-! ### SGS: screening and image (chapter 4) -/

/-- An entry of the signal image (R65). -/
structure ImageEntry where
  value : Int
  quality : Quality
  age : Nat
  heldCount : Nat
  latchedBad : Bool
  partner : Option Nat
deriving DecidableEq, Repr

/-- The full-reset value of an image entry (R79). -/
def ImageEntry.initial : ImageEntry := ⟨0, .absent, 65535, 0, false, none⟩

/-- VSPD or PAYLOAD_NOW: value and quality (R64). -/
structure Derived where
  value : Int
  quality : Quality
deriving DecidableEq, Repr

/-- The state of the Signal Screen: image (index 0 is signal 1), VSPD in 0.1 km/h, PAYLOAD_NOW in 0.1 t, the frame
number of the image, and the screening table. -/
structure Sgs where
  image : List (Prot ImageEntry)
  vspd : Derived
  payload : Derived
  imageFrame : Nat
  screen : List (Prot ScreenEntry)
deriving DecidableEq, Repr

/-- The full-reset values of the SGS (R79). -/
def Sgs.initial : Sgs :=
  ⟨List.replicate 34 ⟨.initial, []⟩, ⟨0, .absent⟩, ⟨0, .absent⟩, 0, List.replicate 96 ⟨.empty, []⟩⟩

/-! ### EPU: envelope, derates, trips (chapter 5) -/

/-- Payload classes (R83). -/
inductive PayClass where
  | unknown | empty | loaded | over | gross
deriving DecidableEq, Repr

/-- The kinds of derates (R85). -/
inductive DerateKind where
  | propel | retard | torque | speed
deriving DecidableEq, Repr

/-- A derate record (R89): limit in 0.1 % or 0.1 km/h; `holding` is the state HOLDING. -/
structure Derate where
  cause : DerateCause
  target : DerateTarget
  kind : DerateKind
  limit : Int
  entered : Nat
  holding : Bool
  holdRemaining : Nat
deriving DecidableEq, Repr

/-- A trip record (R91); `severe` is its class, `clearable` its state. -/
structure Trip where
  cause : TripCause
  severe : Bool
  first : Nat
  last : Nat
  recurrences : Nat
  clearable : Bool
  detail : Int
deriving DecidableEq, Repr

/-- A pending cause (R92). -/
structure PendingTrip where
  cause : TripCause
  frame : Nat
  detail : Int
deriving DecidableEq, Repr

/-- The last presences of the conditions on image values, and the counts of those that ask for several evaluations
(R84). -/
structure Presences where
  motorHotL : Bool
  motorHotR : Bool
  inverterHotL : Bool
  inverterHotR : Bool
  gridHeat : Bool
  dcLinkHigh : Bool
  faultMarkL : Bool
  faultMarkR : Bool
  inverterTripL : Bool
  inverterTripR : Bool
  motorTripL : Bool
  motorTripR : Bool
  dcLinkOver : Bool
  gridTripA : Bool
  gridTripB : Bool
  overspeed : Bool
  dcLinkCount : Nat
  overspeedCount : Nat
deriving DecidableEq, Repr

/-- Last presences and counts cleared (R84, R103). -/
def Presences.cleared : Presences :=
  ⟨false, false, false, false, false, false, false, false, false, false, false, false, false, false, false, false, 0, 0⟩

/-- The envelope (R99, R100): wheel limits in 0.1 %, speed limit in 0.1 km/h, steer rate in 0.1 degrees per second. -/
structure Envelope where
  propelL : Int
  retardL : Int
  propelR : Int
  retardR : Int
  speedLimit : Int
  steerRate : Int
deriving DecidableEq, Repr

/-- The initial envelope (R101). -/
def Envelope.initial : Envelope := ⟨0, 0, 0, 0, 0, 0⟩

/-- The EPU posting (R101). -/
structure EpuPosting where
  env : Envelope
  haul : Int
  cls : PayClass
  inverterFaultL : Bool
  inverterFaultR : Bool
  gridOvertempA : Bool
  gridOvertempB : Bool
deriving DecidableEq, Repr

/-- What readers take before the first posting of a run: the initial envelope, the class UNKNOWN (R120) and no marks
(R101). -/
def EpuPosting.initial : EpuPosting := ⟨.initial, 0, .unknown, false, false, false, false⟩

/-- The state of the Envelope and Protection Unit: haul payload in 0.1 t, rest window oldest first. -/
structure Epu where
  derates : List Derate
  trips : List Trip
  pendingSet : List PendingTrip
  haul : Int
  cls : PayClass
  restCount : Nat
  restWindow : List (Int × Bool)
  pres : Presences
  posting : EpuPosting
  stopReport : Bool
  demandReport : Bool
deriving DecidableEq, Repr

/-- The full-reset values of the EPU (R103). -/
def Epu.initial : Epu :=
  ⟨[], [], [], 0, .unknown, 0, [], .cleared, .initial, false, false⟩

/-! ### TAL: traction allocation (chapter 6) -/

/-- Slip states (R113). -/
inductive Slip where
  | grip | spin | slide | recover
deriving DecidableEq, Repr

/-- What the TAL holds for a wheel: the torque factor in 0.001 (R113, R114). -/
structure Wheel where
  slip : Slip
  factor : Nat
  spinCount : Nat
  persist : Bool
deriving DecidableEq, Repr

/-- GRIP, factor 1.000, SPIN count 0, mark clear (R119). -/
def Wheel.initial : Wheel := ⟨.grip, 1000, 0, false⟩

/-- The TAL condition posting (R104). -/
structure TalCond where
  persistL : Bool
  persistR : Bool
  refLost : Bool
deriving DecidableEq, Repr

/-- Outputs the TAL has computed and not yet posted (R50): TC in per mille, MD words, SLIP in 0.1 %. -/
structure TalStaged where
  frame : Nat
  tcL : Int
  tcR : Int
  mdL : Int
  mdR : Int
  slipL : Int
  slipR : Int
  cond : TalCond
deriving DecidableEq, Repr

/-- The state of the Traction Allocator. -/
structure Tal where
  travel : Dir
  dirPending : Bool
  wheelL : Wheel
  wheelR : Wheel
  refLost : Bool
  propelRetard : Bool
  cond : Option TalCond
  staged : Option TalStaged
deriving DecidableEq, Repr

/-- The full-reset values of the TAL (R119). -/
def Tal.initial : Tal := ⟨.neutral, false, .initial, .initial, false, false, none, none⟩

/-! ### RGV: retarding, grid budget, grid element check (chapters 7 and 8) -/

/-- Descent hold states (R123). -/
inductive Hold where
  | off | engaged | short
deriving DecidableEq, Repr

/-- Grade directions (R124). -/
inductive Grade where
  | unset | forward | reverse
deriving DecidableEq, Repr

/-- What the RGV holds for a grid: energy in 0.001 MJ, good strings, usable mark, and the capacity Emax_g of its last
computation in 0.001 MJ (R128, R131, R136, R138). -/
structure GridState where
  energy : Int
  good : Nat
  usable : Bool
  emax : Int
deriving DecidableEq, Repr

/-- 0 MJ, 8 good strings, withdrawn until the first posting (R137); a capacity of 60 MJ, that of the default GRID_EMAX
(log 53). -/
def GridState.initial : GridState := ⟨0, 8, false, 60000⟩

/-- The RGV condition posting (R135): energies and capacities in 0.001 MJ. -/
structure RgvCond where
  energyA : Int
  energyB : Int
  emaxA : Int
  emaxB : Int
  usableA : Bool
  usableB : Bool
deriving DecidableEq, Repr

/-- Outputs the RGV has computed and not yet posted (R50, R120). -/
structure RgvStaged where
  frame : Nat
  rreq : Int
  rcap : Int
  cdA : Int
  cdB : Int
  bfA : Int
  bfB : Int
  geA : Int
  geB : Int
  cond : RgvCond
deriving DecidableEq, Repr

/-- The classes of strings (R141). -/
inductive StringClass where
  | none | good | drift | open | short
deriving DecidableEq, Repr

/-- The grids a check names (R139). -/
inductive Grids where
  | none | a | b | both
deriving DecidableEq, Repr

/-- The steps of a string (R140). -/
inductive GridStep where
  | act | read
deriving DecidableEq, Repr

/-- The outcomes of a grid check run (R142). -/
inductive GridOutcome where
  | none | passed | degraded | aborted | failedExchange
deriving DecidableEq, Repr

/-- An entry of the result table (R138). -/
structure StringResult where
  resistance : Nat
  cls : StringClass
  frame : Nat
deriving DecidableEq, Repr

/-- An entry of the anomaly list (R138). -/
structure Anomaly where
  grid : Grid
  string : Nat
  cls : StringClass
  resistance : Nat
deriving DecidableEq, Repr

/-- A running grid check (R138): the run's results in check order, oldest first, its anomaly entries and MORE mark. -/
structure GridRun where
  grids : Grids
  addrA : Nat
  addrB : Nat
  grid : Grid
  string : Nat
  step : GridStep
  start : Nat
  results : List (Grid × StringResult)
  anomalies : List Anomaly
  more : Bool
deriving DecidableEq, Repr

/-- What failed in a FAILED_EXCHANGE (R138): the string, the step, and the outcome; `notReady` is NOT_READY. -/
inductive FailedWith where
  | untaken | noReply | check | notReady
deriving DecidableEq, Repr

/-- The last-run record of the grid check (R138). -/
structure GridLast where
  outcome : GridOutcome
  cause : ProcCause
  grids : Grids
  start : Nat
  stop : Nat
  measured : Nat
  failed : Option (Grid × Nat × GridStep × FailedWith)
deriving DecidableEq, Repr

/-- No run has ended (R138); the fields beside the outcome, which the spec gives no value, are none or 0 (log 39). -/
def GridLast.initial : GridLast := ⟨.none, .none, .none, 0, 0, 0, none⟩

/-- The state of the grid element check (R138). -/
structure GridCheck where
  run : Option GridRun
  last : GridLast
  results : List StringResult
  anomalies : List Anomaly
  more : Bool
  named : Grids
deriving DecidableEq, Repr

/-- The full-reset values of the grid element check (R138, R147). -/
def GridCheck.initial : GridCheck :=
  ⟨none, .initial, List.replicate 16 ⟨0, .none, 0⟩, [], false, .none⟩

/-- The state of the Retard Governor: the integrator in 0.001 %, the outputs in 0.1 %, the retard-to-rest target in
0.001 km/h. -/
structure Rgv where
  hold : Hold
  integ : Int
  shortCount : Nat
  engageCount : Nat
  holdOut : Int
  grade : Grade
  rtr : Option Int
  rtrOut : Int
  gridA : GridState
  gridB : GridState
  cond : Option RgvCond
  staged : Option RgvStaged
  check : GridCheck
deriving DecidableEq, Repr

/-- The full-reset values of the RGV (R137, R147). -/
def Rgv.initial : Rgv :=
  ⟨.off, 0, 0, 0, 0, .unset, none, 0, .initial, .initial, none, none, .initial⟩

/-! ### SGV: steering, steering supply check (chapter 9) -/

/-- The SGV condition posting (R148). -/
structure SgvCond where
  track : Bool
  accLow : Bool
  supply : Bool
deriving DecidableEq, Repr

/-- Outputs the SGV has computed and not yet posted (R50, R148). -/
structure SgvStaged where
  frame : Nat
  svCmd : Int
  yaw : Int
  cond : SgvCond
deriving DecidableEq, Repr

/-- The phases of the steering supply check (R155). -/
inductive SteerPhase where
  | isolate | settle | watch | release
deriving DecidableEq, Repr

/-- The outcomes of the steering supply check (R155). -/
inductive SteerOutcome where
  | none | pass | fail | aborted
deriving DecidableEq, Repr

/-- A running steering supply check (R155): pressures in 0.01 MPa. -/
structure SteerRun where
  phase : SteerPhase
  addr : Nat
  start : Nat
  init : Option Int
  final : Option Int
  watched : Nat
  pending : Option (SteerOutcome × ProcCause)
deriving DecidableEq, Repr

/-- The steer check result record (R155). -/
structure SteerResult where
  outcome : SteerOutcome
  cause : ProcCause
  init : Option Int
  final : Option Int
  frame : Nat
  unconfirmed : Bool
deriving DecidableEq, Repr

/-- NONE, no cause, no pressures, frame 0, mark clear (R155). -/
def SteerResult.initial : SteerResult := ⟨.none, .none, none, none, 0, false⟩

/-- The state of the Steering Governor: the commanded angle in 0.01 degrees. -/
structure Sgv where
  ac : Option Int
  wide : Nat
  narrow : Nat
  track : Bool
  supplyCount : Nat
  supply : Bool
  accCount : Nat
  accLow : Bool
  cond : Option SgvCond
  staged : Option SgvStaged
  run : Option SteerRun
  isolation : Bool
  result : SteerResult
deriving DecidableEq, Repr

/-- The full-reset values of the SGV (R161). -/
def Sgv.initial : Sgv :=
  ⟨none, 0, 0, false, 0, false, 0, false, none, none, none, false, .initial⟩

/-! ### TRC: trip recorder (chapter 10) -/

/-- Recorder states (R165). -/
inductive RecState where
  | idle | running | post | frozen
deriving DecidableEq, Repr

/-- The run parameters (R165). -/
structure RecParams where
  capture : Bool
  block : Nat
  post : Nat
  severeOnly : Bool
deriving DecidableEq, Repr

/-- A record of the ring (R163): its first ring word, and its words. -/
structure RingRecord where
  base : Nat
  words : List (Prot RingWord)
deriving DecidableEq, Repr

/-- The result of a RECORD-FIND scan (R172): the position and frame number found, if any, and the skipped count. -/
structure FindResult where
  found : Option (Nat × Nat)
  skipped : Nat
deriving DecidableEq, Repr

/-- The state of the Trip Recorder: the ring oldest first, trip marks oldest first. -/
structure Trc where
  st : RecState
  recset : List (Option Nat)
  params : RecParams
  ring : List RingRecord
  nextSlot : Nat
  unread : Nat
  cursor : Nat
  postCount : Nat
  marks : List (Nat × TripCause)
  missed : Nat
  announced : Bool
  find : Option FindResult
deriving DecidableEq, Repr

/-- The full-reset values of the TRC (R174). -/
def Trc.initial : Trc :=
  ⟨.idle, List.replicate 12 none, ⟨true, 16, 200, false⟩, [], 0, 0, 0, 0, [], 0, false, none⟩

/-! ### IMN: memory integrity (chapter 11) -/

/-- The kinds of injections (R180). -/
inductive Inject where
  | none | single | double
deriving DecidableEq, Repr

/-- What the IMN holds for a memory (chapter 11). -/
structure MemGuard where
  corrected : Nat
  uncorrectable : Nat
  capCorrected : Option Nat
  capUncorrectable : Option Nat
  inject : Inject
deriving DecidableEq, Repr

/-- Counts 0, captures empty, no injection (R182). -/
def MemGuard.initial : MemGuard := ⟨0, 0, none, none, .none⟩

/-- The state of the Integrity Monitor; the posting holds the lowest CORRUPT index of table 1 and of table 2 (R177).
`freeCount` is the model's own: it numbers the free bit positions that injections use (log 13). -/
structure Imn where
  acq : MemGuard
  screen : MemGuard
  image : MemGuard
  record : MemGuard
  posting : Option (Option Nat × Option Nat)
  freeCount : Nat
deriving DecidableEq, Repr

/-- The full-reset values of the IMN (R182). -/
def Imn.initial : Imn := ⟨.initial, .initial, .initial, .initial, none, 0⟩

/-! ### HLI: host link (chapters 12 and 13) -/

/-- A host link frame without its start byte, length and CRC (R196). -/
structure Frame where
  kind : Byte
  tag : Byte
  payload : List Byte
deriving DecidableEq, Repr

/-- Refusal classes (R185). -/
inductive RClass where
  | format | state | range | resource | fault
deriving DecidableEq, Repr

/-- Refusal details (R199). -/
inductive Detail where
  | kind | tag | length | readOnly
  | transition | loopNotUp | scanRunning | loopBusy | stopAsserted | procRunning | severeHeld | steerCheck
  | demandStale | demandNotNeutral
  | notAtRest | notHalted | notStandby | notRunning | notIdle | notEnrolled | notExcluded | outputBound
  | noServiceBudget | governing
  | recorderRunning | findRunning | noRecordSet | notCaptured
  | stationUnknown | stationExcluded | kindMismatch | reservedChannel | corruptEntry | missingSignal | binding
  | field | value | identityChannel | markPeriod | budgetSum | signalClass | signal | settle | duplicateSignal
  | partner | gap | pastEnd | setting | streakOrder
  | deferBusy | queueFull | notReady
  | aborted
deriving DecidableEq, Repr

/-- The body of a reply: DONE with its result bytes, or REFUSED (R185, R199). -/
inductive Body where
  | done (data : List Byte)
  | refused (cls : RClass) (detail : Detail) (qual : Nat)
deriving DecidableEq, Repr

/-- The causes of STATE notices (R3). -/
inductive StateCause where
  | request | trip | stopLine | demandTimeout | governorReset | reset
deriving DecidableEq, Repr

/-- Notices (R188): STATE, TRIP, LOOP, PROC and REC. PROC carries its outcome code, as R199 codes it for each
procedure. -/
inductive Notice where
  | state (old new : Gov) (cause : StateCause)
  | trip (cause : TripCause) (severe : Bool) (frame : Nat)
  | loop (st : LoopState)
  | proc (procedure outcome : Nat) (cause : ProcCause) (frame : Nat)
  | blockReady
  | frozen (frame : Nat) (cause : TripCause)
deriving DecidableEq, Repr

/-- A message of the outgoing queue (R188); `deferred` tells the reply to a deferred request from an ordinary one
(R184). -/
inductive Msg where
  | reply (deferred : Bool) (kind tag : Byte) (body : Body)
  | notice (n : Notice)
deriving DecidableEq, Repr

/-- The five deferrable requests (R186). -/
inductive DeferKind where
  | loopScan | loopExchange | reinstate | recordRead | recordFind
deriving DecidableEq, Repr

/-- The deferred slot when held: kind and tag (R186). -/
structure Deferred where
  kind : DeferKind
  tag : Byte
deriving DecidableEq, Repr

/-- Increment modes of the table cursor (R190). -/
inductive CursorMode where
  | none | onReadAndWrite | onWriteOnly
deriving DecidableEq, Repr

/-- The table cursor (R190). -/
structure Cursor where
  table : Nat
  index : Nat
  mode : CursorMode
deriving DecidableEq, Repr

/-- A counter with its overflow mark (R194). -/
structure Counter where
  val : Nat
  overflowed : Bool
deriving DecidableEq, Repr

/-- Zero, mark clear (R194). -/
def Counter.zero : Counter := ⟨0, false⟩

/-- The ten counters (R194). -/
structure Counters where
  exchFailed : Counter
  exchNotReady : Counter
  entriesSkipped : Counter
  frameOverruns : Counter
  staleDispatches : Counter
  screenRejects : Counter
  hostFramesBad : Counter
  hostRxDropped : Counter
  noticesDropped : Counter
  recLost : Counter
deriving DecidableEq, Repr

/-- Every counter 0 with its mark clear (R194). -/
def Counters.zero : Counters :=
  ⟨.zero, .zero, .zero, .zero, .zero, .zero, .zero, .zero, .zero, .zero⟩

/-- The 34 settings, in the order of their ids, each counted in its step (R192). DISPATCH_MARK, REST_SPEED, GEAR_RATIO
and ACC_DROP_MAX are in steps of 0.1. -/
structure Settings where
  framePeriod : Nat
  dispatchMark : Nat
  acqBudget : Nat
  dispatchBudget : Nat
  serviceBudget : Nat
  demandTimeout : Nat
  restSpeed : Nat
  streakSuspect : Nat
  streakExclude : Nat
  wheelRadius : Nat
  gearRatio : Nat
  strutTare : Nat
  payloadGain : Nat
  ratedPayload : Nat
  derateHold : Nat
  steerRate : Nat
  torqueSlew : Nat
  slipLimit : Nat
  slideLimit : Nat
  ratedRetardPower : Nat
  baseSpeed : Nat
  emptyMass : Nat
  gridCool : Nat
  gridEmax : Nat
  stringNominal : Nat
  yawGain : Nat
  accMin : Nat
  accDropMax : Nat
  recordMode : Nat
  recordBlock : Nat
  recordPost : Nat
  recordTrigger : Nat
  integCapture : Nat
  noticeMask : Nat
deriving DecidableEq, Repr

/-- The default settings (R192); NOTICE_MASK has STATE and TRIP set. -/
def Settings.default : Settings :=
  ⟨10, 30, 32, 12, 4, 100, 5, 3, 8, 1780, 320, 22000, 10, 360, 50, 20, 5, 15, 15, 4400, 20, 250, 2000, 60, 1200, 6, 14,
    15, 1, 16, 200, 0, 0, 3⟩

/-- FULL-RESET in progress (R195): none; taken, its reply not yet sent; its reply sent. -/
inductive FullReset where
  | none | taken | replySent
deriving DecidableEq, Repr

/-- The state of the Host Link Interface. `rxBuf` holds the bytes of the frame being gathered, from its start byte on;
it is empty while the receiver hunts (R183). -/
structure Hli where
  rxBuf : List Byte
  rx : List Frame
  tx : List Msg
  deferred : Option Deferred
  cursor : Cursor
  flags : BitVec 16
  firstSkipped : Option Nat
  counters : Counters
  stored : Settings
  force : Settings
  fullReset : FullReset
deriving DecidableEq, Repr

/-- The full-reset values of the HLI (R195). -/
def Hli.initial : Hli :=
  ⟨[], [], [], none, ⟨1, 0, .none⟩, 0, none, .zero, .default, .default, .none⟩

/-! ### The machine -/

/-- The state of the part, and the commands that wait, first in, first out. -/
structure State where
  dsc : Dsc
  pins : Pins
  slc : Slc
  out : Outputs
  sgs : Sgs
  epu : Epu
  tal : Tal
  rgv : Rgv
  sgv : Sgv
  trc : Trc
  imn : Imn
  hli : Hli
  pending : List Instr
deriving DecidableEq, Repr

/-- Every block at its full-reset value (R19, R38, R62, R79, R103, R119, R137, R147, R161, R174, R182, R195), with the
pins at the given levels and the given commands waiting. -/
def State.initial (stop reset : Bool) (pending : List Instr) : State where
  dsc := .initial stop
  pins := ⟨stop, reset, []⟩
  slc := .initial
  out := .initial
  sgs := .initial
  epu := .initial
  tal := .initial
  rgv := .initial
  sgv := .initial
  trc := .initial
  imn := .initial
  hli := .initial
  pending := pending

/-- The STATE notice sent when every block has taken its initial state (R19). -/
def resetNotice : Msg := .notice (.state .halted .halted .reset)

/-- The machine right after a full reset: every block at its initial value, and the STATE notice with cause RESET in the
outgoing queue, the first message sent (R19, R195; log 25). No command waits. -/
def State.reset : State :=
  let s := State.initial false false []
  { s with hli.tx := [resetNotice] }

end Sys2Proof.Machine
end

