-- ==== Sys2Proof/WellFormed.lean ====
section
/-! DEFINITION. Which commands can be sent: payload lengths a frame can carry, addresses and ids in range, words and
kinds that are what their row says. -/

namespace Sys2Proof

/-- The idle word, 0F0Fh (R21, "FMT: LOOP WORDS"). -/
abbrev idleWord : LoopWord := 0x0F0F#16

/-- The idle word with no line-code error (R21). -/
def RxWord.cleanIdle (w : RxWord) : Bool := w.word == idleWord && !w.lineError

/-- The 28 request kinds are 01h to 1Ch (R197). -/
def isRequestKind (k : Byte) : Bool := decide (1 ≤ k.toNat) && decide (k.toNat ≤ 0x1C)

/-- The keys of R85: which targets a derate cause has. -/
def DerateCause.hasTarget : DerateCause → DerateTarget → Bool
  | .motorHot, .vehicle | .inverterHot, .vehicle | .tempUnknown, .vehicle | .slipPersist, .vehicle => false
  | .motorHot, _ | .inverterHot, _ | .tempUnknown, _ | .slipPersist, _ => true
  | _, .vehicle => true
  | _, _ => false

/-- The number of addresses of each protected memory; addresses of IMAGE start at 1 (R175). -/
def Mem.hasAddr : Mem → Nat → Bool
  | .acq, a => decide (a < 64)
  | .screen, a => decide (a < 96)
  | .image, a => decide (1 ≤ a) && decide (a ≤ 34)
  | .record, a => decide (a < 16384)

/-- A command that the outside can send. -/
def Instr.wf : Instr → Bool
  | .tableWrite _ data => decide (data.length ≤ 240)
  | .signalRead _ ids => decide (ids.length ≤ 240)
  | .unknownRequestKind kind _ payload => !isRequestKind kind && decide (payload.length ≤ 240)
  | .uncleanWordReturned w => !w.cleanIdle
  | .stationSuspect a | .stationExcluded a => decide (1 ≤ a) && decide (a ≤ 47)
  | .holdAllowanceExceeded sig => decide (1 ≤ sig) && decide (sig ≤ 34)
  | .derateHoldExpiry c t => c.hasTarget t
  | .storedBitFlipped m a bits =>
      m.hasAddr a && (decide (bits.length = 1) || decide (bits.length = 2)) && decide bits.Nodup
  | _ => true

end Sys2Proof
end

