-- ==== Sys2Proof/Machine/Operands.lean ====
section
/-! DEFINITION. Operand forms: rounding, the signal catalog, the codes of every enumerated field, the settings by id, and
the layouts of table entries and of the values that replies carry (chapters 4, 12 and 13). -/

namespace Sys2Proof.Machine

/-! ### Arithmetic -/

/-- `x` bounded to lie from `lo` to `hi`. -/
def clamp (lo hi x : Int) : Int := if x < lo then lo else if hi < x then hi else x

/-- num/den rounded to the nearest whole step; a tie goes where the free value of its place says (log 18). -/
def roundNearest (site : Config.RoundSite) (num den : Int) : Int :=
  let q := num / den
  let r := num % den
  if den < 2 * r then q + 1
  else if 2 * r = den then (if Config.tieUp site q then q + 1 else q)
  else q

/-- A count that saturates at `top`. -/
def satSucc (top n : Nat) : Nat := if n < top then n + 1 else top

/-- `x` in the two's complement form of a 16- or 32-bit word. -/
def signedOf (size32 : Bool) (d : Nat) : Int :=
  if size32 then (BitVec.ofNat 32 d).toInt else (BitVec.ofNat 16 d).toInt

/-- A value as the data field of a command holds it (R23, R196: two's complement). -/
def dataOf (size32 : Bool) (v : Int) : Nat :=
  if size32 then (BitVec.ofInt 32 v).toNat else (BitVec.ofInt 16 v).toNat

/-! ### The signal catalog (R63, R64) -/

/-- Ids 1 to 34 are input signals. -/
def isInput (id : Nat) : Bool := decide (1 ≤ id) && decide (id ≤ 34)

/-- Ids 40 to 48 are output signals. -/
def isOutput (id : Nat) : Bool := decide (40 ≤ id) && decide (id ≤ 48)

/-- Ids 60 to 70 are derived signals. -/
def isDerived (id : Nat) : Bool := decide (60 ≤ id) && decide (id ≤ 70)

/-- The ids of the catalog: 35 to 39 and 49 to 59 are not in it. -/
def inCatalog (id : Nat) : Bool := isInput id || isOutput id || isDerived id

/-- The hold allowance of an input signal, in frames (R63). -/
def holdAllowance (id : Nat) : Nat :=
  if id ≤ 4 then 2 else if id ≤ 8 then 4 else if id ≤ 12 then 8 else if id ≤ 14 then 2
  else if id ≤ 17 then 4 else if id ≤ 19 then 8 else if id ≤ 21 then 2 else if id ≤ 23 then 4
  else if id ≤ 27 then 5 else if id = 28 then 4 else if id ≤ 30 then 5 else if id = 31 then 2
  else if id = 32 then 4 else if id = 33 then 5 else 8

/-- Whether an input signal's form is signed (R63). -/
def isSigned (id : Nat) : Bool :=
  id == 1 || id == 2 || id == 5 || id == 6 || (decide (9 ≤ id) && decide (id ≤ 12)) || id == 18 || id == 19
    || id == 28 || id == 32 || id == 34

/-- The source kind of a signal, input or output (R60, R63); ids outside the catalog, which only a damaged entry can hold,
are given INVERTER (0 and 35 to 39) or STEER (49 and above) (log 48). -/
def sourceKind (id : Nat) : Kind :=
  if id ≤ 2 then .inverter else if id ≤ 4 then .sense else if id ≤ 14 then .inverter else if id ≤ 23 then .chopper
  else if id ≤ 27 then .sense else if id ≤ 31 then .steer else if id ≤ 34 then .sense
  else if id ≤ 43 then .inverter else if id ≤ 47 then .chopper else .steer

/-- The delivered value of a READ: the reply data in the form the catalog gives (R63). -/
def deliveredValue (id : Nat) (size32 : Bool) (d : Nat) : Int :=
  if isSigned id then signedOf size32 d else d

/-- The reserved channels: 5 and 6 of a CHOPPER, 6 of a STEER (R26). -/
def reservedChannel (k : Kind) (ch : Nat) : Bool :=
  match k with
  | .chopper => ch == 5 || ch == 6
  | .steer => ch == 6
  | _ => false

/-! ### Qualities -/

/-- Usable: FRESH, KEPT or SUBST (R65). -/
def Quality.usable : Quality → Bool
  | .fresh | .kept | .subst => true
  | _ => false

/-! ### Codes (R199 and the tables of chapter 13) -/

def govCode : Gov → Nat
  | .halted => 0 | .standby => 1 | .drive => 2 | .safeHold => 3

def govOfCode : Nat → Option Gov
  | 0 => some .halted | 1 => some .standby | 2 => some .drive | 3 => some .safeHold | _ => none

def dirCode : Dir → Nat
  | .neutral => 0 | .forward => 1 | .reverse => 2

def dirOfCode : Nat → Option Dir
  | 0 => some .neutral | 1 => some .forward | 2 => some .reverse | _ => none

def gradeCode : Grade → Nat
  | .unset => 0 | .forward => 1 | .reverse => 2

def loopCode : LoopState → Nat
  | .down => 0 | .syncing => 1 | .up => 2

def kindCode : Kind → Nat
  | .inverter => 1 | .chopper => 2 | .steer => 3 | .sense => 4

/-- The kind field of an identity word; a code outside the four is an unknown kind (R26, R200). -/
def kindOfCode : Nat → Option Kind
  | 1 => some .inverter | 2 => some .chopper | 3 => some .steer | 4 => some .sense | _ => none

def exOutcomeCode : ExOutcome → Nat
  | .takenReady => 0 | .takenNotReady => 1 | .untaken => 2 | .noReply => 3 | .check => 4 | .excluded => 5
  | .loopDown => 6

def qualityCode : Quality → Nat
  | .absent => 0 | .fresh => 1 | .kept => 2 | .held => 3 | .subst => 4 | .bad => 5

def payClassCode : PayClass → Nat
  | .unknown => 0 | .empty => 1 | .loaded => 2 | .over => 3 | .gross => 4

def slipCode : Slip → Nat
  | .grip => 0 | .spin => 1 | .slide => 2 | .recover => 3

def holdCode : Hold → Nat
  | .off => 0 | .engaged => 1 | .short => 2

def gridsCode : Grids → Nat
  | .none => 0 | .a => 1 | .b => 2 | .both => 3

def gridsOfCode : Nat → Option Grids
  | 1 => some .a | 2 => some .b | 3 => some .both | _ => none

def gridCode : Grid → Nat
  | .a => 1 | .b => 2

def gridStepCode : GridStep → Nat
  | .act => 0 | .read => 1

def steerPhaseCode : SteerPhase → Nat
  | .isolate => 0 | .settle => 1 | .watch => 2 | .release => 3

def gridOutcomeCode : GridOutcome → Nat
  | .none => 0 | .passed => 1 | .degraded => 2 | .aborted => 3 | .failedExchange => 4

def steerOutcomeCode : SteerOutcome → Nat
  | .none => 0 | .pass => 1 | .fail => 2 | .aborted => 3

def procCauseCode : ProcCause → Nat
  | .none => 0 | .moved => 1 | .stop => 2 | .halted => 3 | .loopDown => 4 | .stationExcluded => 5 | .requested => 6
  | .reset => 7 | .accNotFresh => 8 | .exchange => 9 | .supply => 10

/-- FAILED_EXCHANGE names an exchange outcome: UNTAKEN 2, NO_REPLY 3, CHECK 4, NOT_READY 9 (R199). -/
def failedWithCode : FailedWith → Nat
  | .untaken => 2 | .noReply => 3 | .check => 4 | .notReady => 9

def stringClassCode : StringClass → Nat
  | .none => 0 | .good => 1 | .drift => 2 | .open => 3 | .short => 4

def recStateCode : RecState → Nat
  | .idle => 0 | .running => 1 | .post => 2 | .frozen => 3

def injectCode : Inject → Nat
  | .none => 0 | .single => 1 | .double => 2

def injectOfCode : Nat → Option Inject
  | 0 => some .none | 1 => some .single | 2 => some .double | _ => none

def memOfCode : Nat → Option Mem
  | 1 => some .acq | 2 => some .screen | 3 => some .image | 4 => some .record | _ => none

def funcOfCode : Nat → Option Func
  | 0 => some .read | 1 => some .write | 2 => some .act | _ => none

def funcCode : Func → Nat
  | .read => 0 | .write => 1 | .act => 2

def cursorModeOfCode : Nat → Option CursorMode
  | 0 => some .none | 1 => some .onReadAndWrite | 2 => some .onWriteOnly | _ => none

def stateCauseCode : StateCause → Nat
  | .request => 0 | .trip => 1 | .stopLine => 2 | .demandTimeout => 3 | .governorReset => 4 | .reset => 5

def stationStateCode : StationState → Nat
  | .enrolled => 0 | .suspect => 1 | .excluded => 2

def failKindCode : FailKind → Nat
  | .none => 0 | .noReply => 1 | .check => 2 | .untaken => 3

def derateTargetCode : DerateTarget → Nat
  | .left => 0 | .right => 1 | .vehicle => 2

def derateKindCode : DerateKind → Nat
  | .propel => 0 | .retard => 1 | .torque => 2 | .speed => 3

def derateCauseCode : DerateCause → Nat
  | .motorHot => 1 | .inverterHot => 2 | .tempUnknown => 3 | .slipPersist => 4 | .slipRefLost => 5
  | .payloadOver => 6 | .gridHeat => 7 | .gridWithdrawn => 8 | .dcLinkHigh => 9 | .steerTrack => 10
  | .accLow => 11 | .stationSuspect => 12 | .ambientUnknown => 13

def tripCode : TripCause → Nat
  | .inverterFaultL => 1 | .inverterFaultR => 2 | .motorOvertempL => 3 | .motorOvertempR => 4 | .dcLinkOver => 5
  | .chopperFault => 6 | .steerSupply => 7 | .steerAngleLost => 8 | .speedLost => 9 | .loopLost => 10
  | .demandLost => 11 | .stopLine => 12 | .tableFault => 13 | .overflow => 14 | .payloadGross => 15
  | .gridOvertempA => 16 | .gridOvertempB => 17 | .screenFault => 18 | .overspeed => 19

def tripOfCode : Nat → Option TripCause
  | 1 => some .inverterFaultL | 2 => some .inverterFaultR | 3 => some .motorOvertempL | 4 => some .motorOvertempR
  | 5 => some .dcLinkOver | 6 => some .chopperFault | 7 => some .steerSupply | 8 => some .steerAngleLost
  | 9 => some .speedLost | 10 => some .loopLost | 11 => some .demandLost | 12 => some .stopLine
  | 13 => some .tableFault | 14 => some .overflow | 15 => some .payloadGross | 16 => some .gridOvertempA
  | 17 => some .gridOvertempB | 18 => some .screenFault | 19 => some .overspeed | _ => none

/-- The class of a trip cause: LIMITING are the causes of R87, every other cause is SEVERE (R86, R95). -/
def tripSevere : TripCause → Bool
  | .payloadGross | .gridOvertempA | .gridOvertempB | .screenFault | .overspeed => false
  | _ => true

def classCode : RClass → Nat
  | .format => 1 | .state => 2 | .range => 3 | .resource => 4 | .fault => 5

/-- The detail codes (R199). -/
def detailCode : Detail → Nat
  | .kind => 1 | .tag => 2 | .length => 3 | .readOnly => 4
  | .transition => 10 | .loopNotUp => 11 | .scanRunning => 12 | .loopBusy => 13 | .stopAsserted => 14
  | .procRunning => 15 | .severeHeld => 16 | .steerCheck => 17 | .demandStale => 18 | .demandNotNeutral => 19
  | .notAtRest => 20 | .notHalted => 21 | .notStandby => 22 | .notRunning => 23 | .notIdle => 24
  | .notEnrolled => 25 | .notExcluded => 26 | .outputBound => 27 | .noServiceBudget => 28 | .governing => 29
  | .recorderRunning => 30 | .findRunning => 31 | .noRecordSet => 32 | .notCaptured => 33
  | .stationUnknown => 40 | .stationExcluded => 41 | .kindMismatch => 42 | .reservedChannel => 43
  | .corruptEntry => 44 | .missingSignal => 45 | .binding => 46
  | .field => 50 | .value => 51 | .identityChannel => 52 | .markPeriod => 53 | .budgetSum => 54
  | .signalClass => 55 | .signal => 56 | .settle => 57 | .duplicateSignal => 58 | .partner => 59 | .gap => 60
  | .pastEnd => 61 | .setting => 62 | .streakOrder => 63
  | .deferBusy => 70 | .queueFull => 71 | .notReady => 72
  | .aborted => 80

/-! ### Settings (R192) -/

/-- The value of setting `id`, in its step. -/
def Settings.get (g : Settings) : Nat → Nat
  | 1 => g.framePeriod | 2 => g.dispatchMark | 3 => g.acqBudget | 4 => g.dispatchBudget | 5 => g.serviceBudget
  | 6 => g.demandTimeout | 7 => g.restSpeed | 8 => g.streakSuspect | 9 => g.streakExclude | 10 => g.wheelRadius
  | 11 => g.gearRatio | 12 => g.strutTare | 13 => g.payloadGain | 14 => g.ratedPayload | 15 => g.derateHold
  | 16 => g.steerRate | 17 => g.torqueSlew | 18 => g.slipLimit | 19 => g.slideLimit | 20 => g.ratedRetardPower
  | 21 => g.baseSpeed | 22 => g.emptyMass | 23 => g.gridCool | 24 => g.gridEmax | 25 => g.stringNominal
  | 26 => g.yawGain | 27 => g.accMin | 28 => g.accDropMax | 29 => g.recordMode | 30 => g.recordBlock
  | 31 => g.recordPost | 32 => g.recordTrigger | 33 => g.integCapture | 34 => g.noticeMask | _ => 0

/-- The settings with setting `id` replaced. -/
def Settings.set (g : Settings) (v : Nat) : Nat → Settings
  | 1 => { g with framePeriod := v } | 2 => { g with dispatchMark := v } | 3 => { g with acqBudget := v }
  | 4 => { g with dispatchBudget := v } | 5 => { g with serviceBudget := v } | 6 => { g with demandTimeout := v }
  | 7 => { g with restSpeed := v } | 8 => { g with streakSuspect := v } | 9 => { g with streakExclude := v }
  | 10 => { g with wheelRadius := v } | 11 => { g with gearRatio := v } | 12 => { g with strutTare := v }
  | 13 => { g with payloadGain := v } | 14 => { g with ratedPayload := v } | 15 => { g with derateHold := v }
  | 16 => { g with steerRate := v } | 17 => { g with torqueSlew := v } | 18 => { g with slipLimit := v }
  | 19 => { g with slideLimit := v } | 20 => { g with ratedRetardPower := v } | 21 => { g with baseSpeed := v }
  | 22 => { g with emptyMass := v } | 23 => { g with gridCool := v } | 24 => { g with gridEmax := v }
  | 25 => { g with stringNominal := v } | 26 => { g with yawGain := v } | 27 => { g with accMin := v }
  | 28 => { g with accDropMax := v } | 29 => { g with recordMode := v } | 30 => { g with recordBlock := v }
  | 31 => { g with recordPost := v } | 32 => { g with recordTrigger := v } | 33 => { g with integCapture := v }
  | 34 => { g with noticeMask := v } | _ => g

/-- The lowest and the highest value of setting `id`, in its step (R192). -/
def settingRange : Nat → Int × Int
  | 1 => (5, 20) | 2 => (5, 195) | 3 => (1, 64) | 4 => (1, 64) | 5 => (0, 64) | 6 => (20, 2000) | 7 => (1, 30)
  | 8 => (1, 254) | 9 => (2, 255) | 10 => (500, 2500) | 11 => (50, 600) | 12 => (0, 200000) | 13 => (1, 100)
  | 14 => (10, 600) | 15 => (1, 500) | 16 => (1, 40) | 17 => (1, 100) | 18 => (2, 50) | 19 => (2, 50)
  | 20 => (500, 10000) | 21 => (5, 60) | 22 => (20, 600) | 23 => (100, 10000) | 24 => (1, 500) | 25 => (100, 30000)
  | 26 => (0, 15) | 27 => (5, 30) | 28 => (1, 100) | 29 => (0, 1) | 30 => (1, 64) | 31 => (0, 4096) | 32 => (0, 1)
  | 33 => (0, 1) | 34 => (0, 31) | _ => (1, 0)

/-- Whether a value is in the range and steps of setting `id`; FRAME_PERIOD is 5, 10 or 20 ms (R40, R192). -/
def settingInRange (id : Nat) (v : Int) : Bool :=
  if id = 1 then v == 5 || v == 10 || v == 20
  else decide ((settingRange id).1 ≤ v) && decide (v ≤ (settingRange id).2)

/-! ### Values as replies carry them (R199) -/

/-- The low `k` bytes of `n`, high byte first (R196). -/
def beBytes : Nat → Nat → List Byte
  | 0, _ => []
  | k + 1, n => BitVec.ofNat 8 (n >>> (8 * k)) :: beBytes k n

/-- An enumerated value: one byte. -/
def vEnum (code : Nat) : List Byte := beBytes 1 code

/-- A mark, flag or yes-or-no value: one byte. -/
def vMark (b : Bool) : List Byte := beBytes 1 (if b then 1 else 0)

/-- A count, index, address, id or other whole number: two bytes. -/
def vCount (n : Nat) : List Byte := beBytes 2 n

/-- A frame number: six bytes. -/
def vFrame (n : Nat) : List Byte := beBytes 6 n

/-- A quantity: four bytes, signed, in steps of its resolution; of a wider value the low 32 bits (log 59). -/
def vQuant (z : Int) : List Byte := beBytes 4 (BitVec.ofInt 32 z).toNat

/-- A counter of COUNTS-READ: four bytes, and its overflow mark. -/
def vCounter (c : Counter) : List Byte := beBytes 4 c.val ++ vMark c.overflowed

/-- A value that may be absent: one byte, 1 when present, and the value, as 0 when absent. -/
def vOpt (f : α → List Byte) (zero : α) : Option α → List Byte
  | some x => vMark true ++ f x
  | none => vMark false ++ f zero

/-- A list: one byte giving the number of items, and the items in their order. -/
def vList (f : α → List Byte) (xs : List α) : List Byte := beBytes 1 xs.length ++ xs.flatMap f

/-! ### Layouts of table entries ("FMT: TABLE ENTRIES") -/

def bit (b : Bool) (n : Nat) : Nat := if b then 2 ^ n else 0

def settleCode : Settle → Nat
  | .strict => 0 | .lenient => 1 | .persist => 2 | .span => 3

def settleOfCode : Nat → Settle
  | 0 => .strict | 1 => .lenient | 2 => .persist | _ => .span

def divisorCode (d : Nat) : Nat := if d = 2 then 1 else if d = 4 then 2 else if d = 8 then 3 else 0

/-- Acquisition entry: 8 bytes. -/
def encodeAcq (e : AcqEntry) : List Byte :=
  beBytes 1 (bit e.valid 7 + bit (e.func == .write) 6 + bit e.size32 5 + bit e.tolerate 4 + 4 * settleCode e.settle
      + (e.span - 1) % 4)
    ++ beBytes 1 e.addr ++ beBytes 1 (16 * (e.retry % 8) + e.channel % 8) ++ beBytes 1 e.signal
    ++ beBytes 1 (16 * divisorCode e.divisor + e.phase % 8) ++ vMark e.corrupt ++ [0, 0]

/-- The byte at place `i` of an entry, as a number. -/
def byteAt (bs : List Byte) (i : Nat) : Nat := (bs.getD i 0).toNat

/-- An acquisition entry as written: reserved bits and the CORRUPT mark are not examined (R198). -/
def decodeAcq (bs : List Byte) : AcqEntry :=
  let b := byteAt bs
  { valid := b 0 / 128 % 2 == 1
    func := if b 0 / 64 % 2 == 1 then .write else .read
    size32 := b 0 / 32 % 2 == 1
    tolerate := b 0 / 16 % 2 == 1
    settle := settleOfCode (b 0 / 4 % 4)
    span := b 0 % 4 + 1
    addr := b 1
    retry := b 2 / 16 % 8
    channel := b 2 % 8
    signal := b 3
    divisor := 2 ^ (b 4 / 16 % 4)
    phase := b 4 % 8
    corrupt := false }

def testCode : ScreenTest → Nat
  | .range => 0 | .step => 1 | .agree => 2 | .unknown => 3

def testOfCode : Nat → ScreenTest
  | 0 => .range | 1 => .step | 2 => .agree | _ => .unknown

def actionCode : FailAction → Nat
  | .hold => 0 | .bad => 1 | .subst => 2 | .unknown => 3

def actionOfCode : Nat → FailAction
  | 0 => .hold | 1 => .bad | 2 => .subst | _ => .unknown

/-- A 16-bit signed field. -/
def be16s (z : Int) : List Byte := beBytes 2 (BitVec.ofInt 16 z).toNat

/-- Screening entry: 12 bytes. -/
def encodeScreen (e : ScreenEntry) : List Byte :=
  beBytes 1 (bit e.valid 7 + 16 * testCode e.test + actionCode e.action)
    ++ beBytes 1 e.signal ++ beBytes 1 e.partner ++ vMark e.corrupt ++ be16s e.low ++ be16s e.high
    ++ beBytes 2 e.failCount ++ [0, 0]

/-- The 16-bit signed field at place `i`. -/
def int16At (bs : List Byte) (i : Nat) : Int :=
  (BitVec.ofNat 16 (256 * byteAt bs i + byteAt bs (i + 1))).toInt

/-- A screening entry as written: its read-only fields are not examined (R198). -/
def decodeScreen (bs : List Byte) : ScreenEntry :=
  let b := byteAt bs
  { valid := b 0 / 128 % 2 == 1
    test := testOfCode (b 0 / 16 % 4)
    action := actionOfCode (b 0 % 4)
    signal := b 1
    partner := b 2
    low := int16At bs 4
    high := int16At bs 6
    failCount := 0
    corrupt := false }

/-- Record set entry: a valid byte and a signal id. -/
def encodeRecset : Option Nat → List Byte
  | some id => vMark true ++ beBytes 1 id
  | none => [0, 0]

/-- A record set entry as written; a valid byte other than 0 is taken as valid (log 27). -/
def decodeRecset (bs : List Byte) : Option Nat := if byteAt bs 0 = 0 then none else some (byteAt bs 1)

/-- Directory entry: 8 bytes; not valid, with all other fields zero, past the last station (R27). -/
def encodeStation : Option Station → List Byte
  | some e =>
    beBytes 1 (128 + stationStateCode e.state) ++ beBytes 1 e.addr ++ beBytes 1 (kindCode e.kind)
      ++ beBytes 1 e.revision ++ beBytes 1 e.streak ++ beBytes 2 e.total ++ beBytes 1 (failKindCode e.lastFail)
  | none => List.replicate 8 0

/-- Derate entry: 12 bytes (R89). -/
def encodeDerate : Option Derate → List Byte
  | some e =>
    beBytes 1 (128 + bit e.holding 6 + 16 * derateTargetCode e.target + derateKindCode e.kind)
      ++ beBytes 1 (derateCauseCode e.cause) ++ be16s e.limit ++ beBytes 2 e.holdRemaining ++ vFrame e.entered
  | none => List.replicate 12 0

/-- Trip entry: 16 bytes (R91); of a detail value wider than its field the low 16 bits are sent (log 50). -/
def encodeTrip : Option Trip → List Byte
  | some e =>
    beBytes 1 (128 + bit e.clearable 6 + bit (!e.severe) 5 + tripCode e.cause) ++ vFrame e.first ++ vFrame e.last
      ++ beBytes 1 e.recurrences ++ be16s e.detail
  | none => List.replicate 16 0

/-- Grid result entry, indices 0 to 15: 12 bytes. -/
def encodeString (e : StringResult) : List Byte :=
  vEnum (stringClassCode e.cls) ++ [0] ++ beBytes 2 e.resistance ++ vFrame e.frame ++ [0, 0]

/-- Anomaly entry, indices 16 to 19: 12 bytes. -/
def encodeAnomaly : Option Anomaly → List Byte
  | some e =>
    [0x80#8] ++ vEnum (gridCode e.grid) ++ beBytes 1 e.string ++ vEnum (stringClassCode e.cls)
      ++ beBytes 2 e.resistance ++ List.replicate 6 0
  | none => List.replicate 12 0

/-! ### Selectors -/

/-- The posted value of an output signal (R64, ids 40 to 48) or of a derived signal with a producer's posting. -/
def Outputs.get (o : Outputs) : Nat → Posted
  | 40 => o.tcL | 41 => o.tcR | 42 => o.mdL | 43 => o.mdR | 44 => o.cdA | 45 => o.cdB | 46 => o.bfA | 47 => o.bfB
  | 48 => o.svCmd | 62 => o.haul | 63 => o.geA | 64 => o.geB | 65 => o.rcap | 66 => o.rreq | 67 => o.yaw
  | 68 => o.slipL | 69 => o.slipR | 70 => o.speedLimit | _ => .initial

/-- The size of each table (R190). -/
def tableSize : Nat → Nat
  | 1 => 64 | 2 => 96 | 3 => 12 | 4 => 32 | 5 => 24 | 6 => 8 | 7 => 21 | _ => 0

/-- The bytes of an entry of each table. -/
def entrySize : Nat → Nat
  | 1 => 8 | 2 => 12 | 3 => 2 | 4 => 8 | 5 => 12 | 6 => 16 | 7 => 12 | _ => 1

/-- A list of bytes cut into entries of `n` bytes each, `count` of them. -/
def chunks (n : Nat) : Nat → List Byte → List (List Byte)
  | 0, _ => []
  | count + 1, bs => bs.take n :: chunks n count (bs.drop n)

end Sys2Proof.Machine
end

