-- ==== Sys2Proof/Machine/Flags.lean ====
section
/-! DEFINITION. The latched flags and the counters of the HLI: their names, their order, how an event latches a flag or
raises a counter, and the six conditions that set a flag again (R193, R194). -/

namespace Sys2Proof.Machine

/-- The sixteen latched flags, in the order of the FLAGS-READ set (R193, R199). -/
inductive Flag where
  | loopWasDown | stationSuspect | stationExcluded | passOverrun | frameOverrun | staleDispatch | signalBad
  | propelRetard | retardShort | tripRaised | demandTimeout | integCorrected | integUncorrectable | hostFramesBad
  | noticesDropped | recLost
deriving DecidableEq, Repr

/-- The bit of a flag in the FLAGS-READ set. -/
def Flag.bit : Flag → Nat
  | .loopWasDown => 0 | .stationSuspect => 1 | .stationExcluded => 2 | .passOverrun => 3 | .frameOverrun => 4
  | .staleDispatch => 5 | .signalBad => 6 | .propelRetard => 7 | .retardShort => 8 | .tripRaised => 9
  | .demandTimeout => 10 | .integCorrected => 11 | .integUncorrectable => 12 | .hostFramesBad => 13
  | .noticesDropped => 14 | .recLost => 15

/-- The flag as a one-bit set. -/
def Flag.mask (f : Flag) : BitVec 16 := BitVec.ofNat 16 (2 ^ f.bit)

/-- Latch a flag (R193). -/
def latch (f : Flag) (s : State) : State := { s with hli.flags := s.hli.flags ||| f.mask }

/-- Latch a flag when something has happened. -/
def latchIf (b : Bool) (f : Flag) (s : State) : State := if b then latch f s else s

/-- Whether a flag stands. -/
def standing (f : Flag) (s : State) : Bool := s.hli.flags &&& f.mask != 0

/-- The ten counters (R194). -/
inductive CounterId where
  | exchFailed | exchNotReady | entriesSkipped | frameOverruns | staleDispatches | screenRejects | hostFramesBad
  | hostRxDropped | noticesDropped | recLost
deriving DecidableEq, Repr

/-- A counter's rise: past 2,147,483,647 it goes to 0 and its overflow mark is set (R194). -/
def Counter.rise (c : Counter) : Counter := if c.val < 2147483647 then ⟨c.val + 1, c.overflowed⟩ else ⟨0, true⟩

/-- The counters with one of them raised. -/
def Counters.rise (c : Counters) : CounterId → Counters
  | .exchFailed => { c with exchFailed := c.exchFailed.rise }
  | .exchNotReady => { c with exchNotReady := c.exchNotReady.rise }
  | .entriesSkipped => { c with entriesSkipped := c.entriesSkipped.rise }
  | .frameOverruns => { c with frameOverruns := c.frameOverruns.rise }
  | .staleDispatches => { c with staleDispatches := c.staleDispatches.rise }
  | .screenRejects => { c with screenRejects := c.screenRejects.rise }
  | .hostFramesBad => { c with hostFramesBad := c.hostFramesBad.rise }
  | .hostRxDropped => { c with hostRxDropped := c.hostRxDropped.rise }
  | .noticesDropped => { c with noticesDropped := c.noticesDropped.rise }
  | .recLost => { c with recLost := c.recLost.rise }

/-- Raise a counter by one (R194). -/
def bump (id : CounterId) (s : State) : State := { s with hli.counters := s.hli.counters.rise id }

/-! ### Conditions that set a flag again (R193) -/

/-- LOOP_WAS_DOWN: the loop is not UP (R22). -/
def loopNotUp (s : State) : Bool := s.slc.loopState != .up

/-- STATION_SUSPECT and STATION_EXCLUDED: a station of the directory is in the state named (R30). -/
def anyStation (st : StationState) (s : State) : Bool := s.slc.dir.any (·.state == st)

/-- SIGNAL_BAD: an input signal is BAD (R74). -/
def anyBad (s : State) : Bool := s.sgs.image.any (·.val.quality == .bad)

/-- RETARD_SHORT: descent hold is SHORT (R125). -/
def holdIsShort (s : State) : Bool := s.rgv.hold == .short

/-- The flags whose condition is present, as a set (R193). -/
def conditionFlags (s : State) : BitVec 16 :=
  (if loopNotUp s then Flag.loopWasDown.mask else 0)
    ||| (if anyStation .suspect s then Flag.stationSuspect.mask else 0)
    ||| (if anyStation .excluded s then Flag.stationExcluded.mask else 0)
    ||| (if anyBad s then Flag.signalBad.mask else 0)
    ||| (if s.tal.propelRetard then Flag.propelRetard.mask else 0)
    ||| (if holdIsShort s then Flag.retardShort.mask else 0)

end Sys2Proof.Machine
end

