-- ==== Sys2Proof/Machine/Ops.lean ====
section
/-! DEFINITION. The operations that several blocks share: replies and notices, reads and writes of the four protected
memories, a change of governing state, at rest, the directory and the service queue (chapters 1, 2, 3, 11 and 12). -/

namespace Sys2Proof.Machine

/-! ### Messages (R184, R185, R188) -/

/-- The place of a notice's kind in NOTICE_MASK. -/
def Notice.maskBit : Notice → Nat
  | .state .. => 0 | .trip .. => 1 | .loop _ => 2 | .proc .. => 3 | .blockReady => 4 | .frozen .. => 4

def Msg.isNotice : Msg → Bool
  | .notice _ => true
  | _ => false

/-- An ordinary reply: any reply but the reply to a deferred request (R184). -/
def Msg.isOrdinary : Msg → Bool
  | .reply false .. => true
  | _ => false

/-- The reply to a deferred request (R188). -/
def Msg.isDeferred : Msg → Bool
  | .reply true .. => true
  | _ => false

/-- The notices in the outgoing queue. -/
def noticeCount (s : State) : Nat := s.hli.tx.countP (·.isNotice)

/-- Put a message at the tail of the outgoing queue. -/
def send (m : Msg) (s : State) : State := { s with hli.tx := s.hli.tx ++ [m] }

/-- Make a notice: queued when its kind is in the NOTICE_MASK in force and fewer than 6 are queued, else dropped and
counted; not made when its kind is not in the mask (R188). -/
def notify (n : Notice) (s : State) : State :=
  if s.hli.force.noticeMask.testBit n.maskBit then
    if noticeCount s < 6 then send (.notice n) s else latch .noticesDropped (bump .noticesDropped s)
  else s

/-- The reply kind paired with a request kind (R197); free for kinds of 80h and above (log 23). -/
def replyKind (k : Byte) : Byte := if k.toNat < 0x80 then k + 0x80#8 else Config.replyKindOfHigh k

/-- Queue an ordinary reply (R185). -/
def reply (kind tag : Byte) (b : Body) (s : State) : State := send (.reply false (replyKind kind) tag b) s

/-- A DONE reply. -/
def done (kind tag : Byte) (data : List Byte) (s : State) : State := reply kind tag (.done data) s

/-- A REFUSED reply. -/
def refuse (kind tag : Byte) (cls : RClass) (detail : Detail) (qual : Nat) (s : State) : State :=
  reply kind tag (.refused cls detail qual) s

/-- The request kinds of the deferrable requests (R186, R197). -/
def DeferKind.code : DeferKind → Byte
  | .loopScan => 0x0D | .loopExchange => 0x0E | .reinstate => 0x0F | .recordRead => 0x17 | .recordFind => 0x18

/-- Take the deferred slot (R187). -/
def takeSlot (k : DeferKind) (tag : Byte) (s : State) : State := { s with hli.deferred := some ⟨k, tag⟩ }

/-- Queue the reply of the outstanding deferred request and free the slot (R187). -/
def deferredReply (b : Body) (s : State) : State :=
  match s.hli.deferred with
  | some d => { send (.reply true (replyKind d.kind.code) d.tag b) s with hli.deferred := none }
  | none => s

/-- The reply of the outstanding deferred request, if it is of kind `k`. -/
def deferredReplyOf (k : DeferKind) (b : Body) (s : State) : State :=
  if s.hli.deferred.map (·.kind) == some k then deferredReply b s else s

/-! ### The protected memories (R175 to R178, R181) -/

def Imn.guard (i : Imn) : Mem → MemGuard
  | .acq => i.acq | .screen => i.screen | .image => i.image | .record => i.record

def Imn.setGuard (i : Imn) (g : MemGuard) : Mem → Imn
  | .acq => { i with acq := g } | .screen => { i with screen := g } | .image => { i with image := g }
  | .record => { i with record := g }

def updGuard (m : Mem) (f : MemGuard → MemGuard) (s : State) : State :=
  { s with imn := s.imn.setGuard (f (s.imn.guard m)) m }

/-- A capture by the capture mode: INTEG_CAPTURE FIRST (0) keeps a held address, LAST (1) replaces it (R176). -/
def capture (mode : Nat) (held : Option Nat) (addr : Nat) : Option Nat :=
  if mode = 0 then held <|> some addr else some addr

/-- A single-bit error found at a read: counted to 255, captured, INTEG_CORRECTED latched (R176). -/
def noteCorrected (m : Mem) (addr : Nat) (s : State) : State :=
  latch .integCorrected (updGuard m (fun g =>
    { g with corrected := satSucc 255 g.corrected
             capCorrected := capture s.hli.force.integCapture g.capCorrected addr }) s)

/-- An uncorrectable error found at a read: counted to 15, captured, INTEG_UNCORRECTABLE latched (R177, R178). -/
def noteUncorrectable (m : Mem) (addr : Nat) (s : State) : State :=
  latch .integUncorrectable (updGuard m (fun g =>
    { g with uncorrectable := satSucc 15 g.uncorrectable
             capUncorrectable := capture s.hli.force.integCapture g.capUncorrectable addr }) s)

/-- The free content of an acquisition entry with an uncorrectable error, in the field widths of its layout, with its
CORRUPT mark set (R177; log 12). -/
def acqDamaged (flips : List Nat) (e : AcqEntry) : AcqEntry :=
  { decodeAcq (encodeAcq (Config.acqAsRead flips e)) with corrupt := true }

/-- The same for a screening entry. -/
def screenDamaged (flips : List Nat) (e : ScreenEntry) : ScreenEntry :=
  let e' := Config.screenAsRead flips e
  { decodeScreen (encodeScreen e') with failCount := e'.failCount % 65536, corrupt := true }

/-- Read acquisition entry `i` through the IMN (R176, R177). An error that set the CORRUPT mark leaves no flipped bit, so no
later read counts it again; bits flipped since are an error of their own (R175, R181; log 66). -/
def readAcq (i : Nat) (s : State) : AcqEntry × State :=
  match s.slc.acq[i]? with
  | none => (AcqEntry.empty, s)
  | some p =>
    match p.flips with
    | [] => (p.val, s)
    | [_] => (p.val, noteCorrected .acq i { s with slc.acq := s.slc.acq.set i ⟨p.val, []⟩ })
    | fs =>
      let e := acqDamaged fs p.val
      (e, noteUncorrectable .acq i { s with slc.acq := s.slc.acq.set i ⟨e, []⟩ })

/-- Read screening entry `i` through the IMN (R176, R177), as `readAcq` reads an acquisition entry: an injection that the
fail count update of a CORRUPT entry took is met here (R181; log 66). -/
def readScreen (i : Nat) (s : State) : ScreenEntry × State :=
  match s.sgs.screen[i]? with
  | none => (ScreenEntry.empty, s)
  | some p =>
    match p.flips with
    | [] => (p.val, s)
    | [_] => (p.val, noteCorrected .screen i { s with sgs.screen := s.sgs.screen.set i ⟨p.val, []⟩ })
    | fs =>
      let e := screenDamaged fs p.val
      (e, noteUncorrectable .screen i { s with sgs.screen := s.sgs.screen.set i ⟨e, []⟩ })

/-- The entry as the IMN's repair stores it: BAD and latched bad; value, held count and age as read from the damaged word,
which are free in the widths of their fields (R75, R178; log 12, log 15). -/
def imageDamaged (flips : List Nat) (e : ImageEntry) : ImageEntry :=
  { e with value := (BitVec.ofInt 32 (Config.imageValueAsRead flips e.value)).toInt, quality := .bad
           heldCount := Config.imageHeldAsRead flips e.heldCount % 256
           age := Config.imageAgeAsRead flips e.age % 65536
           latchedBad := e.latchedBad || e.quality != .bad }

/-- Read the image entry of input signal `id` through the IMN (R75, R176, R178). -/
def readImage (id : Nat) (s : State) : ImageEntry × State :=
  match s.sgs.image[id - 1]? with
  | none => (ImageEntry.initial, s)
  | some p =>
    match p.flips with
    | [] => (p.val, s)
    | [_] => (p.val, noteCorrected .image id { s with sgs.image := s.sgs.image.set (id - 1) ⟨p.val, []⟩ })
    | fs =>
      let e := imageDamaged fs p.val
      (e, latchIf (p.val.quality != .bad) .signalBad
            (noteUncorrectable .image id { s with sgs.image := s.sgs.image.set (id - 1) ⟨e, []⟩ }))

/-- Read the image entries of several signals, in order. -/
def readImages : List Nat → State → List ImageEntry × State
  | [], s => ([], s)
  | id :: ids, s =>
    let (e, s) := readImage id s
    let (es, s) := readImages ids s
    (e :: es, s)

/-- Take the pending injection of a memory: the bits it flips, free (R181; log 13). It clears itself. -/
def takeInjection (m : Mem) (s : State) : List Nat × State :=
  let b := Config.injectedBit (2 * s.imn.freeCount)
  let c := Config.injectedBit (2 * s.imn.freeCount + 1)
  let s' := { updGuard m ({ · with inject := .none }) s with imn.freeCount := s.imn.freeCount + 1 }
  match (s.imn.guard m).inject with
  | .none => ([], s)
  | .single => ([b], s')
  | .double => ([b, if b = c then c + 1 else c], s')

/-- Write the whole image: fresh check bits, and a pending injection in the entry of WS_L, signal 1 (R181). -/
def writeImage (es : List ImageEntry) (s : State) : State :=
  let (fs, s) := takeInjection .image s
  { s with sgs.image := es.mapIdx (fun i e => ⟨e, if i = 0 then fs else []⟩) }

/-- Flip bit `b` of a stored word that has the bits of `fs` flipped. -/
def flipBit (fs : List Nat) (b : Nat) : List Nat := if fs.contains b then fs.erase b else fs ++ [b]

/-- Bits of a stored word flip (R175). -/
def Prot.flip (p : Prot α) (bits : List Nat) : Prot α := ⟨p.val, bits.foldl flipBit p.flips⟩

/-! ### Governing state, at rest (R3, R17) -/

/-- A change of governing state, with its STATE notice (R3). -/
def changeState (new : Gov) (cause : StateCause) (s : State) : State :=
  notify (.state s.dsc.gov new cause) { s with dsc.gov := new }

/-- The vehicle is at rest (R17). -/
def atRest (s : State) : Bool :=
  decide (s.sgs.vspd.value ≤ s.hli.force.restSpeed) && (s.sgs.vspd.quality == .fresh || s.sgs.vspd.quality == .kept)

/-- A SEVERE record is held, ACTIVE or CLEARABLE (R5). -/
def severeHeld (s : State) : Bool := s.epu.trips.any (·.severe)

/-- A procedure is running: grid element check (1) or steering supply check (2) (R5); with both running, 1 (log 52). -/
def procRunning (s : State) : Option Nat :=
  if s.rgv.check.run.isSome then some 1 else if s.sgv.run.isSome then some 2 else none

/-! ### The directory (R27) -/

def stationAt (addr : Nat) (s : State) : Option Station := s.slc.dir.find? (·.addr == addr)

def isExcluded (addr : Nat) (s : State) : Bool :=
  match stationAt addr s with
  | some e => e.state == .excluded
  | none => false

/-- The directory with the entry of an address changed. -/
def updStation (addr : Nat) (f : Station → Station) (s : State) : State :=
  { s with slc.dir := s.slc.dir.map (fun e => if e.addr == addr then f e else e) }

/-! ### Bindings (R28): the station of the WRITE entry whose source is an output (log 30) -/

/-- The address of the station bound to an output signal. -/
def boundAddr (sig : Nat) (s : State) : Option Nat :=
  (s.slc.acq.find? (fun p => p.val.valid && p.val.func == .write && p.val.signal == sig)).map (·.val.addr)

/-- A station is bound to an output when a valid WRITE entry addresses it (R59). -/
def boundToOutput (addr : Nat) (s : State) : Bool :=
  s.slc.acq.any (fun p => p.val.valid && p.val.func == .write && p.val.addr == addr)

/-! ### The service queue (R56 to R58) -/

/-- Place held items while the queue has room, in the order in which they began to be held (R56). -/
def joinHeld (s : State) : State :=
  { s with slc.queue := s.slc.queue ++ s.slc.held.take (8 - s.slc.queue.length)
           slc.held := s.slc.held.drop (8 - s.slc.queue.length) }

/-- An item of a procedure joins the tail, or is held while the queue is full (R56). -/
def joinItem (it : Item) (s : State) : State :=
  if s.slc.queue.length < 8 then { s with slc.queue := s.slc.queue ++ [it] }
  else { s with slc.held := s.slc.held ++ [it] }

/-- The head of the service queue has its exchange in the slot. -/
def headInSlot (s : State) : Bool :=
  match s.slc.slot with
  | some x => x.claim == .service
  | none => false

/-- The head leaves the queue (R58). -/
def popHead (s : State) : State := joinHeld { s with slc.queue := s.slc.queue.tail }

/-- The service pass ends when the queue is empty or the budget is used (R57). -/
def endService (s : State) : State :=
  if s.slc.phase = .service ∧ s.slc.slot.isNone ∧
      (s.slc.queue.isEmpty ∨ s.hli.force.serviceBudget ≤ s.slc.slots) then
    { s with slc.phase := .done }
  else s

/-- A procedure that aborts takes its own waiting items out; one in its slot completes, its outcome discarded (R58). -/
def removeItems (c : Claimant) (s : State) : State :=
  let mine (it : Item) : Bool := it.claimant == c
  let q := if headInSlot s then
      (s.slc.queue.take 1).map (fun it => if mine it then { it with discard := true } else it)
        ++ (s.slc.queue.drop 1).filter (fun it => !mine it)
    else s.slc.queue.filter (fun it => !mine it)
  joinHeld { s with slc.queue := q, slc.held := s.slc.held.filter (fun it => !mine it) }

end Sys2Proof.Machine
end

