-- ==== Sys2Proof/Machine/Sgs.lean ====
section
/-! DEFINITION. The Signal Screen: the tests, screening at publication, derived signals, SIGNAL-READ, and the image at
entry to HALTED (chapter 4). -/

namespace Sys2Proof.Machine

/-! ### Paths (R71 to R73) -/

/-- The hold path (R71). -/
def holdPath (id : Nat) (e : ImageEntry) : ImageEntry :=
  let h := satSucc 255 e.heldCount
  match e.quality with
  | .bad => e
  | .absent => { e with value := 0, heldCount := h, quality := if h ≤ holdAllowance id then .absent else .bad }
  | _ => { e with heldCount := h, quality := if h ≤ holdAllowance id then .held else .bad }

/-- The substitution path with partner `p`, whose entry in image N-1 is `q` (R72; log 41). -/
def substPath (id p : Nat) (q e : ImageEntry) : ImageEntry :=
  match q.quality with
  | .fresh | .kept => { e with value := q.value, quality := .subst, heldCount := 0, partner := some p }
  | .subst =>
    let h := satSucc 255 e.heldCount
    if h ≤ holdAllowance id then
      { e with value := q.value, quality := .subst, heldCount := h, partner := some p }
    else { e with value := q.value, quality := .bad, heldCount := h }
  | _ => holdPath id e

/-- The entry of signal `id` in image N-1, given the whole image. -/
def entryOf (old : List ImageEntry) (id : Nat) : ImageEntry := old.getD (id - 1) .initial

/-- A signal that is not due (R73). -/
def notDue (old : List ImageEntry) (id : Nat) (e : ImageEntry) : ImageEntry :=
  match e.quality with
  | .fresh | .kept => { e with quality := .kept, heldCount := 0 }
  | .held => holdPath id e
  | .subst =>
    match e.partner with
    | some p => substPath id p (entryOf old p) e
    | none => holdPath id e
  | .absent => if e.heldCount = 0 then e else holdPath id e
  | .bad => e

/-! ### Tests (R69, R70) -/

/-- The value delivered for a signal in this frame, if any: a DELIVERED item goes before a MISSED one (R177). -/
def deliveredFor (buf : List Delivery) (id : Nat) : Option Int :=
  buf.findSome? (fun d =>
    match d.result with
    | .delivered v => if d.signal == id then some v else none
    | .missed _ => none)

/-- Whether the buffer holds an item for a signal. -/
def hasItem (buf : List Delivery) (id : Nat) : Bool := buf.any (·.signal == id)

/-- Whether a change or difference from the reference is at most the bound; with no reference the test passes. -/
def within (bound d : Int) : Option Int → Bool
  | some r => decide (((d - r).natAbs : Int) ≤ bound)
  | none => true

/-- A test on the delivered value `d` (R69). -/
def testPasses (old : List ImageEntry) (buf : List Delivery) (e : ScreenEntry) (id : Nat) (d : Int) : Bool :=
  let own := entryOf old id
  let other := entryOf old e.partner
  match e.test with
  | .range => decide (e.low ≤ d) && decide (d ≤ e.high)
  | .step => within e.low d (if own.quality.usable || own.quality == .held then some own.value else none)
  | .agree =>
    within e.low d (deliveredFor buf e.partner <|> if other.quality.usable then some other.value else none)
  | .unknown => false

/-- The fail count update: a write of the screening memory, which takes a pending injection, met at the next read of the
entry (R70, R181); of an entry that is CORRUPT the mark stays (log 66). -/
def countFailure (i : Nat) (e : ScreenEntry) (s : State) : State :=
  let (fs, s) := takeInjection .screen s
  bump .screenRejects
    { s with sgs.screen := s.sgs.screen.set i ⟨{ e with failCount := satSucc 65535 e.failCount }, fs⟩ }

/-- Evaluate the valid entries naming a signal, from those with the given indices, on its delivered value: the fail
action and partner of the first that fails, or none (R70, R177). Which entries are valid and name it is taken from
`named`, the good content of the table as the publication found it, ahead of the guarded read: an entry found damaged
fails the signal of its good content, and no signal that its damaged content names until the next publication, so that
the order of the signals does not change the image (R69; log 42, log 49). -/
def evaluate (old : List ImageEntry) (buf : List Delivery) (named : List ScreenEntry) (id : Nat) (d : Int) :
    List Nat → State → Option (FailAction × Nat) × State
  | [], s => (none, s)
  | i :: is, s =>
    let c := named.getD i .empty
    if c.valid && c.signal == id then
      let (e, s) := readScreen i s
      if e.corrupt then (some (.bad, 0), countFailure i e s)
      else if testPasses old buf e id d then evaluate old buf named id d is s
      else (some (e.action, e.partner), countFailure i e s)
    else evaluate old buf named id d is s

/-- The outcome of one signal before its age is set (R70 to R73). -/
def screenSignal (old : List ImageEntry) (buf : List Delivery) (named : List ScreenEntry) (id : Nat) (s : State) :
    ImageEntry × State :=
  let e := entryOf old id
  match deliveredFor buf id with
  | some d =>
    let (r, s) := evaluate old buf named id d (List.range 96) s
    match r with
    | none => ({ e with value := d, quality := .fresh, heldCount := 0 }, s)
    | some (.subst, p) => (substPath id p (entryOf old p) e, s)
    | some (.hold, _) => (holdPath id e, s)
    | some (_, _) => ({ e with quality := .bad }, s)
  | none => (if hasItem buf id then holdPath id e else notDue old id e, s)

/-- The age and the latched-bad mark of a decided entry (R66, R74). -/
def finishEntry (old new : ImageEntry) : ImageEntry :=
  { new with age := if new.quality = .fresh then 0 else if new.quality = .absent then 65535
                    else satSucc 65535 new.age
             latchedBad := new.latchedBad || (new.quality == .bad && old.quality != .bad) }

/-- The input signals in the order the SGS takes them, which does not change the image (R69; log 42). -/
def inputIds : List Nat := (List.range 34).map (· + 1)

/-- Screen the given signals, in order. -/
def screenSignals (old : List ImageEntry) (buf : List Delivery) (named : List ScreenEntry) :
    List Nat → State → List ImageEntry × State
  | [], s => ([], s)
  | id :: ids, s =>
    let e := entryOf old id
    let (n, s) := screenSignal old buf named id s
    let (ns, s) := screenSignals old buf named ids (latchIf (n.quality == .bad && e.quality != .bad) .signalBad s)
    (finishEntry e n :: ns, s)

/-! ### Derived signals (R76, R77) -/

/-- The numerator of the circle constant over `piDen` (log 21). -/
def piNum : Int := 31415926535897932384626433832795028841971

def piDen : Int := 10 ^ 40

/-- num/den rounded to the nearest whole step. -/
def nearest (num den : Int) : Int := (2 * num + den) / (2 * den)

/-- The lowest of the qualities of usable signals, in the order FRESH, KEPT, SUBST. -/
def lowestQuality (es : List ImageEntry) : Quality :=
  if es.any (·.quality == .subst) then .subst else if es.any (·.quality == .kept) then .kept else .fresh

/-- The mean of front wheel speeds converted, in 0.1 km/h: a speed without sign, so its magnitude (R76, R112; log 54). -/
def frontSpeed (g : Settings) (fs : List ImageEntry) : Int :=
  nearest (((fs.map (·.value)).sum : Int).natAbs * g.wheelRadius * 120 * piNum) (fs.length * 1000000 * piDen)

/-- VSPD in 0.1 km/h (R76); the last value computed is the 0 of HALTED until one is (log 55). -/
def vspdOf (g : Settings) (es : List ImageEntry) (old : Derived) : Derived :=
  let fs := [entryOf es 3, entryOf es 4].filter (·.quality.usable)
  let ws := [entryOf es 1, entryOf es 2].filter (·.quality.usable)
  if 0 < fs.length then
    ⟨frontSpeed g fs, lowestQuality fs⟩
  else if 0 < ws.length then
    ⟨nearest ((ws.map (fun e => (e.value.natAbs : Int))).sum * g.wheelRadius * 12000 * piNum)
        (ws.length * g.gearRatio * 1000000 * piDen), .subst⟩
  else ⟨old.value, .bad⟩

/-- PAYLOAD_NOW in 0.1 t (R77); the last value computed is the 0 of HALTED until one is (log 55). -/
def payloadOf (g : Settings) (es : List ImageEntry) (old : Derived) : Derived :=
  let sp := [entryOf es 24, entryOf es 25, entryOf es 26, entryOf es 27]
  if sp.all (·.quality.usable) then
    ⟨max 0 (roundNearest .payloadNow (((sp.map (·.value)).sum - g.strutTare) * g.payloadGain) 100), lowestQuality sp⟩
  else ⟨old.value, .bad⟩

/-! ### Publication (R70) and entry to HALTED (R66) -/

/-- The good content of the screening table as it stands. -/
def screenContent (s : State) : List ScreenEntry := s.sgs.screen.map (·.val)

/-- Screen the delivery buffer against image N-1, as read, and publish image N with its derived signals (R50, R70, R76,
R77). -/
def publishImage (old : List ImageEntry) (s : State) : State :=
  let (es, s) := screenSignals old s.slc.delivery (screenContent s) inputIds s
  let v := vspdOf s.hli.force es s.sgs.vspd
  let p := payloadOf s.hli.force es s.sgs.payload
  { writeImage es s with sgs.vspd := v, sgs.payload := p, sgs.imageFrame := s.slc.frameNo }

/-- An image entry at entry to HALTED: the latched-bad mark is kept (R66, R79). -/
def haltedEntry (e : ImageEntry) : ImageEntry := { ImageEntry.initial with latchedBad := e.latchedBad }

/-- The image at entry to HALTED (R2, R66, R76, R77). -/
def haltImage (s : State) : State :=
  { writeImage (s.sgs.image.map (fun p => haltedEntry p.val)) s with
    sgs.vspd := ⟨0, .absent⟩, sgs.payload := ⟨0, .absent⟩ }

/-! ### SIGNAL-READ (R78) -/

/-- The item of an output or derived signal. -/
def postedItem (p : Posted) : List Byte := vQuant p.value ++ vOpt vFrame 0 p.frame

/-- The item of an input signal. -/
def imageItem (e : ImageEntry) : List Byte :=
  vQuant e.value ++ vEnum (qualityCode e.quality) ++ vCount e.age ++ vCount e.heldCount ++ vMark e.latchedBad

/-- The item of VSPD or PAYLOAD_NOW. -/
def derivedItem (d : Derived) (frame : Nat) : List Byte :=
  vQuant d.value ++ vEnum (qualityCode d.quality) ++ vFrame frame

/-- The items of the ids, in request order, read through the IMN. -/
def signalItems : List Nat → State → List (List Byte) × State
  | [], s => ([], s)
  | id :: ids, s =>
    if isInput id then
      let (e, s) := readImage id s
      let (r, s) := signalItems ids s
      (imageItem e :: r, s)
    else
      let item := if id = 60 then derivedItem s.sgs.vspd s.sgs.imageFrame
        else if id = 61 then derivedItem s.sgs.payload s.sgs.imageFrame
        else postedItem (s.out.get id)
      let (r, s) := signalItems ids s
      (item :: r, s)

/-- Clear the latched-bad marks of the inputs named; a BAD signal's mark is set again at once (R74). -/
def clearLatched (ids : List Nat) (s : State) : State :=
  { s with sgs.image := s.sgs.image.mapIdx (fun i p =>
      if ids.contains (i + 1) then { p with val := { p.val with latchedBad := p.val.quality == .bad } } else p) }

/-- SIGNAL-READ, taken (R78, R197). -/
def takeSignalRead (tag : Byte) (ids : List Byte) (s : State) : State :=
  let ns := ids.map (·.toNat)
  if ns.length = 0 ∨ 16 < ns.length then refuse 0x09 tag .format .length 0x09 s
  else
    match ns.find? (fun n => !inCatalog n) with
    | some bad => refuse 0x09 tag .range .signal bad s
    | none =>
      let (items, s) := signalItems ns s
      clearLatched ns (done 0x09 tag (vList id items) s)

/-- A signal's held count passes its hold allowance (R71): the step of that event alone (log 3). -/
def holdExceeded (id : Nat) (s : State) : State :=
  match s.sgs.image[id - 1]? with
  | none => s
  | some p =>
    if isInput id ∧ holdAllowance id ≤ p.val.heldCount ∧ p.val.quality ≠ .bad then
      let h := max p.val.heldCount (holdAllowance id + 1)
      let e := { p.val with quality := .bad, latchedBad := true, heldCount := h }
      latch .signalBad { s with sgs.image := s.sgs.image.set (id - 1) ⟨e, p.flips⟩ }
    else s

end Sys2Proof.Machine
end

