-- ==== Sys2Proof/Machine/Sgv.lean ====
section
/-! DEFINITION. The Steering Governor: the computation, its outputs, the steering supply check, and what the host reads
(chapter 9). -/

namespace Sys2Proof.Machine

/-! ### The steering supply check (R155 to R159) -/

/-- The isolate ACT has argument 1, the release ACT argument 0 (R156, R157). -/
def steerItem (addr arg : Nat) : Item := ⟨.steerCheck, addr, 6, .act, false, arg, none, false, 0, false⟩

/-- The pending outcome after an abort: the first abort is kept, one that meets PASS or FAIL replaces it (R158). -/
def abortPending (cause : ProcCause) : Option (SteerOutcome × ProcCause) → Option (SteerOutcome × ProcCause)
  | some (.aborted, c) => some (.aborted, c)
  | some (.none, c) => some (.none, c)
  | _ => some (.aborted, cause)

/-- The run goes to phase RELEASE with the pending outcome given: its isolate ACT leaves the queue and the release ACT
joins; in phase RELEASE no second release joins (R158). -/
def toRelease (r : SteerRun) (pending : Option (SteerOutcome × ProcCause)) (s : State) : State :=
  if r.phase = .release then { s with sgv.run := some { r with pending := pending } }
  else
    let s := removeItems .steerCheck s
    joinItem (steerItem r.addr 0) { s with sgv.run := some { r with phase := .release, pending := pending } }

/-- An abort event of the check (R158). -/
def steerAbort (cause : ProcCause) (s : State) : State :=
  match s.sgv.run with
  | none => s
  | some r => toRelease r (abortPending cause r.pending) s

/-- The run ends: the result record is written whole, and the PROC notice (R159, R160). -/
def steerEnd (r : SteerRun) (o : SteerOutcome) (cause : ProcCause) (unconfirmed : Bool) (s : State) : State :=
  notify (.proc 2 (steerOutcomeCode o) cause s.slc.frameNo)
    { s with sgv.run := none, sgv.result := ⟨o, cause, r.init, r.final, s.slc.frameNo, unconfirmed⟩ }

/-- The release ACT's outcome reaches the SGV (R159). -/
def steerReleased (worked : Bool) (r : SteerRun) (s : State) : State :=
  let (o, c) := r.pending.getD (.none, .none)
  if worked then steerEnd r o c false { s with sgv.isolation := false }
  else steerEnd r (if o = .pass then .fail else o) c true s

/-- An outcome handed to the check (R157 to R159). -/
def steerOutcome (o : ExOutcome) (s : State) : State :=
  match s.sgv.run with
  | none => s
  | some r =>
    if r.phase = .release then
      match o with
      | .takenReady | .takenNotReady => steerReleased true r s
      | .excluded => steerReleased false { r with pending := abortPending .stationExcluded r.pending } s
      | _ => steerReleased false r s
    else
      match o with
      | .takenReady | .takenNotReady => { s with sgv.run := some { r with phase := .settle } }
      | .untaken | .noReply | .check => steerAbort .exchange s
      | .excluded => steerAbort .stationExcluded s
      | .loopDown => steerAbort .loopDown s

/-- A station becomes EXCLUDED: a check whose station it is aborts (R158). -/
def steerStationExcluded (addr : Nat) (s : State) : State :=
  match s.sgv.run with
  | some r => if r.addr == addr then steerAbort .stationExcluded s else s
  | none => s

/-- A STEER_SUPPLY raise of frame `frame` (R153). -/
def steerSupplyRaise (frame : Nat) (s : State) : State :=
  let s := { s with sgv.result := ⟨.none, .supply, none, none, frame, s.sgv.result.unconfirmed⟩ }
  match s.sgv.run with
  | none => s
  | some r => toRelease r (some (.none, .supply)) s

/-- A GOVERNOR-RESET ends the run; no release joins (R158, R159). -/
def steerReset (s : State) : State :=
  match s.sgv.run with
  | none => s
  | some r => steerEnd r .aborted .reset s.sgv.isolation s

/-- The outcome of a clean watch (R157): pressures in 0.01 MPa. -/
def watchOutcome (g : Settings) (init final : Int) : SteerOutcome :=
  if (g.accMin : Int) * 100 ≤ init ∧ init - final ≤ g.accDropMax * 10 then .pass else .fail

/-- The twentieth watched image fixes the pending outcome and the release joins (R157). -/
def watchEnd (r : SteerRun) (acc : Int) (s : State) : State :=
  toRelease { r with watched := 20, final := some acc }
    (some (watchOutcome s.hli.force (r.init.getD 0) acc, .none)) s

/-- The check's part of a computation: leaving rest, ahead of ST_ACC in SETTLE and WATCH (R157, R158; log 60). An image that
aborts the run is not counted among the images watched (log 64). -/
def steerWatch (acc : ImageEntry) (s : State) : State :=
  let s := if atRest s then s else steerAbort .moved s
  match s.sgv.run with
  | none => s
  | some r =>
    match r.phase with
    | .settle =>
      if acc.quality = .fresh then
        { s with sgv.run := some { r with phase := .watch, init := some acc.value, watched := 0 } }
      else steerAbort .accNotFresh s
    | .watch =>
      if acc.quality = .fresh then
        if 19 ≤ r.watched then watchEnd r acc.value s
        else { s with sgv.run := some { r with watched := r.watched + 1 } }
      else steerAbort .accNotFresh s
    | _ => s

/-- The steering station bound to SV_CMD (R28; log 30). -/
def steerStation (s : State) : Nat := (boundAddr 48 s).getD 0

/-- STEER-CHECK-START, taken (R156). -/
def takeSteerCheckStart (tag : Byte) (s : State) : State :=
  if s.dsc.gov ≠ .standby then refuse 0x12 tag .state .notStandby (govCode s.dsc.gov) s
  else if !atRest s then refuse 0x12 tag .state .notAtRest 0 s
  else if s.dsc.stopLine then refuse 0x12 tag .state .stopAsserted 0 s
  else if s.sgv.run.isSome then refuse 0x12 tag .state .procRunning 2 s
  else if s.hli.force.serviceBudget = 0 then refuse 0x12 tag .state .noServiceBudget 5 s
  else if loopNotUp s then refuse 0x12 tag .state .loopNotUp (loopCode s.slc.loopState) s
  else if isExcluded (steerStation s) s then refuse 0x12 tag .state .stationExcluded (steerStation s) s
  else
    let a := steerStation s
    done 0x12 tag [] (joinItem (steerItem a 1)
      { s with sgv.run := some ⟨.isolate, a, s.slc.frameNo, none, none, 0, none⟩ })

/-! ### The computation (R148 to R154) -/

/-- The commanded angle moved toward the demand by at most `step` (R149). -/
def moveAngle (a target step : Int) : Int :=
  if a + step < target then a + step else if target < a - step then a - step else target

/-- The commanded angle after the computation (R149): `rate` in 0.1 degrees per second, the step rounded down. A first
angle is ST_ANG as it stands, in range or not (log 51). -/
def nextAngle (running : Bool) (g : Settings) (rate target : Int) (ang : ImageEntry) : Option Int → Option Int
  | none => if running then none else if ang.quality.usable then some ang.value else none
  | some a => if running then some a else some (moveAngle a target (rate * g.framePeriod / 100))

/-- The valve command in per mille (R150). -/
def valveCommand (running : Bool) (ang : ImageEntry) : Option Int → Int
  | some a => if running || !ang.quality.usable then 0 else clamp (-1000) 1000 ((a - ang.value).tdiv 2)
  | none => 0

/-- The tracking counts and STEER_TRACK after a computation with gap `gap`, in 0.01 degrees (R151). -/
def trackStep (gap : Nat) (v : Sgv) : Sgv :=
  let wide := if 500 < gap then v.wide + 1 else 0
  let narrow := if gap ≤ 200 then v.narrow + 1 else 0
  { v with wide := wide, narrow := narrow
           track := if 10 ≤ wide then true else if 10 ≤ narrow then false else v.track }

/-- The yaw bias in 0.1 % (R152): `vspd` in 0.1 km/h. -/
def yawBias (gov : Gov) (g : Settings) (vspd : Derived) : Option Int → Int
  | some a =>
    if (gov = .drive ∨ gov = .safeHold) ∧ 300 < a.natAbs ∧ vspd.quality.usable ∧ 50 ≤ vspd.value ∧ vspd.value ≤ 400
    then a.sign * ((g.yawGain * a.natAbs / 400 : Nat) : Int)
    else 0
  | none => 0

/-- The supply count and STEER_SUPPLY after a computation (R153). -/
def supplyStep (prs : ImageEntry) (v : Sgv) : Sgv :=
  if prs.quality = .bad then { v with supply := true }
  else if prs.quality.usable then
    if prs.value < 1200 then { v with supplyCount := v.supplyCount + 1, supply := v.supply || decide (2 ≤ v.supplyCount) }
    else { v with supplyCount := 0, supply := false }
  else v

/-- The accumulator count and ACC_LOW after a computation (R154). -/
def accStep (g : Settings) (acc : ImageEntry) (v : Sgv) : Sgv :=
  if acc.quality.usable then
    if acc.value < g.accMin * 100 then
      { v with accCount := v.accCount + 1, accLow := v.accLow || decide (2 ≤ v.accCount) }
    else { v with accCount := 0, accLow := v.accLow && decide (acc.value < g.accMin * 100 + 50) }
  else v

/-- Tracking is taken only with A_c set, ST_ANG usable and no run in progress (R151). -/
def trackCompute (running : Bool) (ang : ImageEntry) (v : Sgv) : Sgv :=
  match v.ac with
  | some a => if ang.quality.usable && !running then trackStep (a - ang.value).natAbs v else v
  | none => v

/-- The computation of frame N (R148), with the governing state, the demand steer angle and the steer rate it reads. -/
def computeSgv (gov : Gov) (target rate : Int) (s : State) : State :=
  let (ang, s) := readImage 28 s
  let (prs, s) := readImage 29 s
  let (acc, s) := readImage 30 s
  let g := s.hli.force
  let running := s.sgv.run.isSome
  let v1 := { s.sgv with ac := nextAngle running g rate target ang s.sgv.ac }
  let v2 := accStep g acc (supplyStep prs (trackCompute running ang v1))
  let staged : SgvStaged :=
    ⟨s.slc.frameNo, valveCommand running ang v2.ac, yawBias gov g s.sgs.vspd v2.ac, ⟨v2.track, v2.accLow, v2.supply⟩⟩
  steerWatch acc { s with sgv := { v2 with staged := some staged } }

/-- The SGV posts its outputs (R50, R148). -/
def postSgv (s : State) : State :=
  match s.sgv.staged with
  | none => s
  | some g =>
    { s with out.svCmd := ⟨g.svCmd, some g.frame⟩, out.yaw := ⟨g.yaw, some g.frame⟩, sgv.cond := some g.cond
             sgv.staged := none }

/-- The SGV at entry to STANDBY and, with its run ended, at a governor reset: the run, the mark and the record are kept
(R161). The outputs are set back by the caller. -/
def sgvInitial (s : State) : State :=
  { s with sgv := { Sgv.initial with run := s.sgv.run, isolation := s.sgv.isolation, result := s.sgv.result } }

/-! ### The counts that reach their numbers, as events of their own (R151, R153, R154, R157; log 3) -/

/-- STEER_TRACK arises. -/
def steerTrackArise (s : State) : State :=
  if s.dsc.gov ≠ .halted ∧ 9 ≤ s.sgv.wide ∧ !s.sgv.track then
    { s with sgv.wide := max 10 s.sgv.wide, sgv.narrow := 0, sgv.track := true }
  else s

/-- STEER_TRACK goes. -/
def steerTrackGo (s : State) : State :=
  if s.dsc.gov ≠ .halted ∧ 9 ≤ s.sgv.narrow ∧ s.sgv.track then
    { s with sgv.narrow := max 10 s.sgv.narrow, sgv.wide := 0, sgv.track := false }
  else s

/-- STEER_SUPPLY becomes present. -/
def steerSupplyArise (s : State) : State :=
  if s.dsc.gov ≠ .halted ∧ 2 ≤ s.sgv.supplyCount ∧ !s.sgv.supply then
    { s with sgv.supplyCount := max 3 s.sgv.supplyCount, sgv.supply := true }
  else s

/-- ACC_LOW becomes present. -/
def accLowArise (s : State) : State :=
  if s.dsc.gov ≠ .halted ∧ 2 ≤ s.sgv.accCount ∧ !s.sgv.accLow then
    { s with sgv.accCount := max 3 s.sgv.accCount, sgv.accLow := true }
  else s

/-- The watch ends at its twentieth image, whose ST_ACC is FRESH. -/
def steerWatchEnd (s : State) : State :=
  match s.sgv.run with
  | none => s
  | some r =>
    if r.phase = .watch ∧ 19 ≤ r.watched then
      let (acc, s) := readImage 30 s
      if acc.quality = .fresh then watchEnd r acc.value s else s
    else s

/-! ### What the host sees (R160; log 22) -/

/-- The result record as a reply carries it. -/
def steerResultRecord (x : SteerResult) : List Byte :=
  vEnum (steerOutcomeCode x.outcome) ++ vEnum (procCauseCode x.cause) ++ vOpt vQuant 0 x.init ++ vOpt vQuant 0 x.final
    ++ vFrame x.frame ++ vMark x.unconfirmed

/-- The reply of PROC-RESULT for procedure 2; what is held only while RUNNING is absent when IDLE (R160, R199). -/
def steerResultBytes (s : State) : List Byte :=
  vMark s.sgv.run.isSome
    ++ vOpt vEnum 0 (s.sgv.run.map (fun r => steerPhaseCode r.phase)) ++ vOpt vCount 0 (s.sgv.run.map (·.addr))
    ++ vOpt vFrame 0 (s.sgv.run.map (·.start)) ++ vOpt vCount 0 (s.sgv.run.map (·.watched))
    ++ vOpt vQuant 0 (s.sgv.run.bind (·.init))
    ++ vOpt vEnum 0 ((s.sgv.run.bind (·.pending)).map (fun p => steerOutcomeCode p.1))
    ++ vOpt vEnum 0 ((s.sgv.run.bind (·.pending)).map (fun p => procCauseCode p.2))
    ++ vOpt vMark false (s.sgv.run.map (fun _ => s.sgv.isolation))
    ++ steerResultRecord s.sgv.result

end Sys2Proof.Machine
end

