-- ==== Sys2Proof/Machine/Trc.lean ====
section
/-! DEFINITION. The Trip Recorder: the record set, records and the ring, the recorder states, STREAM and CAPTURE, and the
recorder's requests (chapter 10). -/

namespace Sys2Proof.Machine

/-- K, the number of valid entries of the record set (R162). -/
def recK (s : State) : Nat := (s.trc.recset.filterMap id).length

/-- The capacity of the ring in records (R164). -/
def capacity (s : State) : Nat := 16384 / (recK s + 3)

/-- The ring emptied: counts and cursor 0, trip marks and missed-trip count cleared (R162, R165). -/
def emptyRing (s : State) : State :=
  { s with trc.ring := [], trc.nextSlot := 0, trc.unread := 0, trc.cursor := 0, trc.marks := [], trc.missed := 0
           trc.announced := false }

/-! ### Reading records through the IMN (R178) -/

/-- The flipped bits of a ring word as a mask; bits from 48 up are check bits (log 12). -/
def ringMask (fs : List Nat) : RingWord := fs.foldl (fun m b => m ^^^ ((1 : RingWord) <<< b)) 0

/-- Read word `w` of the record at position `p`: its value, and whether an uncorrectable error was met. -/
def readRingWord (p w : Nat) (s : State) : RingWord × Bool × State :=
  match s.trc.ring[p]? with
  | none => (0, false, s)
  | some r =>
    match r.words[w]? with
    | none => (0, false, s)
    | some x =>
      match x.flips with
      | [] => (x.val, false, s)
      | [_] =>
        (x.val, false, noteCorrected .record (r.base + w)
          { s with trc.ring := s.trc.ring.set p { r with words := r.words.set w ⟨x.val, []⟩ } })
      | fs => (x.val ^^^ ringMask fs, true, noteUncorrectable .record (r.base + w) s)

/-- Read words of a record, in order. -/
def readRingWords (p : Nat) : List Nat → State → List RingWord × Bool × State
  | [], s => ([], false, s)
  | w :: ws, s =>
    let (x, c, s) := readRingWord p w s
    let (xs, cs, s) := readRingWords p ws s
    (x :: xs, c || cs, s)

/-- Read the record at position `p`. -/
def readRecord (p : Nat) (s : State) : List RingWord × Bool × State :=
  readRingWords p (List.range (recK s + 3)) s

/-- A record as RECORD-READ carries it: its words and its corrupt mark. -/
def recordBytes (ws : List RingWord) (corrupt : Bool) : List Byte :=
  ws.flatMap (fun w => beBytes 6 w.toNat) ++ vMark corrupt

/-- Read the records at the given positions, in order, as bytes. -/
def readRecords : List Nat → State → List (List Byte) × State
  | [], s => ([], s)
  | p :: ps, s =>
    let (ws, c, s) := readRecord p s
    let (rs, s) := readRecords ps s
    (recordBytes ws c :: rs, s)

/-! ### Making a record (R163, R167) -/

/-- The mark of an input signal, VSPD or PAYLOAD_NOW (R163). -/
def qualityMark : Quality → Nat
  | .fresh => 3
  | .kept | .subst => 2
  | .held => 1
  | _ => 0

/-- The mark of a posted signal in frame N (R163). -/
def postedMark (n : Nat) (p : Posted) : Nat := if p.frame = some n then 3 else 0

/-- Value and mark of a signal, an input read through the IMN. -/
def recordedSignal (id n : Nat) (s : State) : (Int × Nat) × State :=
  if isInput id then
    let (e, s) := readImage id s
    ((e.value, qualityMark e.quality), s)
  else if id = 60 then ((s.sgs.vspd.value, qualityMark s.sgs.vspd.quality), s)
  else if id = 61 then ((s.sgs.payload.value, qualityMark s.sgs.payload.quality), s)
  else (((s.out.get id).value, postedMark n (s.out.get id)), s)

/-- Values and marks of the record set, in position order. -/
def recordedSignals (n : Nat) : List Nat → State → List (Int × Nat) × State
  | [], s => ([], s)
  | id :: ids, s =>
    let (x, s) := recordedSignal id n s
    let (xs, s) := recordedSignals n ids s
    (x :: xs, s)

/-- The status word (R163, "FMT: RECORDER WORDS"). -/
def statusWord (s : State) : Nat :=
  govCode s.dsc.gov + 4 * s.epu.trips.length + bit (severeHeld s) 6 + 65536 * s.hli.flags.toNat

/-- The mark word: position p has its two bits at 2p+1 and 2p. -/
def markWord : List Nat → Nat
  | [] => 0
  | m :: ms => m + 4 * markWord ms

/-- The words of the record of frame `n`; the status word is as it stands before the signals are read (log 8). -/
def recordWords (n : Nat) (s : State) : List RingWord × State :=
  let status := statusWord s
  let (xs, s) := recordedSignals n (s.trc.recset.filterMap id) s
  (BitVec.ofNat 48 n :: BitVec.ofNat 48 status :: BitVec.ofNat 48 (markWord (xs.map (·.2)))
    :: xs.map (fun x => BitVec.ofInt 48 x.1), s)

/-- A new record joins as the newest, in the next slot of the ring; a pending injection goes into its frame number word
(R164, R181; log 16). -/
def joinRecord (ws : List RingWord) (s : State) : State :=
  let (fs, s) := takeInjection .record s
  let cap := capacity s
  let r : RingRecord := ⟨s.trc.nextSlot * (recK s + 3), ws.mapIdx (fun i w => ⟨w, if i = 0 then fs else []⟩)⟩
  let old := if s.trc.ring.length < cap then s.trc.ring else s.trc.ring.drop 1
  { s with trc.ring := old ++ [r], trc.nextSlot := (s.trc.nextSlot + 1) % cap }

/-! ### STREAM (R168, R169) -/

/-- The records a STREAM read carries: the oldest `n` unread, which leave the unread count. -/
def takeUnread (n : Nat) (s : State) : List (List Byte) × State :=
  let first := s.trc.ring.length - s.trc.unread
  let (rs, s) := readRecords ((List.range n).map (first + ·)) s
  let left := s.trc.unread - n
  (rs, { s with trc.unread := left, trc.announced := s.trc.announced && decide (s.trc.params.block ≤ left) })

/-- The results of a STREAM read: the records, the unread count left, the END mark (R169; log 22). -/
def streamBytes (rs : List (List Byte)) (s : State) (ended : Bool) : List Byte :=
  vList id rs ++ vCount s.trc.unread ++ vMark ended

/-- The unread count has reached the block size: the notice, and then the waiting read's reply (R168, R169). -/
def blockReady (s : State) : State :=
  let s := notify .blockReady { s with trc.announced := true }
  if s.hli.deferred.map (·.kind) == some .recordRead then
    let (rs, s) := takeUnread s.trc.params.block s
    deferredReply (.done (streamBytes rs s false)) s
  else s

/-- A record joins in STREAM mode (R168). -/
def streamRecord (ws : List RingWord) (s : State) : State :=
  if s.trc.unread = capacity s then latch .recLost (bump .recLost (joinRecord ws s))
  else
    let s := joinRecord ws { s with trc.unread := s.trc.unread + 1 }
    if s.trc.unread = s.trc.params.block then blockReady s else s

/-! ### CAPTURE (R170) -/

/-- Entry to FROZEN (R170). -/
def freeze (s : State) : State :=
  let s := { s with trc.st := .frozen, trc.postCount := 0, trc.cursor := 0 }
  match s.trc.marks.head? with
  | some (f, c) => notify (.frozen f c) s
  | none => s

/-- A record joins in CAPTURE mode (R170). -/
def captureRecord (ws : List RingWord) (s : State) : State :=
  let s := joinRecord ws s
  if s.trc.st = .post then
    if s.trc.postCount ≤ 1 then freeze s else { s with trc.postCount := s.trc.postCount - 1 }
  else s

/-- The recording event of a frame start, for the frame that ends (R167). -/
def recordFrame (s : State) : State :=
  if s.trc.st = .running ∨ s.trc.st = .post then
    let (ws, s) := recordWords s.slc.frameNo s
    if s.trc.params.capture then captureRecord ws s else streamRecord ws s
  else s

/-- Step 4 of a raise (R94, R170). -/
def recorderRaise (cause : TripCause) (severe : Bool) (frame : Nat) (s : State) : State :=
  if s.trc.params.capture ∧ (severe ∨ !s.trc.params.severeOnly) then
    match s.trc.st with
    | .running =>
      let s := { s with trc.st := .post, trc.postCount := s.trc.params.post, trc.marks := [(frame, cause)] }
      if s.trc.params.post = 0 then freeze s else s
    | .post =>
      if s.trc.marks.length < 4 then { s with trc.marks := s.trc.marks ++ [(frame, cause)] }
      else { s with trc.missed := satSucc 65535 s.trc.missed }
    | .frozen => { s with trc.missed := satSucc 65535 s.trc.missed }
    | .idle => s
  else s

/-! ### Requests (R165, R166, R169, R171 to R173) -/

/-- RECORD-START, taken (R165). -/
def takeRecordStart (tag : Byte) (s : State) : State :=
  if s.trc.st ≠ .idle ∧ s.trc.st ≠ .frozen then refuse 0x14 tag .state .recorderRunning 0 s
  else if s.trc.find.isSome then refuse 0x14 tag .state .findRunning 0 s
  else if recK s = 0 then refuse 0x14 tag .state .noRecordSet 0 s
  else
    let g := s.hli.stored
    done 0x14 tag []
      { emptyRing s with
        trc.params := ⟨g.recordMode == 1, g.recordBlock, g.recordPost, g.recordTrigger == 1⟩
        trc.st := .running }

/-- RECORD-STOP, taken; a waiting read is answered ahead of the DONE reply (R166, R169; log 43). -/
def takeRecordStop (tag : Byte) (s : State) : State :=
  if s.trc.st ≠ .running ∧ s.trc.st ≠ .post then refuse 0x15 tag .state .notRunning 0 s
  else
    let s := { s with trc.st := .idle, trc.cursor := if s.trc.params.capture then 0 else s.trc.cursor }
    let s := if s.hli.deferred.map (·.kind) == some .recordRead then
        let (rs, s) := takeUnread s.trc.unread s
        deferredReply (.done (streamBytes rs s true)) s
      else s
    done 0x15 tag [] s

/-- RECORD-STATUS, taken; the two frame numbers are those stored, without the integrity check (R173; log 14, log 22). -/
def takeRecordStatus (tag : Byte) (s : State) : State :=
  let t := s.trc
  let frameOf (r : Option RingRecord) : Option Nat := r.bind (fun r => r.words.head?.map (·.val.toNat))
  done 0x16 tag
    (vEnum (recStateCode t.st) ++ vMark t.params.capture ++ vCount t.params.block ++ vCount t.params.post
      ++ vMark t.params.severeOnly ++ vCount (recK s) ++ vCount (capacity s) ++ vCount t.ring.length
      ++ vCount t.unread ++ vCount t.cursor ++ vOpt vFrame 0 (frameOf t.ring.head?)
      ++ vOpt vFrame 0 (frameOf t.ring.getLast?) ++ vOpt vCount 0 (if t.st = .post then some t.postCount else none)
      ++ vList (fun m => vFrame m.1 ++ vEnum (tripCode m.2)) t.marks ++ vCount t.missed ++ vMark t.find.isSome) s

/-- A STREAM read that is answered at once with the oldest `n` unread records. -/
def streamReply (tag : Byte) (n : Nat) (ended : Bool) (s : State) : State :=
  let (rs, s) := takeUnread n s
  done 0x17 tag (streamBytes rs s ended) s

/-- RECORD-READ in STREAM mode (R169). -/
def streamRead (tag : Byte) (wait : Bool) (s : State) : State :=
  let b := s.trc.params.block
  if s.trc.st = .running then
    if b ≤ s.trc.unread then streamReply tag b false s
    else if !wait then refuse 0x17 tag .resource .notReady 0 s
    else if s.hli.deferred.isSome then refuse 0x17 tag .resource .deferBusy 0 s
    else takeSlot .recordRead tag s
  else streamReply tag (min b s.trc.unread) (decide (s.trc.unread < b)) s

/-- RECORD-READ in CAPTURE mode (R171; log 22). -/
def captureRead (tag : Byte) (oldest : Bool) (s : State) : State :=
  if s.trc.st = .running ∨ s.trc.st = .post then refuse 0x17 tag .state .recorderRunning 0 s
  else
    let c := if oldest then 0 else s.trc.cursor
    let b := s.trc.params.block
    let left := s.trc.ring.length - c
    let n := min b left
    let (rs, s) := readRecords ((List.range n).map (c + ·)) s
    done 0x17 tag (vList id rs ++ vCount c ++ vMark (decide (left < b))) { s with trc.cursor := c + n }

/-- RECORD-READ, taken: bit 0 is wait, bit 1 from-oldest. -/
def takeRecordRead (tag flags : Byte) (s : State) : State :=
  if s.trc.params.capture then captureRead tag (flags.getLsbD 1) s else streamRead tag (flags.getLsbD 0) s

/-- Whether a record's value and mark at a position meet the test of RECORD-FIND (R172). -/
def findMatches (cmp : Nat) (want : Int) (value : Int) (mark : Nat) : Bool :=
  match cmp with
  | 0 => mark != 0 && decide (want ≤ value)
  | 1 => mark != 0 && decide (value ≤ want)
  | _ => mark != 3

/-- The scan over the given positions (R172). -/
def findScan (pos cmp : Nat) (want : Int) : List Nat → Nat → State → FindResult × State
  | [], skipped, s => (⟨none, skipped⟩, s)
  | p :: ps, skipped, s =>
    let (ws, corrupt, s) := readRecord p s
    if corrupt then findScan pos cmp want ps (skipped + 1) s
    else
      let value := (ws.getD (3 + pos) 0).toInt
      let mark := (ws.getD 2 0).toNat / 4 ^ pos % 4
      if findMatches cmp want value mark then (⟨some (p, (ws.getD 0 0).toNat), skipped⟩, s)
      else findScan pos cmp want ps skipped s

/-- RECORD-FIND, taken; the scan is made at the request, its end is an event of its own (R172; log 17). -/
def takeRecordFind (tag pos cmp start : Byte) (value : BitVec 32) (s : State) : State :=
  if recK s ≤ pos.toNat then refuse 0x18 tag .range .field 1 s
  else if 2 < cmp.toNat then refuse 0x18 tag .range .field 2 s
  else if 1 < start.toNat then refuse 0x18 tag .range .field 3 s
  else if !(s.trc.st == .frozen || (s.trc.st == .idle && s.trc.params.capture)) then
    refuse 0x18 tag .state .notCaptured (recStateCode s.trc.st) s
  else if s.hli.deferred.isSome then refuse 0x18 tag .resource .deferBusy 0 s
  else
    let c := if start.toNat = 0 then 0 else s.trc.cursor
    let (r, s) := findScan pos.toNat cmp.toNat value.toInt ((List.range s.trc.ring.length).drop c) 0 s
    takeSlot .recordFind tag { s with trc.find := some r }

/-- The scan ends: the deferred reply, and the cursor on FOUND (R172). -/
def findComplete (s : State) : State :=
  match s.trc.find with
  | none => s
  | some r =>
    let s := { s with trc.find := none }
    match r.found with
    | some (p, f) =>
      deferredReplyOf .recordFind (.done (vEnum 0 ++ vFrame f ++ vCount p ++ vCount r.skipped))
        { s with trc.cursor := p }
    | none => deferredReplyOf .recordFind (.done (vEnum 1 ++ vCount r.skipped)) s

/-! ### Table 3 (R162) -/

/-- The first index with a valid entry that `bad` rejects. -/
def firstIndex (bad : Nat → Option Nat → Bool) (t : List (Option Nat)) : Option Nat :=
  (List.range t.length).find? (fun i => bad i (t.getD i none))

/-- The first failure of the record set as it would stand, check by check; of two entries with one id the later
offends (R162; log 33). -/
def recsetFailure (t : List (Option Nat)) : Option (Detail × Nat) :=
  let named (i : Nat) (n : Nat) : Bool := (t.take i).contains (some n)
  match firstIndex (fun _ e => e.any (fun n => !inCatalog n)) t with
  | some i => some (.signal, i)
  | none =>
    match firstIndex (fun i e => e.any (named i)) t with
    | some i => some (.duplicateSignal, i)
    | none => (firstIndex (fun i e => e.isSome && (t.take i).contains none) t).map ((.gap, ·))

/-- Replace consecutive entries of a table from index `i`. -/
def splice (t : List α) (i : Nat) (es : List α) : List α := t.take i ++ es ++ t.drop (i + es.length)

/-- A TABLE-WRITE of table 3: the state after the write, or the refusal, NOT_IDLE ahead of FIND_RUNNING (R162, R172; log
61). -/
def writeRecset (i : Nat) (es : List (Option Nat)) (s : State) : Except (RClass × Detail × Nat) State :=
  if s.trc.st ≠ .idle then .error (.state, .notIdle, 0)
  else if s.trc.find.isSome then .error (.state, .findRunning, 0)
  else
    let t := splice s.trc.recset i es
    match recsetFailure t with
    | some (d, n) => .error (.range, d, n)
    | none => .ok { emptyRing s with trc.recset := t }

/-! ### Events of their own (log 3) -/

/-- The unread count has reached the block size and nothing has been announced for it (R168). -/
def streamBlockReady (s : State) : State :=
  if s.trc.st = .running ∧ !s.trc.params.capture ∧ s.trc.params.block ≤ s.trc.unread ∧ !s.trc.announced then
    blockReady s
  else s

/-- The post count reaches 0 (R170). -/
def recorderFrozen (s : State) : State :=
  if s.trc.st = .post ∧ s.trc.postCount ≤ 1 then freeze s else s

end Sys2Proof.Machine
end

