-- ==== Sys2Proof/Machine/Epu.lean ====
section
/-! DEFINITION. The Envelope and Protection Unit: the haul payload, conditions, the derate and trip lists, raises, the
envelope and its posting, and TRIP-CLEAR (chapter 5). -/

namespace Sys2Proof.Machine

/-! ### The haul payload (R82, R83) -/

/-- The class of a haul payload in 0.1 t against RATED_PAYLOAD in t (R83). -/
def classOf (rated haul : Int) : PayClass :=
  if haul * 10 < 15 * rated then .empty
  else if haul ≤ 10 * rated then .loaded
  else if haul ≤ 11 * rated then .over
  else .gross

/-- The haul payload and its class on leaving rest (R83). -/
def captureHaul (s : State) : State :=
  if s.epu.restCount < 50 then s
  else if s.epu.restWindow.all (·.2) then
    let m := roundNearest .haulPayload ((s.epu.restWindow.map (·.1)).sum) 50
    { s with epu.haul := m, epu.cls := classOf s.hli.force.ratedPayload m }
  else { s with epu.cls := .unknown }

/-- Step 1: the payload is weighed (R82, R83). -/
def weighPayload (s : State) : State :=
  if atRest s then
    let w := s.epu.restWindow ++ [(s.sgs.payload.value, s.sgs.payload.quality.usable)]
    { s with epu.restCount := satSucc 65535 s.epu.restCount, epu.restWindow := w.drop (w.length - 50) }
  else if 0 < s.epu.restCount then
    { captureHaul s with epu.restCount := 0, epu.restWindow := [] }
  else s

/-! ### Conditions (R84 to R88) -/

/-- What an evaluation reads: the entries of image N it uses, the SGS posting (the entries of image N-1 and the quality
of its VSPD), the IMN posting, and whether it is the first after an entry to STANDBY (R80, R81). -/
structure EvalIn where
  mtL : ImageEntry
  mtR : ImageEntry
  itL : ImageEntry
  itR : ImageEntry
  isL : ImageEntry
  isR : ImageEntry
  vdc : ImageEntry
  gtA : ImageEntry
  gtB : ImageEntry
  old : List ImageEntry
  oldVspd : Quality
  imn : Option (Option Nat × Option Nat)

/-- No block has posted for frame N-1 in the present run (R81). -/
def EvalIn.first (i : EvalIn) : Bool := i.imn.isNone

/-- The presence of a condition on a value of image N (R84). -/
def presence (e : ImageEntry) (arises goes : Int → Bool) (last : Bool) : Bool :=
  if e.quality.usable then if arises e.value then true else if goes e.value then false else last else last

/-- The count of consecutive evaluations in which a test holds (R84). -/
def countStep (usable test : Bool) (n : Nat) : Nat := if usable then (if test then n + 1 else 0) else n

/-- The presence of a condition that asks for `num` consecutive evaluations (R84). -/
def countPresence (usable test : Bool) (num n : Nat) (last : Bool) : Bool :=
  if usable then test && decide (num ≤ n + 1) else last

/-- The energy and capacity of the grid with the higher ratio, over grids with capacity (R85). -/
def higherGrid (c : RgvCond) : Option (Int × Int) :=
  let a := if 0 < c.emaxA then some (c.energyA, c.emaxA) else none
  let b := if 0 < c.emaxB then some (c.energyB, c.emaxB) else none
  match a, b with
  | some (ea, ma), some (eb, mb) => if ea * mb < eb * ma then some (eb, mb) else some (ea, ma)
  | some x, none => some x
  | none, y => y

/-- GRID_HEAT (R85). -/
def gridHeatPresence (c : Option RgvCond) (last : Bool) : Bool :=
  match c with
  | none => false
  | some c =>
    match higherGrid c with
    | some (e, m) => if 85 * m ≤ 100 * e then true else if 100 * e < 80 * m then false else last
    | none => last

/-- VSPD above the envelope speed limit for N-1 plus 8 km/h (R87). -/
def overLimit (s : State) : Bool := decide (s.epu.posting.env.speedLimit + 80 < s.sgs.vspd.value)

/-- The presences and counts on image values after this evaluation (R84 to R87). -/
def nextPresences (i : EvalIn) (s : State) : Presences :=
  let p := s.epu.pres
  let hot (last : Bool) (e : ImageEntry) := presence e (fun v => decide (1500 < v)) (fun v => decide (v < 1450)) last
  let invHot (last : Bool) (e : ImageEntry) := presence e (fun v => decide (800 < v)) (fun v => decide (v < 770)) last
  let above (lim : Int) (last : Bool) (e : ImageEntry) :=
    presence e (fun v => decide (lim ≤ v)) (fun v => decide (v < lim)) last
  let mark (last : Bool) (e : ImageEntry) :=
    presence e (fun v => decide (v / 32768 % 2 = 1)) (fun v => decide (v / 32768 % 2 = 0)) last
  let linkOver := decide (2850 < i.vdc.value)
  let du := i.vdc.quality.usable
  let vu := s.sgs.vspd.quality.usable
  { motorHotL := hot p.motorHotL i.mtL
    motorHotR := hot p.motorHotR i.mtR
    inverterHotL := invHot p.inverterHotL i.itL
    inverterHotR := invHot p.inverterHotR i.itR
    gridHeat := gridHeatPresence s.rgv.cond p.gridHeat
    dcLinkHigh := presence i.vdc (fun v => decide (2700 < v)) (fun v => decide (v < 2650)) p.dcLinkHigh
    faultMarkL := mark p.faultMarkL i.isL
    faultMarkR := mark p.faultMarkR i.isR
    inverterTripL := above 1050 p.inverterTripL i.itL
    inverterTripR := above 1050 p.inverterTripR i.itR
    motorTripL := above 1900 p.motorTripL i.mtL
    motorTripR := above 1900 p.motorTripR i.mtR
    dcLinkOver := countPresence du linkOver 2 p.dcLinkCount p.dcLinkOver
    gridTripA := above 700 p.gridTripA i.gtA
    gridTripB := above 700 p.gridTripB i.gtB
    overspeed := countPresence vu (overLimit s) 20 p.overspeedCount p.overspeed
    dcLinkCount := countStep du linkOver p.dcLinkCount
    overspeedCount := countStep vu (overLimit s) p.overspeedCount }

/-! ### The derate list (R85, R89, R90) -/

/-- What a key of R85 shows at an evaluation: its presence, and its limit, or none where it keeps its last value. -/
structure KeyView where
  cause : DerateCause
  target : DerateTarget
  kind : DerateKind
  present : Bool
  limit : Option Int

/-- A limit drawn from a value of image N: it keeps its last value while the value is not usable (R84). -/
def limitFrom (e : ImageEntry) (f : Int → Int) : Option Int := if e.quality.usable then some (f e.value) else none

/-- MOTOR_HOT in 0.1 %, rounded down, of a temperature in 0.1 degrees (R85). -/
def motorHotLimit (t : Int) : Int := clamp 300 1000 ((1000 * 3 - 7 * (t - 1500)) / 3)

/-- INVERTER_HOT in 0.1 % (R85). -/
def inverterHotLimit (t : Int) : Int := clamp 400 1000 (1000 - 4 * (t - 800))

/-- GRID_HEAT in 0.1 km/h, rounded down (R85). -/
def gridHeatLimit (e m : Int) : Int := clamp 200 500 ((2200 * m - 2000 * e) / m)

/-- A signal is not usable in the SGS posting (R85); no posting shows nothing (R81). -/
def lost (i : EvalIn) (id : Nat) : Bool := !i.first && !(entryOf i.old id).quality.usable

/-- The 17 keys of R85, taken in table order with L ahead of R at each evaluation, so that records created together stand in
that order (log 63). With no grid of a capacity above 0, GRID_HEAT keeps its presence by R85, and its record keeps its last
limit by the model's choice (log 70). -/
def keyViews (i : EvalIn) (p : Presences) (s : State) : List KeyView :=
  let tal := s.tal.cond
  let sgv := s.sgv.cond
  let heat := (s.rgv.cond.bind higherGrid).map (fun x => gridHeatLimit x.1 x.2)
  [ ⟨.motorHot, .left, .torque, p.motorHotL, limitFrom i.mtL motorHotLimit⟩,
    ⟨.motorHot, .right, .torque, p.motorHotR, limitFrom i.mtR motorHotLimit⟩,
    ⟨.inverterHot, .left, .torque, p.inverterHotL, limitFrom i.itL inverterHotLimit⟩,
    ⟨.inverterHot, .right, .torque, p.inverterHotR, limitFrom i.itR inverterHotLimit⟩,
    ⟨.tempUnknown, .left, .torque, lost i 9 || lost i 11, some 500⟩,
    ⟨.tempUnknown, .right, .torque, lost i 10 || lost i 12, some 500⟩,
    ⟨.slipPersist, .left, .propel, tal.any (·.persistL), some 600⟩,
    ⟨.slipPersist, .right, .propel, tal.any (·.persistR), some 600⟩,
    ⟨.slipRefLost, .vehicle, .propel, tal.any (·.refLost), some 700⟩,
    ⟨.payloadOver, .vehicle, .speed, s.epu.cls == .over || s.epu.cls == .gross, some 300⟩,
    ⟨.gridHeat, .vehicle, .speed, p.gridHeat, heat⟩,
    ⟨.gridWithdrawn, .vehicle, .speed, s.rgv.cond.any (fun c => !c.usableA || !c.usableB), some 250⟩ ]
  ++ [ ⟨.dcLinkHigh, .vehicle, .retard, p.dcLinkHigh, some 700⟩,
    ⟨.steerTrack, .vehicle, .speed, sgv.any (·.track), some 150⟩,
    ⟨.accLow, .vehicle, .speed, sgv.any (·.accLow), some 200⟩,
    ⟨.stationSuspect, .vehicle, .speed, s.slc.posting.any (fun c => decide (0 < c.nSuspect)), some 250⟩,
    ⟨.ambientUnknown, .vehicle, .speed, lost i 33 || lost i 34, some 400⟩ ]

/-- Whether a record has a key. -/
def Derate.hasKey (c : DerateCause) (t : DerateTarget) (d : Derate) : Bool := d.cause == c && d.target == t

/-- The limit a record of no last value starts from: the base of its kind (R99). -/
def baseLimit : DerateKind → Int
  | .speed => 640
  | _ => 1000

/-- A held record meets the presence of its key; none removes it (R90). -/
def Derate.meet (hold : Nat) (k : KeyView) (d : Derate) : Option Derate :=
  if k.present then some { d with holding := false, holdRemaining := 0, limit := k.limit.getD d.limit }
  else if d.holding then
    if d.holdRemaining ≤ 1 then none else some { d with holdRemaining := d.holdRemaining - 1 }
  else some { d with holding := true, holdRemaining := hold }

/-- The derate list meets one key (R90). -/
def updateDerate (n hold : Nat) (k : KeyView) (ds : List Derate) : List Derate :=
  if ds.any (Derate.hasKey k.cause k.target) then
    ds.filterMap (fun d => if d.hasKey k.cause k.target then d.meet hold k else some d)
  else if k.present then ds ++ [⟨k.cause, k.target, k.kind, k.limit.getD (baseLimit k.kind), n, false, 0⟩]
  else ds

/-- Step 3: the derate list is brought up to date, key by key in the order given (R90; log 63). -/
def updateDerates (n hold : Nat) (ks : List KeyView) (ds : List Derate) : List Derate :=
  ks.foldl (fun ds k => updateDerate n hold k ds) ds

/-! ### Trip conditions (R86 to R88) -/

/-- A trip cause, its presence and its detail value at an evaluation. -/
structure TripView where
  cause : TripCause
  present : Bool
  detail : Int

/-- The station bound to a torque command is EXCLUDED in the SLC posting (R86; log 30). -/
def boundExcluded (sig : Nat) (s : State) : Bool :=
  match boundAddr sig s, s.slc.posting with
  | some a, some p => p.stations.any (fun x => x.1 == a && x.2.2 == .excluded)
  | _, _ => false

/-- INVERTER_FAULT of a side: the fault mark, then the temperature, then loss or exclusion give the detail value (R86;
log 44). -/
def inverterFault (cause : TripCause) (mark trip lostIs excl : Bool) (is it : ImageEntry) : TripView :=
  ⟨cause, mark || trip || lostIs || excl, if mark then is.value else if trip then it.value else 0⟩

/-- The trip causes in the order of R86 and R87. -/
def tripViews (i : EvalIn) (p : Presences) (s : State) : List TripView :=
  let acqFault := i.imn.bind (·.1)
  let screenFault := i.imn.bind (·.2)
  [ inverterFault .inverterFaultL p.faultMarkL p.inverterTripL (lost i 13) (boundExcluded 40 s) i.isL i.itL,
    inverterFault .inverterFaultR p.faultMarkR p.inverterTripR (lost i 14) (boundExcluded 41 s) i.isR i.itR,
    ⟨.motorOvertempL, p.motorTripL, i.mtL.value⟩,
    ⟨.motorOvertempR, p.motorTripR, i.mtR.value⟩,
    ⟨.dcLinkOver, p.dcLinkOver, i.vdc.value⟩,
    ⟨.chopperFault, s.rgv.cond.any (fun c => !c.usableA && !c.usableB), 0⟩,
    ⟨.steerSupply, s.sgv.cond.any (·.supply), 0⟩,
    ⟨.steerAngleLost, !i.first && (entryOf i.old 28).quality == .bad, 0⟩,
    ⟨.speedLost, !i.first && i.oldVspd == .bad, 0⟩,
    ⟨.loopLost, s.slc.posting.any (fun c => c.loop != .up || c.wasDown), 0⟩ ]
  ++ [ ⟨.demandLost, s.epu.demandReport || s.dsc.demandLost, 0⟩,
    ⟨.stopLine, s.epu.stopReport || s.dsc.stopLine, 0⟩,
    ⟨.tableFault, acqFault.isSome, acqFault.getD 0⟩,
    ⟨.payloadGross, s.epu.cls == .gross, s.epu.haul⟩,
    ⟨.gridOvertempA, p.gridTripA, i.gtA.value⟩,
    ⟨.gridOvertempB, p.gridTripB, i.gtB.value⟩,
    ⟨.screenFault, screenFault.isSome, screenFault.getD 0⟩,
    ⟨.overspeed, p.overspeed, s.sgs.vspd.value⟩ ]

/-! ### The trip list (R91 to R96) -/

/-- The DSC's part of a raise (R8). -/
def dscRaise (severe : Bool) (s : State) : State :=
  if severe ∧ s.dsc.gov = .drive then changeState .safeHold .trip s else s

/-- A raise, as one event (R94). -/
def raise (cause : TripCause) (s : State) : State :=
  let n := s.slc.frameNo
  let s := latch .tripRaised (notify (.trip cause (tripSevere cause) n) s)
  let s := recorderRaise cause (tripSevere cause) n (dscRaise (tripSevere cause) s)
  if cause = .steerSupply then steerSupplyRaise n s else s

/-- The records other than OVERFLOW. -/
def ordinaryCount (s : State) : Nat := s.epu.trips.countP (·.cause != .overflow)

/-- The list has room for a record other than OVERFLOW (R91). -/
def tripRoom (s : State) : Bool := decide (ordinaryCount s < 7)

/-- The trip list holds a record of a cause. -/
def hasTrip (c : TripCause) (s : State) : Bool := s.epu.trips.any (·.cause == c)

/-- A record is created at the tail and raised (R93, R96). -/
def createTrip (t : Trip) (s : State) : State := raise t.cause { s with epu.trips := s.epu.trips ++ [t] }

/-- Change the record of a cause. -/
def updTrip (c : TripCause) (f : Trip → Trip) (s : State) : State :=
  { s with epu.trips := s.epu.trips.map (fun t => if t.cause == c then f t else t) }

/-- The OVERFLOW record is created with the number of causes now pending as its lost count, and raised (R95). -/
def createOverflow (s : State) : State :=
  createTrip ⟨.overflow, true, s.slc.frameNo, s.slc.frameNo, 0, true, min 65535 s.epu.pendingSet.length⟩ s

/-- A cause joins the pending set (R95). -/
def joinPending (c : TripCause) (detail : Int) (s : State) : State :=
  let n := s.slc.frameNo
  let s := { s with epu.pendingSet := s.epu.pendingSet ++ [⟨c, n, detail⟩] }
  if hasTrip .overflow s then
    updTrip .overflow (fun t => { t with detail := min 65535 (t.detail + 1), last := n }) s
  else createOverflow s

/-- Records are made for pending causes while there is room, oldest first (R96). -/
def placePending (views : List TripView) : Nat → State → State
  | 0, s => s
  | k + 1, s =>
    match s.epu.pendingSet with
    | [] => s
    | p :: ps =>
      if tripRoom s then
        let here := views.any (fun v => v.cause == p.cause && v.present)
        placePending views k (createTrip ⟨p.cause, tripSevere p.cause, p.frame, s.slc.frameNo, 0, !here, p.detail⟩
          { s with epu.pendingSet := ps })
      else s

/-- The start of step 4 (R96). -/
def takePending (views : List TripView) (s : State) : State :=
  let s := placePending views s.epu.pendingSet.length s
  if s.epu.pendingSet ≠ [] ∧ !hasTrip .overflow s then createOverflow s else s

/-- The trip list meets one cause (R93). -/
def updateTrip (v : TripView) (s : State) : State :=
  let n := s.slc.frameNo
  match s.epu.trips.find? (·.cause == v.cause) with
  | none =>
    if v.present && !s.epu.pendingSet.any (·.cause == v.cause) then
      if tripRoom s then createTrip ⟨v.cause, tripSevere v.cause, n, n, 0, false, v.detail⟩ s
      else joinPending v.cause v.detail s
    else s
  | some t =>
    if v.present then
      if t.clearable then
        raise v.cause (updTrip v.cause (fun t =>
          { t with clearable := false, recurrences := satSucc 255 t.recurrences, last := n, detail := v.detail }) s)
      else updTrip v.cause (fun t => { t with last := n }) s
    else updTrip v.cause (fun t => { t with clearable := true }) s

/-- Step 4 (R93, R96). -/
def updateTrips (views : List TripView) (s : State) : State :=
  views.foldl (fun s v => updateTrip v s) (takePending views s)

/-! ### The envelope (R99 to R101) -/

/-- The least of a base and the limits of the applicable records (R99). -/
def leastLimit (base : Int) (ds : List Derate) : Int := ds.foldl (fun m d => min m d.limit) base

/-- The derates that lower a wheel's limit of a kind (R99). -/
def wheelDerates (side : DerateTarget) (kind : DerateKind) (ds : List Derate) : List Derate :=
  ds.filter (fun d => (d.target == side || d.target == .vehicle) && (d.kind == kind || d.kind == .torque))

/-- The vehicle speed limit in 0.1 km/h (R99). -/
def speedLimitOf (s : State) : Int :=
  let d := leastLimit 640 (s.epu.derates.filter (·.kind == .speed))
  let g := if hasTrip .payloadGross s then min d 100 else d
  if hasTrip .screenFault s then min g 200 else g

/-- The steer rate in 0.1 degrees per second (R100). -/
def steerRateOf (s : State) : Int :=
  let v := s.sgs.vspd
  let r : Int := s.hli.force.steerRate * 10
  let r := if 300 < v.value ∨ !v.quality.usable then min r 80 else r
  if s.epu.cls = .over ∨ s.epu.cls = .gross then r / 2 else r

/-- Step 5: the envelope (R99, R100). -/
def buildEnvelope (s : State) : Envelope :=
  let ds := s.epu.derates
  { propelL := leastLimit 1000 (wheelDerates .left .propel ds)
    retardL := leastLimit 1000 (wheelDerates .left .retard ds)
    propelR := leastLimit 1000 (wheelDerates .right .propel ds)
    retardR := leastLimit 1000 (wheelDerates .right .retard ds)
    speedLimit := speedLimitOf s
    steerRate := steerRateOf s }

/-- Step 6: the posting for frame N (R101). -/
def postEpu (s : State) : State :=
  let env := buildEnvelope s
  { s with
    epu.posting := ⟨env, s.epu.haul, s.epu.cls, hasTrip .inverterFaultL s, hasTrip .inverterFaultR s,
      hasTrip .gridOvertempA s, hasTrip .gridOvertempB s⟩
    out.speedLimit := ⟨env.speedLimit, some s.slc.frameNo⟩
    out.haul := ⟨s.epu.haul, some s.slc.frameNo⟩ }

/-! ### The evaluation (R80) -/

/-- Read the image entries an evaluation uses. -/
def evalInputs (old : List ImageEntry) (oldVspd : Quality) (imn : Option (Option Nat × Option Nat)) (s : State) :
    EvalIn × State :=
  let (es, s) := readImages [9, 10, 11, 12, 13, 14, 15, 18, 19] s
  let e (k : Nat) : ImageEntry := es.getD k .initial
  (⟨e 0, e 1, e 2, e 3, e 4, e 5, e 6, e 7, e 8, old, oldVspd, imn⟩, s)

/-- The evaluation of frame N, given the postings of the SGS and the IMN for N-1 (R80). -/
def evaluateEpu (old : List ImageEntry) (oldVspd : Quality) (imn : Option (Option Nat × Option Nat)) (s : State) :
    State :=
  let (i, s) := evalInputs old oldVspd imn s
  let s := weighPayload s
  let p := nextPresences i s
  let views := tripViews i p s
  let ds := updateDerates s.slc.frameNo s.hli.force.derateHold (keyViews i p s) s.epu.derates
  let s := { s with epu.pres := p, epu.stopReport := false, epu.demandReport := false, epu.derates := ds }
  postEpu (updateTrips views s)

/-! ### TRIP-CLEAR (R97) -/

/-- Remove CLEARABLE records, of one cause or of all, with the reply. -/
def clearTrips (tag : Byte) (which : TripCause → Bool) (s : State) : State :=
  let keep := s.epu.trips.filter (fun t => !(t.clearable && which t.cause))
  done 0x0C tag (vCount (s.epu.trips.length - keep.length) ++ vCount (keep.countP (fun t => !t.clearable)))
    { s with epu.trips := keep }

/-- TRIP-CLEAR, taken: FFh is ALL (R97). -/
def takeTripClear (tag cause : Byte) (s : State) : State :=
  if cause = 0xFF#8 then clearTrips tag (fun _ => true) s
  else
    match tripOfCode cause.toNat with
    | none => refuse 0x0C tag .range .field 1 s
    | some c => clearTrips tag (· == c) s

/-! ### Events of their own (log 3) -/

/-- A condition's count reaches its number, and the condition becomes present (R84, R86, R87). -/
def conditionCountReached (c : CountedCond) (s : State) : State :=
  let p := s.epu.pres
  match c with
  | .dcLinkOver =>
    if s.dsc.gov ≠ .halted ∧ 1 ≤ p.dcLinkCount ∧ !p.dcLinkOver then
      { s with epu.pres.dcLinkOver := true, epu.pres.dcLinkCount := max 2 p.dcLinkCount }
    else s
  | .overspeed =>
    if s.dsc.gov ≠ .halted ∧ 19 ≤ p.overspeedCount ∧ !p.overspeed then
      { s with epu.pres.overspeed := true, epu.pres.overspeedCount := max 20 p.overspeedCount }
    else s

/-- A HOLDING record's hold remaining reaches 0 and the record is removed (R90). -/
def derateHoldExpiry (c : DerateCause) (t : DerateTarget) (s : State) : State :=
  if s.dsc.gov = .halted then s
  else
    { s with epu.derates := s.epu.derates.filter (fun d =>
        !(d.hasKey c t && d.holding && decide (d.holdRemaining ≤ 1))) }

end Sys2Proof.Machine
end

