-- ==== Sys2Proof/Machine/GridCheck.lean ====
section
/-! DEFINITION. The grid element check (chapter 8): start, the steps of a string, string classes, the four endings, aborts
and what the host reads. -/

namespace Sys2Proof.Machine

/-- Whether a check names a grid. -/
def Grids.has : Grids → Grid → Bool
  | .a, .a | .b, .b | .both, _ => true
  | _, _ => false

/-- The chopper address kept for a grid. -/
def GridRun.addr (r : GridRun) : Grid → Nat
  | .a => r.addrA | .b => r.addrB

/-- The item of a step of a string (R140). -/
def gridItem (addr n : Nat) : GridStep → Item
  | .act => ⟨.gridCheck, addr, 5, .act, false, n, none, false, 0, false⟩
  | .read => ⟨.gridCheck, addr, 6, .read, false, 0, some 7, false, 0, false⟩

/-- The class of a string with resistance `r` against the nominal `m` (R141). -/
def classString (m r : Nat) : StringClass :=
  if r = 65535 ∨ 2 * m ≤ r then .open
  else if 2 * r ≤ m then .short
  else if (m : Int) < 10 * ((r : Int) - m).natAbs then .drift
  else .good

/-- A string that does not count as good (R142). -/
def StringClass.bad : StringClass → Bool
  | .open | .short => true
  | _ => false

/-- The run's results of one grid, in string order. -/
def resultsOf (g : Grid) (r : GridRun) : List StringResult :=
  (r.results.filter (fun x => x.1 == g)).map (·.2)

/-- The number of good strings among results (R142). -/
def goodCount (xs : List StringResult) : Nat := xs.countP (fun x => !x.cls.bad)

/-- The run ends: the last-run record, and the PROC notice (R142, R146). -/
def gridEnd (o : GridOutcome) (cause : ProcCause) (failed : Option (Grid × Nat × GridStep × FailedWith))
    (s : State) : State :=
  match s.rgv.check.run with
  | none => s
  | some r =>
    notify (.proc 1 (gridOutcomeCode o) cause s.slc.frameNo)
      { s with
        rgv.check.run := none
        rgv.check.last := ⟨o, cause, r.grids, r.start, s.slc.frameNo, r.results.length, failed⟩ }

/-- On PASSED or DEGRADED: the result table, the good counts and the anomaly list (R142). -/
def gridResults (r : GridRun) (s : State) : State :=
  let old := s.rgv.check.results
  let a := if r.grids.has .a then resultsOf .a r else old.take 8
  let b := if r.grids.has .b then resultsOf .b r else old.drop 8
  { s with
    rgv.check.results := a ++ b
    rgv.check.anomalies := r.anomalies
    rgv.check.more := r.more
    rgv.check.named := r.grids
    rgv.gridA.good := if r.grids.has .a then goodCount a else s.rgv.gridA.good
    rgv.gridB.good := if r.grids.has .b then goodCount b else s.rgv.gridB.good }

/-- The last string's READ has delivered (R142). -/
def gridComplete (r : GridRun) (s : State) : State :=
  let o := if r.results.any (·.2.cls.bad) then GridOutcome.degraded else .passed
  gridEnd o .none none (gridResults r s)

/-- An abort of a running check: its waiting item leaves the queue, which ends a service pass it leaves empty, and the run
ends ABORTED (R57, R58, R143). -/
def gridAbort (cause : ProcCause) (s : State) : State :=
  if s.rgv.check.run.isSome then gridEnd .aborted cause none (endService (removeItems .gridCheck s)) else s

/-- The string after string `n` of grid `g` (R140). -/
def nextString (gs : Grids) (g : Grid) (n : Nat) : Option (Grid × Nat) :=
  if n < 7 then some (g, n + 1) else if g = .a ∧ gs = .both then some (.b, 0) else none

/-- A READ has delivered resistance `res`: the string is classed, and the next string's ACT joins or the run completes
(R140, R141). -/
def gridDelivered (r : GridRun) (res : Nat) (s : State) : State :=
  let cls := classString s.hli.force.stringNominal res
  let keep := cls != .good && decide (r.anomalies.length < 4)
  let r' := { r with
    results := r.results ++ [(r.grid, ⟨res, cls, s.slc.frameNo⟩)]
    anomalies := if keep then r.anomalies ++ [⟨r.grid, r.string, cls, res⟩] else r.anomalies
    more := r.more || (cls != .good && !keep) }
  match nextString r.grids r.grid r.string with
  | none => gridComplete r' { s with rgv.check.run := some r' }
  | some (g, n) =>
    joinItem (gridItem (r.addr g) n .act)
      { s with rgv.check.run := some { r' with grid := g, string := n, step := .act } }

/-- A FAILED_EXCHANGE (R140, R142). -/
def gridFailed (r : GridRun) (w : FailedWith) (s : State) : State :=
  gridEnd .failedExchange .none (some (r.grid, r.string, r.step, w)) s

/-- An outcome handed to the check (R140). -/
def gridOutcome (o : ExOutcome) (data : Nat) (s : State) : State :=
  match s.rgv.check.run with
  | none => s
  | some r =>
    match o, r.step with
    | .takenReady, .act | .takenNotReady, .act =>
      joinItem (gridItem (r.addr r.grid) r.string .read) { s with rgv.check.run := some { r with step := .read } }
    | .takenReady, .read => gridDelivered r data s
    | .takenNotReady, .read => gridFailed r .notReady s
    | .untaken, _ => gridFailed r .untaken s
    | .noReply, _ => gridFailed r .noReply s
    | .check, _ => gridFailed r .check s
    | .excluded, _ => gridAbort .stationExcluded s
    | .loopDown, _ => gridAbort .loopDown s

/-- A station becomes EXCLUDED: a check that names its grid aborts (R143). -/
def gridStationExcluded (addr : Nat) (s : State) : State :=
  match s.rgv.check.run with
  | none => s
  | some r =>
    if (r.grids.has .a && r.addrA == addr) || (r.grids.has .b && r.addrB == addr) then gridAbort .stationExcluded s
    else s

/-- The address of the chopper station bound to CD_g (R139; log 30). -/
def chopperOf (g : Grid) (s : State) : Nat :=
  (boundAddr (match g with | .a => 44 | .b => 45) s).getD 0

/-- The first named grid, A ahead of B, whose chopper station is EXCLUDED (R139; log 52). -/
def excludedChopper (gs : Grids) (s : State) : Option Nat :=
  (([Grid.a, .b].filter gs.has).map (chopperOf · s)).find? (isExcluded · s)

/-- The run that a start makes (R139). -/
def startedRun (gs : Grids) (s : State) : GridRun :=
  let first : Grid := if gs.has .a then .a else .b
  { grids := gs, addrA := if gs.has .a then chopperOf .a s else 0, addrB := if gs.has .b then chopperOf .b s else 0
    grid := first, string := 0, step := .act, start := s.slc.frameNo, results := [], anomalies := [], more := false }

/-- GRID-CHECK-START, taken (R139). -/
def takeGridCheckStart (tag grid : Byte) (s : State) : State :=
  match gridsOfCode grid.toNat with
  | none => refuse 0x10 tag .range .field 1 s
  | some gs =>
    if s.dsc.gov ≠ .standby then refuse 0x10 tag .state .notStandby (govCode s.dsc.gov) s
    else if !atRest s then refuse 0x10 tag .state .notAtRest 0 s
    else if s.dsc.stopLine then refuse 0x10 tag .state .stopAsserted 0 s
    else if s.rgv.check.run.isSome then refuse 0x10 tag .state .procRunning 1 s
    else if s.hli.force.serviceBudget = 0 then refuse 0x10 tag .state .noServiceBudget 5 s
    else if loopNotUp s then refuse 0x10 tag .state .loopNotUp (loopCode s.slc.loopState) s
    else
      match excludedChopper gs s with
      | some a => refuse 0x10 tag .state .stationExcluded a s
      | none =>
        let r := startedRun gs s
        done 0x10 tag [] (joinItem (gridItem (r.addr r.grid) 0 .act) { s with rgv.check.run := some r })

/-- GRID-CHECK-STOP, taken (R144). -/
def takeGridCheckStop (tag : Byte) (s : State) : State :=
  if s.rgv.check.run.isSome then done 0x11 tag [] (gridAbort .requested s)
  else refuse 0x11 tag .state .notRunning 0 s

/-- A string as a reply carries it, when one is held: its grid and its number, zeros when absent (R199; log 22). -/
def vString (x : Option (Grid × Nat)) : List Byte :=
  vOpt (fun n : Nat × Nat => vEnum n.1 ++ vCount n.2) (0, 0) (x.map (fun y => (gridCode y.1, y.2)))

/-- The last-run record as a reply carries it (R138; log 22). -/
def lastRunBytes (l : GridLast) : List Byte :=
  vEnum (gridOutcomeCode l.outcome) ++ vEnum (procCauseCode l.cause) ++ vEnum (gridsCode l.grids)
    ++ vFrame l.start ++ vFrame l.stop ++ vCount l.measured
    ++ vString (l.failed.map (fun x => (x.1, x.2.1)))
    ++ vOpt vEnum 0 (l.failed.map (fun x => gridStepCode x.2.2.1))
    ++ vOpt vEnum 0 (l.failed.map (fun x => failedWithCode x.2.2.2))

/-- The reply of PROC-RESULT for procedure 1; what is held only while RUNNING is absent when IDLE (R146, R199; log 22). -/
def gridResultBytes (s : State) : List Byte :=
  let c := s.rgv.check
  vMark c.run.isSome
    ++ vOpt vEnum 0 (c.run.map (fun r => gridsCode r.grids)) ++ vString (c.run.map (fun r => (r.grid, r.string)))
    ++ vOpt vEnum 0 (c.run.map (fun r => gridStepCode r.step)) ++ vOpt vFrame 0 (c.run.map (·.start))
    ++ lastRunBytes c.last ++ vCount s.rgv.gridA.good ++ vCount s.rgv.gridB.good

/-- Index 20 of table 7 (R145). -/
def gridSummaryBytes (s : State) : List Byte :=
  let c := s.rgv.check
  beBytes 1 (bit c.more 7) ++ beBytes 1 c.anomalies.length ++ vEnum (gridsCode c.named)
    ++ beBytes 1 s.rgv.gridA.good ++ beBytes 1 s.rgv.gridB.good ++ List.replicate 7 0

/-- An entry of table 7 (R145). -/
def gridTableEntry (i : Nat) (s : State) : List Byte :=
  if i < 16 then encodeString (s.rgv.check.results.getD i ⟨0, .none, 0⟩)
  else if i < 20 then encodeAnomaly s.rgv.check.anomalies[i - 16]?
  else gridSummaryBytes s

end Sys2Proof.Machine
end

