-- ==== Sys2Proof/Machine/Tal.lean ====
section
/-! DEFINITION. The Traction Allocator: direction, propel request, base, yaw split, target and ceiling, slew, mode words,
slip and the torque factor (chapter 6). Torques and limits are in 0.1 %. -/

namespace Sys2Proof.Machine

/-- The value of a posted input; the not-posted mark is taken as 0 (R104). -/
def Posted.read (p : Posted) : Int := if p.frame.isSome then p.value else 0

/-- Travel direction and pending mark (R105). -/
def nextTravel (rest : Bool) (demand travel : Dir) : Dir × Bool :=
  if demand = travel then (travel, false) else if rest then (demand, false) else (travel, true)

/-- The propel request (R106). -/
def propelRequest (gov : Gov) (d : Demand) (travel : Dir) (pend : Bool) (rreq limit : Int) (vspd : Derived) : Int :=
  if gov ≠ .drive ∨ pend ∨ travel = .neutral ∨ d.brakeApplied ∨ 0 < rreq ∨ !vspd.quality.usable ∨ limit ≤ vspd.value
  then 0 else d.propel

/-- The base of both wheels (R107). -/
def baseTorque (gov : Gov) (rreq p : Int) : Int :=
  if gov = .drive ∨ gov = .safeHold then (if 0 < rreq then -rreq else p) else 0

/-- The base of a wheel after the yaw split, rounded toward zero (R108): `out` says that it is the outer wheel. -/
def yawSplit (base y : Int) (out : Bool) : Int :=
  let share := (y.natAbs : Int)
  let more := if 0 < base then out else !out
  (base * (if more then 1000 + share else 1000 - share)).tdiv 1000

/-- The left wheel is the outer wheel of a right turn (R108). -/
def outerLeft (y : Int) : Bool := decide (0 < y)

/-- The target of a wheel (R109). -/
def targetOf (base propel retard factor : Int) : Int :=
  (clamp (-retard) propel base * factor).tdiv 1000

/-- The ceiling of a wheel with a given target, by the sign of the target (R109); it bounds a command of the other sign
too (log 56). -/
def ceilingOf (target propel retard factor : Int) : Int :=
  let lim := if 0 < target then propel else if target < 0 then retard else min propel retard
  lim * factor / 1000

/-- Step 1 of the slew: a step that would cross 0 stops at 0 (R110). -/
def slewStep (last target step : Int) : Int :=
  let x := if last < target then min target (last + step) else max target (last - step)
  if (0 < last ∧ x < 0) ∨ (last < 0 ∧ 0 < x) then 0 else x

/-- The command of a wheel (R110): `coast` says that an INVERTER_FAULT mark holds it at COAST. -/
def commandOf (gov : Gov) (coast : Bool) (last target ceiling step : Int) : Int :=
  let x := slewStep last target step
  if gov = .standby ∨ (gov = .safeHold ∧ 0 < x) ∨ coast then 0 else clamp (-ceiling) ceiling x

/-- The mode word of a posted command (R111, "FMT: LOOP WORDS"). -/
def modeWord (travel : Dir) (tc : Int) : Int :=
  16 * dirCode travel + (if 0 < tc then 1 else if tc < 0 then 2 else 0)

/-! ### Slip (R112 to R115) -/

/-- The reference speed in 0.1 km/h, without sign as in R76, when a front wheel speed is usable (R112; log 54). -/
def referenceSpeed (g : Settings) (fsL fsR : ImageEntry) : Option Int :=
  let fs := [fsL, fsR].filter (·.quality.usable)
  if fs.length = 0 then none else some (frontSpeed g fs)

/-- The wheel speed in 0.1 km/h (R112). -/
def wheelSpeed (g : Settings) (ws : ImageEntry) : Option Int :=
  if ws.quality.usable then
    some (nearest ((ws.value.natAbs : Int) * g.wheelRadius * 12000 * piNum) (g.gearRatio * 1000000 * piDen))
  else none

/-- The slip used for a wheel in 0.1 %, rounded toward zero; none where it is not measured (R112). -/
def slipOf : Option Int → Option Int → Option Int
  | some r, some w => if 20 ≤ r then some ((1000 * (w - r)).tdiv r) else some 0
  | _, _ => none

/-- Half a torque factor, at least 0.100; an odd one goes where the free value says (R113; log 19). -/
def halved (f : Nat) : Nat :=
  let h := if f % 2 = 1 && Config.halfFactorUp f then f / 2 + 1 else f / 2
  max 100 h

/-- A torque factor plus 0.050, up to 1.000 (R113). -/
def raised (f : Nat) : Nat := min 1000 (f + 50)

/-- The new state and factor of a wheel with measured slip (R113). -/
def slipState (g : Settings) (slip tc : Int) (st : Slip) (f : Nat) : Slip × Nat :=
  let spin := decide ((g.slipLimit : Int) * 10 < slip) && decide (0 < tc)
  let slide := decide (slip < -(g.slideLimit * 10 : Int)) && decide (tc < 0)
  match st with
  | .grip => if spin then (.spin, halved f) else if slide then (.slide, halved f) else (.grip, 1000)
  | .spin => if slip < (g.slipLimit : Int) * 5 then (.recover, raised f) else (.spin, halved f)
  | .slide => if -(g.slideLimit * 5 : Int) < slip then (.recover, raised f) else (.slide, halved f)
  | .recover =>
    if spin then (.spin, halved f) else if slide then (.slide, halved f)
    else (if raised f = 1000 then .grip else .recover, raised f)

/-- The wheel after a computation (R113 to R115): `lostRef` says that neither front speed is usable. -/
def nextWheel (g : Settings) (lostRef : Bool) (slip : Option Int) (tc : Int) (w : Wheel) : Wheel :=
  if lostRef then .initial
  else
    match slip with
    | none => w
    | some x =>
      let (st, f) := slipState g x tc w.slip w.factor
      let n := if st = .spin then w.spinCount + 1 else 0
      ⟨st, f, n, st != .grip && (w.persist || decide (20 ≤ n))⟩

/-! ### The computation (R104) -/

/-- The propel and retard limits used for a wheel: the retard limit is halved when the other inverter is lost (R116). -/
def wheelLimits (left : Bool) (p : EpuPosting) : Int × Int :=
  if left then (p.env.propelL, if p.inverterFaultR then p.env.retardL / 2 else p.env.retardL)
  else (p.env.propelR, if p.inverterFaultL then p.env.retardR / 2 else p.env.retardR)

/-- The command of one wheel from its base (R108 to R110). -/
def wheelCommand (gov : Gov) (g : Settings) (p : EpuPosting) (left : Bool) (base y last : Int) (w : Wheel) : Int :=
  let (propel, retard) := wheelLimits left p
  let target := targetOf (yawSplit base y (outerLeft y == left)) propel retard w.factor
  let coast := if left then p.inverterFaultL else p.inverterFaultR
  commandOf gov coast last target (ceilingOf target propel retard w.factor) (g.torqueSlew * 10)

/-- The computation of frame N, with the governing state, the demand record and the EPU posting it reads (R104). -/
def computeTal (gov : Gov) (d : Demand) (p : EpuPosting) (s : State) : State :=
  let (wsL, s) := readImage 1 s
  let (wsR, s) := readImage 2 s
  let (fsL, s) := readImage 3 s
  let (fsR, s) := readImage 4 s
  let g := s.hli.force
  let rreq := s.out.rreq.read
  let y := s.out.yaw.read
  let tcL := s.out.tcL.read
  let tcR := s.out.tcR.read
  let (travel, pend) := nextTravel (atRest s) d.dir s.tal.travel
  let ref := referenceSpeed g fsL fsR
  let slipL := slipOf ref (wheelSpeed g wsL)
  let slipR := slipOf ref (wheelSpeed g wsR)
  let wL := nextWheel g ref.isNone slipL tcL s.tal.wheelL
  let wR := nextWheel g ref.isNone slipR tcR s.tal.wheelR
  let base := baseTorque gov rreq (propelRequest gov d travel pend rreq p.env.speedLimit s.sgs.vspd)
  let cL := wheelCommand gov g p true base y tcL wL
  let cR := wheelCommand gov g p false base y tcR wR
  let pr := decide (gov = .drive) && decide (0 < d.propel) && decide (0 < rreq)
  latchIf pr .propelRetard
    { s with tal := { s.tal with
        travel := travel, dirPending := pend, wheelL := wL, wheelR := wR, refLost := ref.isNone, propelRetard := pr
        staged := some ⟨s.slc.frameNo, cL, cR, modeWord travel cL, modeWord travel cR, slipL.getD 0, slipR.getD 0,
          ⟨wL.persist, wR.persist, ref.isNone⟩⟩ } }

/-- The TAL posts its outputs (R50, R104). -/
def postTal (s : State) : State :=
  match s.tal.staged with
  | none => s
  | some g =>
    let p (v : Int) : Posted := ⟨v, some g.frame⟩
    { s with
      out := { s.out with tcL := p g.tcL, tcR := p g.tcR, mdL := p g.mdL, mdR := p g.mdR, slipL := p g.slipL
                          slipR := p g.slipR }
      tal.cond := some g.cond, tal.staged := none }

/-- A wheel's SPIN count reaches 20 and its SLIP_PERSIST mark is set (R114): the step of that event alone (log 3). -/
def persistSet (w : Wheel) : Wheel :=
  if w.slip = .spin ∧ 19 ≤ w.spinCount ∧ !w.persist then { w with spinCount := max 20 w.spinCount, persist := true }
  else w

/-- The same for the wheel named, while frames run. -/
def slipPersistSet (side : Side) (s : State) : State :=
  if s.dsc.gov = .halted then s
  else
    match side with
    | .left => { s with tal.wheelL := persistSet s.tal.wheelL }
    | .right => { s with tal.wheelR := persistSet s.tal.wheelR }

/-- The TAL's values of STATUS-QUERY (R118; log 22). -/
def wheelBytes (w : Wheel) : List Byte := vEnum (slipCode w.slip) ++ vQuant w.factor ++ vMark w.persist

def talStatusBytes (s : State) : List Byte :=
  vEnum (dirCode s.tal.travel) ++ vMark s.tal.dirPending ++ wheelBytes s.tal.wheelL ++ wheelBytes s.tal.wheelR

end Sys2Proof.Machine
end

