-- ==== Sys2Proof/Machine/Rgv.lean ====
section
/-! DEFINITION. The Retard Governor: torque and power, descent hold, the other sources, grid usability, cooling, energy,
capacity, ceilings and blowers (chapter 7). Torques are in 0.1 %, speeds in 0.1 km/h, energies in 0.001 MJ. -/

namespace Sys2Proof.Machine

/-! ### Torque and power (R121) -/

/-- The speed factor as a fraction (R121). -/
def speedFactor (g : Settings) (v : Derived) : Int × Int :=
  let b : Int := 10 * g.baseSpeed
  if v.quality.usable then (min (max v.value 10) b, b) else (b, b)

/-- The torque for a power of num/den kW (R121). -/
def torqueFor (g : Settings) (v : Derived) (num den : Int) : Int :=
  let (a, b) := speedFactor g v
  min 1000 (1000 * num * b / (den * g.ratedRetardPower * a))

/-- The power in kW for a torque (R121). -/
def powerFor (g : Settings) (v : Derived) (t : Int) : Int :=
  let (a, b) := speedFactor g v
  t * g.ratedRetardPower * a / (1000 * b)

/-! ### Feed-forward, grade direction (R124) -/

/-- The grade direction after a computation (R124). -/
def nextGrade (rest : Bool) (d : Dir) (g : Grade) : Grade :=
  if rest then (match d with | .forward => .forward | .reverse => .reverse | .neutral => g) else g

/-- The downhill grade in 0.1 %, when it is known (R124). -/
def downhill (inc : ImageEntry) : Grade → Option Int
  | .unset => none
  | .forward => if inc.quality.usable then some inc.value else none
  | .reverse => if inc.quality.usable then some (-inc.value) else none

/-- The gross mass in 0.1 t (R124). -/
def grossMass (g : Settings) (p : EpuPosting) : Int :=
  10 * (g.emptyMass : Int) + (if p.cls = .unknown then 10 * (g.ratedPayload : Int) else p.haul)

/-- The feed-forward term (R124). -/
def feedForward (g : Settings) (p : EpuPosting) (v : Derived) (grade : Option Int) : Int :=
  match grade with
  | none => 0
  | some i => torqueFor g v (max 0 (grossMass g p * 981 * v.value * (i - 20))) 36000000

/-! ### Descent hold (R123 to R125) -/

/-- The causes that send the hold OFF (R123). -/
def holdOffCause (gov : Gov) (d : Demand) : Bool :=
  d.hold == 0 || decide (0 < d.propel) || !(gov == .drive || gov == .safeHold)

/-- The causes that engage the hold (R123). -/
def holdEngageCause (gov : Gov) (d : Demand) (v : Derived) : Bool :=
  d.hold != 0 && gov == .drive && d.dir != .neutral && d.propel == 0 && v.quality.usable && decide (30 ≤ v.value)

/-- The hold OFF: integrator, counts and output 0 (R123). -/
def holdOff (r : Rgv) : Rgv := { r with hold := .off, integ := 0, shortCount := 0, engageCount := 0, holdOut := 0 }

/-- The state of the hold before its output is computed (R123). -/
def holdMode (gov : Gov) (d : Demand) (v : Derived) (r : Rgv) : Rgv :=
  if r.hold = .off then
    if holdEngageCause gov d v then { holdOff r with hold := .engaged } else { r with holdOut := 0 }
  else if holdOffCause gov d then holdOff r
  else r

/-- The integrator and the hold output of a hold that is not OFF, with VSPD usable (R124; log 45). -/
def holdOutput (g : Settings) (ff : Int) (d : Demand) (v : Derived) (r : Rgv) : Rgv :=
  let e := v.value - (d.hold : Int)
  let i := if r.hold = .engaged then clamp (-20000) 20000 (r.integ + e * g.framePeriod / 5) else r.integ
  { r with integ := i, holdOut := clamp 0 100000 (ff * 100 + e * 1000 + i) / 100 }

/-- The counts between ENGAGED and SHORT (R125): `cap` is the capacity torque; a computation is counted by the state the hold
has when its output is computed (log 65). -/
def holdCounts (cap : Int) (d : Demand) (v : Derived) (r : Rgv) : Rgv :=
  match r.hold with
  | .engaged =>
    if cap < r.holdOut ∧ (d.hold : Int) + 30 < v.value then
      if 9 ≤ r.shortCount then { r with hold := .short, shortCount := 0 } else { r with shortCount := r.shortCount + 1 }
    else { r with shortCount := 0 }
  | .short =>
    if r.holdOut ≤ cap then
      if 9 ≤ r.engageCount then { r with hold := .engaged, engageCount := 0 }
      else { r with engageCount := r.engageCount + 1 }
    else { r with engageCount := 0 }
  | .off => r

/-- Descent hold at a computation (R123 to R125). The computation that engages the hold is itself counted toward SHORT (log
65). -/
def nextHold (gov : Gov) (g : Settings) (ff cap : Int) (d : Demand) (v : Derived) (r : Rgv) : Rgv :=
  let r := holdMode gov d v r
  if r.hold = .off ∨ !v.quality.usable then r else holdCounts cap d v (holdOutput g ff d v r)

/-! ### Speed-limit hold and retard-to-rest (R126, R127) -/

/-- DRIVE or SAFE-HOLD. -/
def retarding (gov : Gov) : Bool := gov == .drive || gov == .safeHold

/-- The speed-limit hold (R126). -/
def limitHold (gov : Gov) (ff limit : Int) (v : Derived) : Int :=
  if retarding gov && v.quality.usable && decide (limit < v.value) then clamp 0 1000 (ff + 10 * (v.value - limit))
  else 0

/-- The retard-to-rest target and output (R127), the target in 0.001 km/h. -/
def nextRtr (gov : Gov) (g : Settings) (ff : Int) (rest : Bool) (v : Derived) (r : Rgv) : Rgv :=
  if gov = .safeHold then
    let t : Option Int :=
      match r.rtr with
      | some t => some (max 0 (t - g.framePeriod))
      | none => if v.quality.usable then some (v.value * 100) else none
    let out : Int :=
      match t with
      | none => 0
      | some t =>
        if rest then 0
        else if v.quality.usable then clamp 0 100000 (ff * 100 + (v.value * 100 - t) * 10) / 100
        else r.rtrOut
    { r with rtr := t, rtrOut := out }
  else { r with rtr := none, rtrOut := 0 }

/-! ### The grids (R128 to R134) -/

/-- The chopper station bound to a grid is EXCLUDED in the SLC posting (R128; log 30). -/
def chopperPosted (sig : Nat) (s : State) : Bool :=
  match boundAddr sig s, s.slc.posting with
  | some a, some p => p.stations.any (fun x => x.1 == a && x.2.2 == .excluded)
  | _, _ => false

/-- The density ratio in 0.01 (R129; log 18, log 20). -/
def densityRatio (p t : ImageEntry) : Int :=
  if p.quality.usable && t.quality.usable then
    let k := t.value + 2730
    if k = 0 then clamp 40 120 (Config.densityAtZero p.value)
    else clamp 40 120 (roundNearest .densityRatio (p.value * 293000 * k.sign) (1013 * k.natAbs))
  else 60

/-- The cooling of a grid in kW (R129). -/
def coolingOf (g : Settings) (bs : ImageEntry) (density : Int) : Int :=
  if bs.quality.usable then g.gridCool * bs.value * density / 10000 else 0

/-- The power dissipated in a grid in kW (R130). -/
def dissipated (g : Settings) (v : Derived) (vdc gi : ImageEntry) (rreq cd : Int) : Int :=
  if vdc.quality.usable && gi.quality.usable then vdc.value * gi.value / 1000 else powerFor g v rreq * cd / 100

/-- The capacity of a grid in 0.001 MJ (R131). -/
def emaxOf (g : Settings) (good : Nat) : Int := 125 * g.gridEmax * good

/-- The energy change of a frame in 0.001 MJ (R131; log 19). -/
def energyStep (g : Settings) (p c : Int) : Int :=
  let x := (p - c) * g.framePeriod
  if x % 1000 ≠ 0 ∧ Config.energyUp x then x / 1000 + 1 else x / 1000

/-- The energy of a grid after a frame (R131). -/
def nextEnergy (g : Settings) (p c e emax : Int) : Int := clamp 0 emax (e + energyStep g p c)

/-- The retard capacity of a grid in kW (R132). -/
def rcapOf (usable : Bool) (c e emax : Int) : Int := if usable then c + (emax - e) / 60 else 0

/-- The duty ceiling of a grid, from 0 to 100 (R133); a quotient outside that range, which a negative capacity makes, is
clamped to it (log 58). -/
def ceilingDuty (usable : Bool) (rcapG rcap : Int) : Int :=
  if usable ∧ rcap ≠ 0 then clamp 0 100 ((100 * rcapG).fdiv rcap) else 0

/-- The blower command of a grid (R134). -/
def blowerOf (p e emax : Int) : Int := if emax < 5 * e ∨ 0 < p then 100 else 30

/-! ### The computation (R120) -/

/-- The four sources, limited to the capacity torque (R122). -/
def retardRequest (gov : Gov) (d : Demand) (ff limit cap : Int) (v : Derived) (r : Rgv) : Int :=
  if retarding gov then
    min cap (max (max (d.retard : Int) r.holdOut) (max (limitHold gov ff limit v) r.rtrOut))
  else 0

/-- The computation of frame N, with the governing state, the demand record and the EPU posting it reads (R120). The grade
direction is brought up to date ahead of the feed-forward term (R124; log 69). -/
def computeRgv (gov : Gov) (d : Demand) (p : EpuPosting) (s : State) : State :=
  let s := if atRest s then s else gridAbort .moved s
  let (vdc, s) := readImage 15 s
  let (giA, s) := readImage 16 s
  let (giB, s) := readImage 17 s
  let (bsA, s) := readImage 22 s
  let (bsB, s) := readImage 23 s
  let (inc, s) := readImage 32 s
  let (ap, s) := readImage 33 s
  let (at', s) := readImage 34 s
  let g := s.hli.force
  let v := s.sgs.vspd
  let r := s.rgv
  let useA := !chopperPosted 44 s && decide (6 ≤ r.gridA.good) && !p.gridOvertempA
  let useB := !chopperPosted 45 s && decide (6 ≤ r.gridB.good) && !p.gridOvertempB
  let density := densityRatio ap at'
  let cA := coolingOf g bsA density
  let cB := coolingOf g bsB density
  let pA := dissipated g v vdc giA s.out.rreq.read s.out.cdA.read
  let pB := dissipated g v vdc giB s.out.rreq.read s.out.cdB.read
  let mA := emaxOf g r.gridA.good
  let mB := emaxOf g r.gridB.good
  let eA := nextEnergy g pA cA r.gridA.energy mA
  let eB := nextEnergy g pB cB r.gridB.energy mB
  let kA := rcapOf useA cA eA mA
  let kB := rcapOf useB cB eB mB
  let rcap := kA + kB
  let cap := torqueFor g v rcap 1
  let grade := nextGrade (atRest s) d.dir r.grade
  let ff := feedForward g p v (downhill inc grade)
  let r' := nextRtr gov g ff (atRest s) v (nextHold gov g ff cap d v { r with grade := grade })
  let staged : RgvStaged :=
    { frame := s.slc.frameNo, rreq := retardRequest gov d ff p.env.speedLimit cap v r', rcap := rcap
      cdA := ceilingDuty useA kA rcap, cdB := ceilingDuty useB kB rcap
      bfA := blowerOf pA eA mA, bfB := blowerOf pB eB mB, geA := eA / 100, geB := eB / 100
      cond := ⟨eA, eB, mA, mB, useA, useB⟩ }
  latchIf (r'.hold == .short && r.hold != .short) .retardShort
    { s with rgv := { r' with
        gridA.energy := eA, gridB.energy := eB, gridA.emax := mA, gridB.emax := mB, staged := some staged } }

/-- The RGV posts its outputs; the usable marks change at that event (R50, R120, R128). -/
def postRgv (s : State) : State :=
  match s.rgv.staged with
  | none => s
  | some g =>
    let p (v : Int) : Posted := ⟨v, some g.frame⟩
    { s with
      out := { s.out with rreq := p g.rreq, rcap := p g.rcap, cdA := p g.cdA, cdB := p g.cdB, bfA := p g.bfA
                          bfB := p g.bfB, geA := p g.geA, geB := p g.geB }
      rgv.cond := some g.cond, rgv.staged := none
      rgv.gridA.usable := g.cond.usableA, rgv.gridB.usable := g.cond.usableB }

/-- The RGV at entry to STANDBY and at a governor reset: energies, good counts and the check are kept (R137, R147). The
outputs are set back by the caller. -/
def rgvInitial (s : State) : State :=
  let r := s.rgv
  { s with rgv := { Rgv.initial with
      gridA := { r.gridA with usable := false }, gridB := { r.gridB with usable := false }, check := r.check } }

/-! ### Events of their own (R125; log 3) -/

/-- The count in ENGAGED reaches 10. -/
def holdShortEntry (s : State) : State :=
  if s.dsc.gov ≠ .halted ∧ s.rgv.hold = .engaged ∧ 9 ≤ s.rgv.shortCount then
    latch .retardShort { s with rgv.hold := .short, rgv.shortCount := 0 }
  else s

/-- The count in SHORT reaches 10. -/
def holdShortExit (s : State) : State :=
  if s.dsc.gov ≠ .halted ∧ s.rgv.hold = .short ∧ 9 ≤ s.rgv.engageCount then
    { s with rgv.hold := .engaged, rgv.engageCount := 0 }
  else s

/-! ### What the host sees (R136; log 22) -/

def gridStatusBytes (x : GridState) : List Byte :=
  vMark x.usable ++ vCount x.good ++ vQuant x.energy ++ vQuant x.emax

/-- The RGV's values of STATUS-QUERY. -/
def rgvStatusBytes (s : State) : List Byte :=
  vEnum (holdCode s.rgv.hold) ++ vQuant s.rgv.integ ++ vEnum (gradeCode s.rgv.grade) ++ vOpt vQuant 0 s.rgv.rtr
    ++ gridStatusBytes s.rgv.gridA ++ gridStatusBytes s.rgv.gridB

/-- The SGV's values of STATUS-QUERY (R160). -/
def sgvStatusBytes (s : State) : List Byte :=
  vOpt vQuant 0 s.sgv.ac ++ vEnum (steerOutcomeCode s.sgv.result.outcome) ++ vMark s.sgv.track ++ vMark s.sgv.accLow
    ++ vMark s.sgv.supply

end Sys2Proof.Machine
end

