-- ==== Sys2Proof/Machine/Dsc.lean ====
section
/-! DEFINITION. The Drive State Controller: entries to HALTED and STANDBY, STANDBY validation, MODE-REQUEST, DEMAND, the
demand timer, the STOP line and the resets (chapter 1; R60, R61 of chapter 3). -/

namespace Sys2Proof.Machine

/-! ### Entry to HALTED and to STANDBY (R2, R4) -/

/-- A pass exchange in its slot completes for its station only (R2, R39). -/
def orphanPass (x : SlotEx) : SlotEx :=
  match x.claim with
  | .acq _ | .dispatch _ => { x with claim := .orphan }
  | _ => x

/-- The frames stop: the frame timer and the passes (R2). -/
def stopFrames (s : State) : State :=
  { s with
    slc.frameTimer := false, slc.firstFrame := false, slc.phase := .idle, slc.markReached := false
    slc.loopLost := false, slc.passIdx := 0, slc.run := none, slc.slots := 0
    slc.slot := s.slc.slot.map orphanPass }

/-- Entry to HALTED, after the change of state: frames, image, rest window, presences, PROPEL_RETARD, descent hold, and
outputs computed and not posted (R2, R66, R82, R84, R106, R123; log 7). -/
def haltEffects (s : State) : State :=
  let s := haltImage (stopFrames s)
  { s with
    epu.restCount := 0, epu.restWindow := [], epu.pres := .cleared
    tal.propelRetard := false, tal.staged := none
    rgv := { holdOff s.rgv with staged := none }
    sgv.staged := none }

/-- Every output and derived signal back to its initial value; HAUL_PAYLOAD is kept (R52, R101). -/
def resetOutputs (s : State) : State := { s with out := { Outputs.initial with haul := s.out.haul } }

/-- Entry to STANDBY from HALTED, after the change of state (R2, R4, R16, R52, R81, R101, R119, R137, R161; log 6). -/
def standbyEffects (s : State) : State :=
  let s := sgvInitial (rgvInitial (resetOutputs s))
  { s with
    tal := { Tal.initial with propelRetard := s.tal.propelRetard }
    epu.posting := .initial, epu.stopReport := s.epu.stopReport || s.dsc.stopLine
    slc.frameTimer := true, slc.firstFrame := true, slc.posting := none
    imn.posting := none }

/-! ### STANDBY validation (R60, R61) -/

/-- The addresses an entry can address. -/
def entryAddrs (e : AcqEntry) : List Nat :=
  if e.settle = .span then (List.range e.span).map (e.addr + ·) else [e.addr]

/-- The checks on one valid entry, in order (R60). -/
def entryFailure (e : AcqEntry) (s : State) : Option Detail :=
  let sts := (entryAddrs e).filterMap (stationAt · s)
  if sts.isEmpty then some .stationUnknown
  else if sts.all (·.state == .excluded) then some .stationExcluded
  else if sts.any (fun st => st.kind != sourceKind e.signal) then some .kindMismatch
  else if reservedChannel (sourceKind e.signal) e.channel then some .reservedChannel
  else if e.corrupt then some .corruptEntry
  else none

/-- The valid entries among the given indices, read through the IMN; the first failure ends the validation (R60). -/
def validateEntries : List Nat → State → Option (Detail × Nat) × State
  | [], s => (none, s)
  | i :: is, s =>
    let (e, s) := readAcq i s
    if e.valid then
      match entryFailure e s with
      | some d => (some (d, i), s)
      | none => validateEntries is s
    else validateEntries is s

/-- A valid entry of a function names a signal. -/
def named (f : Func) (sig : Nat) (s : State) : Bool :=
  s.slc.acq.any (fun p => p.val.valid && p.val.func == f && p.val.signal == sig)

/-- The required READ destinations, in ascending id order (R61). -/
def requiredReads : List Nat := [1, 2, 13, 14, 15, 20, 21, 28, 29, 31]

/-- The required WRITE sources (R61). -/
def requiredWrites : List Nat := [40, 41, 42, 43, 44, 45, 46, 47, 48]

/-- The bindings, in order: two signals and whether they address the same station (R61). -/
def bindings : List (Nat × Nat × Bool) :=
  [(40, 42, true), (41, 43, true), (44, 46, true), (45, 47, true), (40, 41, false), (44, 45, false)]

/-- The first missing signal or failing binding (R61). -/
def signalFailure (s : State) : Option (Detail × Nat) :=
  match requiredReads.find? (fun n => !named .read n s) with
  | some n => some (.missingSignal, n)
  | none =>
    match requiredWrites.find? (fun n => !named .write n s) with
    | some n => some (.missingSignal, n)
    | none =>
      (bindings.find? (fun b => (boundAddr b.1 s == boundAddr b.2.1 s) != b.2.2)).map
        (fun b => (.binding, b.2.1))

/-- STANDBY validation (R60, R61). -/
def validate (s : State) : Option (Detail × Nat) × State :=
  match validateEntries (List.range 64) s with
  | (some f, s) => (some f, s)
  | (none, s) => (signalFailure s, s)

/-! ### MODE-REQUEST (R3 to R7) -/

/-- A direct LOOP-EXCHANGE or STATION-REINSTATE exchange is outstanding (R4): its item is in the service queue. One that a
governor reset has left in its slot, its request answered, does not count (log 71). -/
def directOutstanding (s : State) : Bool :=
  s.slc.queue.any (fun it => it.claimant == .loopExchange || it.claimant == .reinstate)

/-- HALTED to STANDBY (R4). -/
def requestStandby (tag : Byte) (s : State) : State :=
  if loopNotUp s then refuse 0x02 tag .state .loopNotUp (loopCode s.slc.loopState) s
  else if s.slc.scan.isSome then refuse 0x02 tag .state .scanRunning 0 s
  else if directOutstanding s then refuse 0x02 tag .state .loopBusy 0 s
  else
    match validate s with
    | (some (d, q), s) => refuse 0x02 tag .state d q s
    | (none, s) => done 0x02 tag [] (standbyEffects (changeState .standby .request s))

/-- The first failing condition of STANDBY to DRIVE, with its qualifier (R5). -/
def driveFailure (s : State) : Option (Detail × Nat) :=
  if loopNotUp s then some (.loopNotUp, loopCode s.slc.loopState)
  else if s.dsc.stopLine then some (.stopAsserted, 0)
  else
    match procRunning s with
    | some p => some (.procRunning, p)
    | none =>
      if severeHeld s then some (.severeHeld, s.epu.trips.findIdx (·.severe))
      else if s.sgv.result.outcome ≠ .pass then some (.steerCheck, 0)
      else if !s.dsc.fresh then some (.demandStale, 0)
      else if s.dsc.demand.dir ≠ .neutral ∨ s.dsc.demand.propel ≠ 0 then some (.demandNotNeutral, 0)
      else none

/-- STANDBY to DRIVE (R5). -/
def requestDrive (tag : Byte) (s : State) : State :=
  match driveFailure s with
  | some (d, q) => refuse 0x02 tag .state d q s
  | none => done 0x02 tag [] (changeState .drive .request s)

/-- Retard-to-rest is cleared on leaving SAFE-HOLD (R127). -/
def clearRtr (s : State) : State := { s with rgv.rtr := none, rgv.rtrOut := 0 }

/-- DRIVE or SAFE-HOLD to STANDBY (R6). -/
def requestRest (tag : Byte) (s : State) : State :=
  if atRest s then done 0x02 tag [] (clearRtr (changeState .standby .request s))
  else refuse 0x02 tag .state .notAtRest 0 s

/-- STANDBY to HALTED (R7). -/
def requestHalted (tag : Byte) (s : State) : State :=
  let s := steerAbort .halted (gridAbort .halted s)
  done 0x02 tag [] (haltEffects (changeState .halted .request s))

/-- MODE-REQUEST, taken (R3; log 24). -/
def takeModeRequest (tag target : Byte) (s : State) : State :=
  match govOfCode target.toNat with
  | none => refuse 0x02 tag .range .field 0 s
  | some t =>
    if t = s.dsc.gov then done 0x02 tag [] s
    else
      match s.dsc.gov, t with
      | .halted, .standby => requestStandby tag s
      | .standby, .drive => requestDrive tag s
      | .drive, .standby | .safeHold, .standby => requestRest tag s
      | .standby, .halted => requestHalted tag s
      | _, _ => refuse 0x02 tag .state .transition (govCode s.dsc.gov) s

/-! ### DEMAND (R10, R11) -/

/-- A hold speed in range: 0, or 5.0 to 50.0 km/h. -/
def holdInRange (h : Nat) : Bool := h == 0 || (decide (50 ≤ h) && decide (h ≤ 500))

/-- The number of the first field out of range, or the demand record (R11). -/
def demandOf (dir : Byte) (propel retard hold steer : BitVec 16) (brake : Byte) : Except Nat Demand :=
  match dirOfCode dir.toNat with
  | none => .error 1
  | some d =>
    if 1000 < propel.toNat then .error 2
    else if 1000 < retard.toNat then .error 3
    else if !holdInRange hold.toNat then .error 4
    else if steer.toInt < -4000 ∨ 4000 < steer.toInt then .error 5
    else if 1 < brake.toNat then .error 6
    else .ok ⟨d, propel.toNat, retard.toNat, hold.toNat, steer.toInt, brake.toNat == 1⟩

/-- DEMAND, taken (R11). -/
def takeDemand (tag dir : Byte) (propel retard hold steer : BitVec 16) (brake : Byte) (s : State) : State :=
  match demandOf dir propel retard hold steer brake with
  | .error n => refuse 0x03 tag .range .field n s
  | .ok d =>
    done 0x03 tag []
      { s with dsc.demand := d, dsc.timerRunning := true, dsc.fresh := true, dsc.demandLost := false }

/-! ### The demand timer and the STOP line (R13, R15, R16) -/

/-- Expiry of the demand timer (R13). -/
def demandExpiry (s : State) : State :=
  if s.dsc.timerRunning then
    let s := { s with dsc.fresh := false, dsc.timerRunning := false }
    match s.dsc.gov with
    | .drive =>
      latch .demandTimeout
        { changeState .safeHold .demandTimeout s with dsc.demandLost := true, epu.demandReport := true }
    | .standby | .safeHold => latch .demandTimeout s
    | .halted => s
  else s

/-- Assertion of the STOP line (R15). -/
def stopAssert (s : State) : State :=
  let s := { s with pins.stop := true, dsc.stopLine := true }
  match s.dsc.gov with
  | .drive => { changeState .safeHold .stopLine s with epu.stopReport := true }
  | .standby => { steerAbort .stop (gridAbort .stop s) with epu.stopReport := true }
  | .safeHold => { s with epu.stopReport := true }
  | .halted => s

/-- Release of the STOP line (R16). -/
def stopRelease (s : State) : State := { s with pins.stop := false, dsc.stopLine := false }

/-! ### Resets (R19, R20, R195) -/

/-- A full reset: every block at its initial state, with the STOP line as found; the STATE notice is sent unless the RESET
pin holds the part (R19, R195). -/
def fullResetTo (stop reset : Bool) (s : State) : State :=
  let t := State.initial stop reset s.pending
  if reset then t else { t with hli.tx := [resetNotice] }

/-- A directory entry at a governor reset (R38). -/
def Station.governorReset (e : Station) : Station :=
  { e with state := if e.state = .suspect then .enrolled else e.state, streak := 0 }

/-- Who gets the outcome of the exchange in its slot after a governor reset: it completes, and its outcome is applied to
the directory, a scan probe's enrolment and a REINSTATE probe's effect included (R33, R38; log 11). -/
def claimAfterReset (headProbe : Bool) : Claim → Claim
  | .scan => .scan
  | .probe => .probe
  | .service => if headProbe then .probe else .orphan
  | _ => .orphan

/-- The exchange in its slot at a governor reset. -/
def SlotEx.governorReset (headProbe : Bool) (x : SlotEx) : SlotEx :=
  { x with afterReset := true, claim := claimAfterReset headProbe x.claim }

/-- The head of the service queue is a REINSTATE probe. -/
def headIsProbe (s : State) : Bool := s.slc.queue.head?.any (·.claimant == .reinstate)

/-- Injections cancelled (R182). -/
def cancelInjections (s : State) : State :=
  { s with imn.acq.inject := .none, imn.screen.inject := .none, imn.image.inject := .none, imn.record.inject := .none }

/-- The DSC's step of a governor reset (R20, step 3). -/
def dscReset (s : State) : State :=
  let s := if s.dsc.gov = .halted then s else changeState .halted .governorReset s
  { s with dsc.demand := .initial, dsc.fresh := false, dsc.timerRunning := false, dsc.demandLost := false }

/-- The governor-reset values of the other blocks (R20, step 4; R38, R62, R79, R103, R119, R137, R161, R174, R182). With an
exchange in its slot the directory takes its values after that exchange's outcome (R38; log 11). -/
def blocksReset (s : State) : State :=
  let s := sgvInitial (rgvInitial (resetOutputs (haltEffects s)))
  { s with
    slc.dir := if s.slc.slot.isSome then s.slc.dir else s.slc.dir.map (·.governorReset)
    slc.slot := s.slc.slot.map (·.governorReset (headIsProbe s))
    slc.queue := [], slc.held := [], slc.scan := none, slc.posting := none, slc.delivery := []
    epu := { Epu.initial with haul := s.epu.haul }
    tal := .initial
    trc.st := .idle, trc.find := none
    imn.posting := none }

/-- GOVERNOR-RESET, taken (R20, R195): at step 2 the grid element check ends ahead of the steering supply check (log 10).
The DONE is queued in this event also where an exchange in its slot puts the directory's values off (log 11, log 72). -/
def takeGovernorReset (tag : Byte) (s : State) : State :=
  let s := deferredReply (.refused .fault .aborted 1) s
  let s := steerReset (gridAbort .reset s)
  done 0x1B tag [] (blocksReset (dscReset (cancelInjections s)))

/-- FULL-RESET, taken: answered at once; the HLI takes no further request (R195). -/
def takeFullReset (tag : Byte) (s : State) : State := { done 0x1C tag [] s with hli.fullReset := .taken }

/-- The reset takes effect when the reply's last byte has been sent (R195). -/
def fullResetEffect (s : State) : State :=
  if s.hli.fullReset = .replySent then fullResetTo s.pins.stop s.pins.reset s else s

/-- The DSC's values of STATUS-QUERY (R18; log 22). -/
def dscStatusBytes (s : State) : List Byte :=
  let d := s.dsc.demand
  vEnum (govCode s.dsc.gov) ++ vEnum (dirCode d.dir) ++ vQuant d.propel ++ vQuant d.retard ++ vQuant d.hold
    ++ vQuant d.steer ++ vMark d.brakeApplied ++ vMark s.dsc.fresh ++ vMark s.dsc.demandLost ++ vMark s.dsc.stopLine
    ++ vMark (atRest s)

/-- The EPU's values of STATUS-QUERY (R102). -/
def epuStatusBytes (s : State) : List Byte :=
  vQuant s.epu.haul ++ vEnum (payClassCode s.epu.cls) ++ vCount s.epu.derates.length ++ vCount s.epu.trips.length
    ++ vMark (severeHeld s) ++ vCount s.epu.pendingSet.length

end Sys2Proof.Machine
end

