-- ==== Sys2Proof/Machine/Format.lean ====
section
/-! DEFINITION. The layouts of chapter 13: the CRC, host link frames, messages as the bytes sent, loop commands, and the
judgement of the words that return in a slot. -/

namespace Sys2Proof.Machine

/-! ### CRC-16 (R196): polynomial 1021h, initial value FFFFh -/

def crcShift (c : BitVec 16) : BitVec 16 := if c.msb then (c <<< 1) ^^^ 0x1021#16 else c <<< 1

/-- One byte into the CRC register. -/
def crcByte (c : BitVec 16) (b : Byte) : BitVec 16 :=
  Nat.repeat crcShift 8 (c ^^^ (b.setWidth 16 <<< 8))

/-- The CRC over bytes. -/
def crc16 (bs : List Byte) : BitVec 16 := bs.foldl crcByte 0xFFFF#16

/-- A 16-bit word as two bytes, high byte first. -/
def wordBytes (w : BitVec 16) : List Byte := beBytes 2 w.toNat

/-! ### Frames (R196) -/

/-- The bytes under the CRC: length, kind, tag and payload. -/
def Frame.body (f : Frame) : List Byte := BitVec.ofNat 8 f.payload.length :: f.kind :: f.tag :: f.payload

/-- The bytes of a frame on the line. -/
def Frame.bytes (f : Frame) : List Byte := 0xA7#8 :: (f.body ++ wordBytes (crc16 f.body))

/-! ### Messages (R188, R199) -/

/-- The payload of a notice ("FMT: NOTICE PAYLOADS"). -/
def Notice.payload : Notice → List Byte
  | .state old new cause => vEnum (govCode old) ++ vEnum (govCode new) ++ vEnum (stateCauseCode cause)
  | .trip cause severe frame => vEnum (tripCode cause) ++ vEnum (if severe then 0 else 1) ++ vFrame frame
  | .loop st => vEnum (loopCode st)
  | .proc p o c frame => vEnum p ++ vEnum o ++ vEnum (procCauseCode c) ++ vFrame frame
  | .blockReady => vEnum 0 ++ vFrame 0 ++ vEnum 0
  | .frozen frame cause => vEnum 1 ++ vFrame frame ++ vEnum (tripCode cause)

/-- The kind of a notice (R197). -/
def Notice.kind : Notice → Byte
  | .state .. => 0x60 | .trip .. => 0x61 | .loop _ => 0x62 | .proc .. => 0x63 | .blockReady => 0x64 | .frozen .. => 0x64

/-- The outcome byte and what follows it (R199). -/
def Body.bytes : Body → List Byte
  | .done data => 0x00#8 :: data
  | .refused cls d q => 0x01#8 :: (vEnum (classCode cls) ++ vEnum (detailCode d) ++ vCount q)

/-- The number of frames a reply takes: 239 bytes beside the segment byte in each (R185). -/
def segmentCount (n : Nat) : Nat := max 1 ((n + 238) / 239)

/-- The payloads of the frames of a reply: the segment byte and its data, every frame but the last full (R185, R199; log
62). -/
def segments (data : List Byte) : List (List Byte) :=
  let k := segmentCount data.length
  (chunks 239 k data).mapIdx (fun i c => BitVec.ofNat 8 ((if i + 1 = k then 128 else 0) + i) :: c)

/-- The bytes of a message; all the frames of one reply are one message (R185). -/
def Msg.bytes : Msg → List Byte
  | .notice n => (Frame.mk n.kind 0 n.payload).bytes
  | .reply _ kind tag b => (segments b.bytes).flatMap (fun p => (Frame.mk kind tag p).bytes)

/-! ### Loop words ("FMT: LOOP WORDS") -/

/-- The data words of a field: high word first at size 32. -/
def dataWords (size32 : Bool) (d : Nat) : List LoopWord :=
  if size32 then [BitVec.ofNat 16 (d / 65536), BitVec.ofNat 16 d] else [BitVec.ofNat 16 d]

/-- The header and data words of a command. -/
def commandHead (x : SlotEx) : List LoopWord :=
  BitVec.ofNat 16 (32768 + 256 * (x.addr % 64) + 32 * (x.channel % 8) + 8 * funcCode x.func + bit x.size32 2)
    :: dataWords x.size32 x.data

/-- The check word over header and data words (R196). -/
def checkWord (ws : List LoopWord) : LoopWord := crc16 (ws.flatMap wordBytes)

/-- The words of a command on LOOP_OUT. -/
def commandWords (x : SlotEx) : List LoopWord := commandHead x ++ [checkWord (commandHead x)]

/-- LOOP_OUT, `k` word times after the slot began: the words of the command in its slot and then idle words; the idle
pattern when no exchange is in progress (R21, R23). -/
def loopOut (k : Nat) (s : State) : LoopWord :=
  match s.slc.slot with
  | some x => (commandWords x).getD k idleWord
  | none => idleWord

/-- What a reply that has returned says (R24): its outcome, its ready mark and its data. -/
structure Heard where
  outcome : ExOutcome
  ready : Bool
  data : Nat
deriving DecidableEq, Repr

/-- An outcome with no sound reply behind it: data zero. -/
def Heard.bare (o : ExOutcome) : Heard := ⟨o, false, 0⟩

/-- The number of data words. -/
def dataLen (size32 : Bool) : Nat := if size32 then 2 else 1

/-- A reply judged against its command, idle words before it left out (R24, R200). -/
def judgeReply (x : SlotEx) (ws : List RxWord) : Heard :=
  let k := dataLen x.size32
  let body := ws.take (k + 2)
  let raw := body.map (·.word)
  let h := (raw.getD 0 0).toNat
  let sound := body.length == k + 2 && body.all (fun w => !w.lineError) && h / 16384 == 3
    && raw.getD (k + 1) 0 == checkWord (raw.take (k + 1)) && h / 256 % 64 == x.addr % 64
  if sound then
    let d := (raw.drop 1).take k |>.foldl (fun n w => 65536 * n + w.toNat) 0
    let ready := h / 64 % 2 == 1
    ⟨if h / 128 % 2 = 0 then .untaken else if ready then .takenReady else .takenNotReady, ready, d⟩
  else .bare .check

/-- What is left of the words that follow the part's own header: its further words, `own`, are discarded as they return, in
their order though some be lost, and idle words are passed over (R23, R200; log 68). -/
def dropOwn : List RxWord → List LoopWord → List RxWord
  | [], _ => []
  | w :: ws, own =>
    if w.cleanIdle then dropOwn ws own
    else if !w.lineError && own.contains w.word then dropOwn ws ((own.dropWhile (· != w.word)).drop 1)
    else w :: ws

/-- The words that returned in the slot without idle words ahead of a reply and without the part's own command words (R23,
R200; log 68). -/
def replyWords (x : SlotEx) (ws : List RxWord) : List RxWord :=
  match ws.dropWhile (·.cleanIdle), commandWords x with
  | w :: ws, o :: own => if w = ⟨o, false⟩ then dropOwn ws own else w :: ws
  | ws, _ => ws

/-- The reply in the words that returned in the slot, if one has: with nothing but idle words and the part's own command
words, whole or in part, there is none and the slot runs on to NO_REPLY (R23, R200; log 68). -/
def heardReply (x : SlotEx) (ws : List RxWord) : Option Heard :=
  match replyWords x ws with
  | [] => none
  | rest => some (judgeReply x rest)

end Sys2Proof.Machine
end

