-- ==== Sys2Proof/Machine/Loop.lean ====
section
/-! DEFINITION. The station loop: sync, the directory's failure records, LOOP-SCAN, STATION-REINSTATE, LOOP-EXCHANGE, and
the service queue's claimants (chapter 2; R56 to R59 of chapter 3). -/

namespace Sys2Proof.Machine

/-! ### Sync (R21, R22) -/

/-- A change of loop state with its LOOP notice (R22). -/
def setLoop (st : LoopState) (s : State) : State := notify (.loop st) { s with slc.loopState := st }

/-- A clean idle word returns (R21). -/
def cleanIdleWord (s : State) : State :=
  match s.slc.loopState with
  | .down => setLoop .syncing { s with slc.sync := 1 }
  | .syncing =>
    if 31 ≤ s.slc.sync then setLoop .up { s with slc.sync := 32 } else { s with slc.sync := s.slc.sync + 1 }
  | .up => s

/-- A word that is not a clean idle word returns outside an exchange (R21). -/
def uncleanWord (w : RxWord) (s : State) : State :=
  if w.cleanIdle then cleanIdleWord s
  else if s.slc.loopState = .syncing then { s with slc.sync := 0 } else s

/-- The count of clean idle words reaches 32 (R21; log 3). -/
def loopSyncReached (s : State) : State :=
  if s.slc.loopState = .syncing ∧ 31 ≤ s.slc.sync then setLoop .up { s with slc.sync := 32 } else s

/-! ### The directory (R29, R30) -/

/-- The failure kind of an outcome (R24). -/
def failKindOf : ExOutcome → Option FailKind
  | .noReply => some .noReply
  | .check => some .check
  | .untaken => some .untaken
  | _ => none

/-- A failure of a station: streak, total and last failure kind (R29). -/
def Station.fail (k : FailKind) (e : Station) : Station :=
  { e with streak := satSucc 255 e.streak, total := satSucc 65535 e.total, lastFail := k }

/-- The state of a station after its streak has risen (R30). -/
def Station.judge (g : Settings) (e : Station) : Station :=
  if e.state = .excluded then e
  else if g.streakExclude ≤ e.streak then { e with state := .excluded }
  else if g.streakSuspect ≤ e.streak ∧ e.state = .enrolled then { e with state := .suspect }
  else e

/-- A station has taken a command (R29). -/
def Station.took (e : Station) : Station :=
  if e.state = .excluded then e else { e with streak := 0, state := .enrolled }

/-- What a change of state of a station brings (R30, R143, R158). -/
def stationMoved (addr : Nat) (before after : Station) (s : State) : State :=
  if before.state = after.state then s
  else
    match after.state with
    | .suspect => latch .stationSuspect s
    | .excluded => steerStationExcluded addr (gridStationExcluded addr (latch .stationExcluded s))
    | .enrolled => s

/-- A failed exchange of a station (R29, R30). -/
def stationFailed (addr : Nat) (k : FailKind) (s : State) : State :=
  match stationAt addr s with
  | none => s
  | some e =>
    let e' := (e.fail k).judge s.hli.force
    stationMoved addr e e' (updStation addr (fun _ => e') s)

/-- The outcome of an exchange applied to the directory (R29, R30). -/
def applyDirectory (x : SlotEx) (o : ExOutcome) (s : State) : State :=
  match failKindOf o with
  | some k => if k = .untaken ∧ x.tolerate then s else stationFailed x.addr k s
  | none =>
    match o with
    | .takenReady | .takenNotReady => updStation x.addr Station.took s
    | _ => s

/-- The outcome of an exchange counted; scan probes are not (R24, R33). -/
def countOutcome (x : SlotEx) (o : ExOutcome) (s : State) : State :=
  if x.claim = .scan then s
  else
    match o with
    | .noReply | .check => bump .exchFailed s
    | .untaken => if x.tolerate then s else bump .exchFailed s
    | .takenNotReady => bump .exchNotReady s
    | _ => s

/-! ### LOOP-SCAN (R32, R33) -/

/-- Kind code and revision of an identity word ("FMT: LOOP WORDS"). -/
def identityKind (d : Nat) : Nat := d / 4096 % 16

def identityRev (d : Nat) : Nat := d % 256

/-- The reply that ends a scan (R33; log 22). -/
def scanBytes (cause : Nat) (c : Scan) (s : State) : List Byte :=
  vEnum cause ++ vCount s.slc.dir.length ++ vMark c.full ++ vCount c.noRoom ++ vCount c.notEnrolled ++ vCount c.last

/-- The scan ends with its DONE reply. -/
def scanEnd (cause : Nat) (c : Scan) (s : State) : State :=
  deferredReplyOf .loopScan (.done (scanBytes cause c s)) { s with slc.scan := none }

/-- The scan, if one runs, with its counts changed. -/
def updScan (f : Scan → Scan) (s : State) : State := { s with slc.scan := s.slc.scan.map f }

/-- The effect of a probe by outcome (R32). -/
def probeEffect (addr : Nat) (h : Heard) (s : State) : State :=
  match h.outcome with
  | .takenReady =>
    match kindOfCode (identityKind h.data) with
    | some k =>
      if s.slc.dir.length < 32 then
        { s with slc.dir := s.slc.dir ++ [⟨addr, k, identityRev h.data, .enrolled, 0, 0, .none⟩] }
      else updScan (fun c => { c with full := true, noRoom := c.noRoom + 1 }) s
    | none => updScan (fun c => { c with notEnrolled := c.notEnrolled + 1 }) s
  | .untaken | .takenNotReady | .check => updScan (fun c => { c with notEnrolled := c.notEnrolled + 1 }) s
  | _ => s

/-- A probe completes; after address 47 the scan ends (R32, R33). -/
def scanProbe (addr : Nat) (h : Heard) (s : State) : State :=
  let s := probeEffect addr h s
  match s.slc.scan with
  | some c => if 47 ≤ addr then scanEnd 0 c s else s
  | none => s

/-- LOOP-SCAN, taken (R32). -/
def takeLoopScan (tag : Byte) (s : State) : State :=
  if s.dsc.gov ≠ .halted then refuse 0x0D tag .state .notHalted 0 s
  else if loopNotUp s then refuse 0x0D tag .state .loopNotUp (loopCode s.slc.loopState) s
  else if s.slc.queue ≠ [] then refuse 0x0D tag .state .loopBusy 0 s
  else if s.hli.deferred.isSome then refuse 0x0D tag .resource .deferBusy 0 s
  else takeSlot .loopScan tag { s with slc.dir := [], slc.scan := some ⟨1, false, 0, 0, 0⟩ }

/-! ### STATION-REINSTATE (R34, R35) -/

/-- STATION-REINSTATE, taken (R34). -/
def takeReinstate (tag addr : Byte) (s : State) : State :=
  let a := addr.toNat
  if a < 1 ∨ 47 < a then refuse 0x0F tag .range .field 1 s
  else
    match stationAt a s with
    | none => refuse 0x0F tag .state .notEnrolled a s
    | some e =>
      if e.state ≠ .excluded then refuse 0x0F tag .state .notExcluded a s
      else if loopNotUp s then refuse 0x0F tag .state .loopNotUp (loopCode s.slc.loopState) s
      else if s.hli.deferred.isSome then refuse 0x0F tag .resource .deferBusy 0 s
      else if 8 ≤ s.slc.queue.length then refuse 0x0F tag .resource .queueFull 0 s
      else
        takeSlot .reinstate tag
          { s with slc.queue := s.slc.queue ++ [⟨.reinstate, a, 7, .read, false, 0, none, false, 0, false⟩] }

/-- The directory effect of a probe that ended TAKEN_READY with the directory's kind (R35). -/
def reinstateStation (data : Nat) (e : Station) : Station :=
  { e with state := .enrolled, streak := 0, revision := identityRev data }

/-- The probe's kind equals the directory kind. -/
def probeKindMatches (addr : Nat) (data : Nat) (s : State) : Bool :=
  match stationAt addr s with
  | some e => kindOfCode (identityKind data) == some e.kind
  | none => false

/-- The directory effect of a REINSTATE probe (R35). -/
def probeDirectory (addr : Nat) (h : Heard) (s : State) : State :=
  if h.outcome = .takenReady ∧ probeKindMatches addr h.data s then updStation addr (reinstateStation h.data) s else s

/-- The reply of a REINSTATE probe (R35; log 22). -/
def reinstateBytes (addr : Nat) (h : Heard) (s : State) : List Byte :=
  match h.outcome with
  | .takenReady =>
    if probeKindMatches addr h.data s then vEnum 7 ++ vCount (identityRev h.data)
    else vEnum 8 ++ vEnum (identityKind h.data)
  | .takenNotReady => vEnum 9
  | o => vEnum (exOutcomeCode o)

/-- The probe's outcome reaches the request (R35). -/
def reinstateOutcome (addr : Nat) (h : Heard) (s : State) : State :=
  deferredReplyOf .reinstate (.done (reinstateBytes addr h s)) (probeDirectory addr h s)

/-! ### LOOP-EXCHANGE (R26, R37, R59) -/

/-- The first field of a LOOP-EXCHANGE out of range, numbered as the payload lays them out (R26; log 46). -/
def exchangeField (addr channel func size : Byte) : Option Nat :=
  if addr.toNat < 1 ∨ 47 < addr.toNat then some 1
  else if 7 < channel.toNat then some 2
  else if (funcOfCode func.toNat).isNone then some 3
  else if size.toNat ≠ 16 ∧ size.toNat ≠ 32 then some 4
  else none

/-- The item of a LOOP-EXCHANGE: a READ carries data zero, and size 16 uses the low two bytes (R23). -/
def exchangeItem (a ch : Nat) (f : Func) (size32 : Bool) (data : BitVec 32) : Item :=
  ⟨.loopExchange, a, ch, f, size32, if f = .read then 0 else if size32 then data.toNat else data.toNat % 65536, none,
    false, 0, false⟩

/-- A reserved channel of a station enrolled with that kind (R26). -/
def reservedAt (a ch : Nat) (s : State) : Bool :=
  match stationAt a s with
  | some e => reservedChannel e.kind ch
  | none => false

/-- LOOP-EXCHANGE, taken (R26, R59). -/
def takeLoopExchange (tag addr channel func size : Byte) (data : BitVec 32) (s : State) : State :=
  match exchangeField addr channel func size with
  | some n => refuse 0x0E tag .range .field n s
  | none =>
    let a := addr.toNat
    let ch := channel.toNat
    let f := (funcOfCode func.toNat).getD .read
    if ch = 7 ∧ f ≠ .read then refuse 0x0E tag .range .identityChannel a s
    else if reservedAt a ch s then refuse 0x0E tag .range .reservedChannel a s
    else if isExcluded a s then refuse 0x0E tag .state .stationExcluded a s
    else if (s.dsc.gov = .drive ∨ s.dsc.gov = .safeHold) ∧ f ≠ .read ∧ boundToOutput a s then
      refuse 0x0E tag .state .outputBound a s
    else if s.hli.deferred.isSome then refuse 0x0E tag .resource .deferBusy 0 s
    else if 8 ≤ s.slc.queue.length then refuse 0x0E tag .resource .queueFull 0 s
    else
      takeSlot .loopExchange tag
        { s with slc.queue := s.slc.queue ++ [exchangeItem a ch f (size.toNat == 32) data] }

/-- The reply of a LOOP-EXCHANGE (R37; log 22). With no reply that arrived sound, for which R37 gives data zero and no ready
mark, the mark's byte is sent as 0 (log 73). The data, to which R37 and R199 give no width, are four bytes at either size
(log 74). -/
def exchangeBytes (h : Heard) : List Byte := vEnum (exOutcomeCode h.outcome) ++ vMark h.ready ++ beBytes 4 h.data

/-! ### Claimants (R58) -/

/-- What an item's claimant is told. -/
def tellClaimant (it : Item) (h : Heard) (s : State) : State :=
  if it.discard then s
  else
    match it.claimant with
    | .gridCheck => gridOutcome h.outcome h.data s
    | .steerCheck => steerOutcome h.outcome s
    | .loopExchange => deferredReplyOf .loopExchange (.done (exchangeBytes h)) s
    | .reinstate => reinstateOutcome it.addr h s

/-- The head of the queue leaves it, and its claimant is told (R57, R58). -/
def finishHead (h : Heard) (s : State) : State :=
  match s.slc.queue with
  | [] => s
  | it :: _ => tellClaimant it h (popHead s)

/-- A PERSIST item makes another exchange (R57). -/
def itemRepeats (it : Item) (h : Heard) : Bool :=
  !it.discard && h.outcome == .takenNotReady &&
    (match it.retry with
     | some k => decide (it.used < k)
     | none => false)

/-- Waiting REINSTATE probes leave the queue at a loss of the loop (R34, R58). -/
def dropProbes (s : State) : State :=
  if s.slc.queue.any (·.claimant == .reinstate) then
    deferredReplyOf .reinstate (.done (vEnum (exOutcomeCode .loopDown)))
      (joinHeld { s with slc.queue := s.slc.queue.filter (·.claimant != .reinstate) })
  else s

/-! ### A streak that reaches its setting, as an event of its own (R30; log 3) -/

/-- The streak of a station rises by one and is compared with the settings in force; the event is that of a comparison that
takes the station to the state named, STREAK_EXCLUDE being compared ahead of STREAK_SUSPECT (R30; log 3). -/
def streakReaches (st : StationState) (addr : Nat) (s : State) : State :=
  match stationAt addr s with
  | none => s
  | some e =>
    let e' := Station.judge s.hli.force { e with streak := e.streak + 1 }
    if e.streak < 255 ∧ e.state ≠ st ∧ e'.state = st then stationMoved addr e e' (updStation addr (fun _ => e') s) else s

/-- A station's streak reaches STREAK_SUSPECT. -/
def becomeSuspect (addr : Nat) (s : State) : State := streakReaches .suspect addr s

/-- A station's streak reaches STREAK_EXCLUDE. -/
def becomeExcluded (addr : Nat) (s : State) : State := streakReaches .excluded addr s

end Sys2Proof.Machine
end

