-- ==== Sys2Proof/Machine/Passes.lean ====
section
/-! DEFINITION. The passes of a frame: due entries, skips, runs, budgets, the exchanges of the passes, the service queue and
direct service, their completions, and a loss of the loop (chapter 3; R22 to R25, R36). -/

namespace Sys2Proof.Machine

/-! ### Skips and results (R43, R47, R48) -/

/-- A valid entry of a function is due in frame `n` (R43). -/
def due (f : Func) (n : Nat) (e : AcqEntry) : Bool := e.valid && e.func == f && n % e.divisor == e.phase

/-- An item joins the delivery buffer (R47). -/
def deliver (i sig : Nat) (r : Result) (s : State) : State :=
  { s with slc.delivery := s.slc.delivery ++ [⟨i, sig, s.slc.frameNo, r⟩] }

/-- A MISSED item of a READ entry whose stored signal is an input (R47, R177). -/
def missed (i : Nat) (e : AcqEntry) (c : MissCause) (s : State) : State :=
  if e.func = .read ∧ isInput e.signal then deliver i e.signal (.missed c) s else s

/-- A due entry is skipped (R48, R49, R54, R55). -/
def skipEntry (i : Nat) (e : AcqEntry) (c : MissCause) (s : State) : State := bump .entriesSkipped (missed i e c s)

/-- Every address an entry can address is that of an EXCLUDED station (R48). -/
def allExcluded (e : AcqEntry) (s : State) : Bool := (entryAddrs e).all (isExcluded · s)

/-- The stored content of entry `i`. -/
def entryAt (i : Nat) (s : State) : AcqEntry := (s.slc.acq[i]?.map (·.val)).getD .empty

/-! ### Walking the table (R48, R51, R54) -/

/-- The walk over the given indices to the next entry that runs: it is put in `run` with the index after it in `passIdx`;
at the end of the table `run` is none (R48; log 14, log 31, log 35). An entry of an EXCLUDED station met with the budget
used up is skipped as EXCLUDED too (log 31). -/
def walk (f : Func) : List Nat → State → State
  | [], s => { s with slc.run := none, slc.passIdx := 64 }
  | i :: is, s =>
    let (e, s) := readAcq i s
    if due f s.slc.frameNo e then
      if e.corrupt then walk f is (skipEntry i e .corrupt s)
      else if s.slc.loopLost then walk f is (skipEntry i e .loopDown s)
      else if allExcluded e s then walk f is (skipEntry i e .excluded s)
      else { s with slc.run := some ⟨i, e, false, 0, 0, none⟩, slc.passIdx := i + 1 }
    else walk f is s

/-- Skip every due entry among the given indices with a cause; a CORRUPT one with cause CORRUPT (R49, R55; log 31). -/
def skipAll (f : Func) (c : MissCause) : List Nat → State → State
  | [], s => { s with slc.run := none, slc.passIdx := 64 }
  | i :: is, s =>
    let (e, s) := readAcq i s
    if due f s.slc.frameNo e then skipAll f c is (skipEntry i e (if e.corrupt then .corrupt else c) s)
    else skipAll f c is s

/-- The indices from `i` to 63. -/
def indicesFrom (i : Nat) : List Nat := List.range' i (64 - i)

/-- The service pass begins: it ends at once with the loop lost, no budget or an empty queue (R54, R57). -/
def beginService (s : State) : State :=
  let ended := s.slc.loopLost || s.hli.force.serviceBudget == 0 || s.slc.queue.isEmpty
  { s with slc.phase := if ended then .done else .service, slc.slots := 0 }

/-- A pass that has no run left ends (R48, R51). -/
def endIfOver (s : State) : State :=
  if s.slc.run.isSome then s
  else
    match s.slc.phase with
    | .acq => { s with slc.phase := .acqEnded }
    | .dispatch => beginService s
    | _ => s

/-- The function of the entries of the pass that runs. -/
def passFunc (s : State) : Func := if s.slc.phase = .dispatch then .write else .read

/-- The next due entry of the pass that runs, or its end. -/
def advance (s : State) : State := endIfOver (walk (passFunc s) (indicesFrom s.slc.passIdx) s)

/-- The acquisition pass of a frame begins (R48). -/
def beginAcq (s : State) : State :=
  advance { s with slc.phase := .acq, slc.slots := 0, slc.passIdx := 0, slc.run := none }

/-- The dispatch pass begins (R51). -/
def beginDispatch (s : State) : State :=
  advance { s with slc.phase := .dispatch, slc.slots := 0, slc.passIdx := 0, slc.run := none }

/-! ### Budgets (R49, R51) -/

/-- The budget of the pass that runs. -/
def passBudget (s : State) : Nat :=
  if s.slc.phase = .dispatch then s.hli.force.dispatchBudget else s.hli.force.acqBudget

/-- An entry of the acquisition or dispatch pass has not ended, no exchange of it is in its slot, and the budget is used
up (R49). -/
def budgetUsedUp (s : State) : Bool :=
  (s.slc.phase == .acq || s.slc.phase == .dispatch) && s.slc.run.isSome && s.slc.slot.isNone
    && decide (passBudget s ≤ s.slc.slots)

/-- A run whose entry has been marked CORRUPT since the pass read it: not begun, the entry is skipped by its stored fields
when these are due; begun, the run ends MISSED with cause CORRUPT (R48, R51, R177; log 31). -/
def runCorrupt (r : Run) (s : State) : State :=
  let e := entryAt r.entry s
  if r.begun then missed r.entry r.e .corrupt s
  else if due (passFunc s) s.slc.frameNo e then skipEntry r.entry e .corrupt s
  else s

/-- A run not yet begun whose entry has been marked CORRUPT since gives way to the next due entry (R177; log 31). -/
def passCorrupt (s : State) : State :=
  match s.slc.run with
  | none => s
  | some r => if !r.begun && (entryAt r.entry s).corrupt then advance (runCorrupt r s) else s

/-- The pass ends at budget exhaustion, when a due entry that is not CORRUPT has not ended (R49, R51; log 31). -/
def budgetEnd (s : State) : State :=
  let s := passCorrupt s
  match s.slc.run with
  | none => s
  | some r =>
    let s := skipEntry r.entry r.e .budget s
    let s := skipAll (passFunc s) .budget (indicesFrom s.slc.passIdx) s
    endIfOver (latch .passOverrun { s with hli.firstSkipped := s.hli.firstSkipped <|> some r.entry })

/-! ### Beginning an exchange (R25, R45, R46, R51, R53) -/

/-- The dispatch clamp (R53): ids 40 and 41 are torques, 42 and 43 mode words. -/
def clampDispatch (gov : Gov) (sig : Nat) (v : Int) : Int :=
  if sig = 40 ∨ sig = 41 then
    match gov with
    | .drive => v
    | .safeHold => if 0 < v then 0 else v
    | _ => 0
  else if sig = 42 ∨ sig = 43 then
    match gov with
    | .drive => v
    | .safeHold => if v % 4 = 1 then v - 1 else v
    | _ => v - v % 4
  else v

/-- The next address of a run whose station is not EXCLUDED, as an offset from the entry's address (R45, R46). -/
def nextOffset (e : AcqEntry) (from' : Nat) (s : State) : Option Nat :=
  if e.settle = .span then
    (List.range' from' (e.span - from')).find? (fun k => !isExcluded (e.addr + k) s)
  else if isExcluded e.addr s then none else some 0

/-- The exchange of a run goes into its slot (R23); of a PERSIST run every exchange after the first is a repeat (R45). -/
def putExchange (r : Run) (off : Nat) (claim : Claim) (data : Nat) (s : State) : State :=
  { s with
    slc.slot := some ⟨claim, r.e.addr + off, r.e.channel, r.e.func, r.e.size32, data, r.e.tolerate, false⟩
    slc.slots := s.slc.slots + 1
    slc.run := some { r with
      begun := true, offset := off, used := if r.begun ∧ r.e.settle = .persist then r.used + 1 else r.used } }

/-- An exchange of the acquisition pass begins. -/
def startRead (r : Run) (off : Nat) (s : State) : State := putExchange r off (.acq r.entry) 0 s

/-- An exchange of the dispatch pass begins with the posted value, clamped, and counted when stale (R51, R53). -/
def startWrite (r : Run) (off : Nat) (s : State) : State :=
  let p := s.out.get r.e.signal
  let v := clampDispatch s.dsc.gov r.e.signal p.value
  let s := putExchange r off (.dispatch r.entry) (dataOf r.e.size32 v) s
  if p.frame = some s.slc.frameNo then s else latch .staleDispatch (bump .staleDispatches s)

/-- A run that finds its addresses EXCLUDED (R45, R46, R48). -/
def runExcluded (r : Run) (s : State) : State :=
  if r.begun then missed r.entry r.e (r.last.getD .excluded) s else skipEntry r.entry r.e .excluded s

/-- The next exchange of the acquisition or dispatch pass, if one can begin in this slot (R25, R48, R49, R51). -/
def startPass : Nat → State → State
  | 0, s => s
  | fuel + 1, s =>
    match s.slc.run with
    | none => s
    | some r =>
      if budgetUsedUp s then budgetEnd s
      else if (entryAt r.entry s).corrupt then startPass fuel (advance (runCorrupt r s))
      else
        match nextOffset r.e r.offset s with
        | some off => if s.slc.phase = .dispatch then startWrite r off s else startRead r off s
        | none => startPass fuel (advance (runExcluded r s))

/-! ### The service queue and direct service (R36, R57) -/

/-- The head's exchange goes into its slot, a repeat when it is not the item's first; the isolate ACT sets the isolation
mark (R56, R57, R155). -/
def putHead (it : Item) (its : List Item) (s : State) : State :=
  { s with
    slc.queue := { it with started := true, used := if it.started then it.used + 1 else it.used } :: its
    slc.slot := some ⟨.service, it.addr, it.channel, it.func, it.size32, it.data, false, false⟩
    slc.slots := s.slc.slots + 1
    sgv.isolation := s.sgv.isolation || (it.claimant == .steerCheck && it.data == 1) }

/-- An item's station bars its exchange: only a REINSTATE probe begins while it is EXCLUDED (R25, R57). -/
def itemBarred (it : Item) (s : State) : Bool := it.claimant != .reinstate && isExcluded it.addr s

/-- Serve the head: items of EXCLUDED stations leave without a slot, the first other begins (R57). -/
def serveHead : Nat → State → State
  | 0, s => s
  | fuel + 1, s =>
    match s.slc.queue with
    | [] => s
    | it :: its => if itemBarred it s then serveHead fuel (finishHead (.bare .excluded) s) else putHead it its s

/-- The next probe of a scan (R32). -/
def startProbe (c : Scan) (s : State) : State :=
  { s with
    slc.slot := some ⟨.scan, c.next, 7, .read, false, 0, false, false⟩
    slc.scan := some { c with next := c.next + 1, last := c.next } }

/-- The next exchange of the service pass. -/
def startService (s : State) : State :=
  if s.slc.phase = .service ∧ s.slc.slot.isNone then endService (serveHead 32 s) else s

/-- A slot start: the next exchange of a scan, of direct service in HALTED, or of the pass that runs (R23, R25, R36). -/
def exchangeStart (s : State) : State :=
  if s.slc.slot.isSome ∨ s.slc.loopState ≠ .up then s
  else if s.dsc.gov = .halted then
    match s.slc.scan with
    | some c => startProbe c s
    | none => serveHead 32 s
  else
    match s.slc.phase with
    | .acq => startPass 65 s
    | .dispatch => startService (startPass 65 s)
    | .service => startService s
    | _ => s

/-! ### Completing an exchange (R24, R44 to R46, R57) -/

/-- The cause of a run that ends MISSED with an outcome (R44). -/
def missCause : ExOutcome → MissCause
  | .untaken => .untaken
  | .noReply => .noReply
  | .check => .check
  | .loopDown => .loopDown
  | .excluded => .excluded
  | _ => .notReady

/-- What a READ run does after an exchange (R44 to R46): ends with a result, or goes on with the run given. -/
def readResult (r : Run) (h : Heard) : Result ⊕ Run :=
  let e := r.e
  let v := Result.delivered (deliveredValue e.signal e.size32 h.data)
  let c := missCause h.outcome
  if h.outcome = .takenReady then .inl v
  else if h.outcome = .loopDown then .inl (.missed c)
  else
    match e.settle with
    | .strict => .inl (.missed c)
    | .lenient => .inl (if h.outcome = .takenNotReady then v else .missed c)
    | .persist =>
      if h.outcome = .takenNotReady ∧ r.used < e.retry then .inr r else .inl (.missed c)
    | .span => if r.offset + 1 < e.span then .inr { r with offset := r.offset + 1, last := some c } else .inl (.missed c)

/-- A run of the acquisition pass ends with a result (R47). -/
def endRun (i : Nat) (e : AcqEntry) (x : Result) (s : State) : State :=
  match x with
  | .delivered v => deliver i e.signal (.delivered v) s
  | .missed c => missed i e c s

/-- An exchange of the acquisition pass has completed. -/
def acqOutcome (i : Nat) (h : Heard) (s : State) : State :=
  match s.slc.run with
  | none => s
  | some r =>
    if r.entry = i then
      match readResult r h with
      | .inl x => advance (endRun i r.e x s)
      | .inr r' =>
        if (nextOffset r.e r'.offset s).isSome then { s with slc.run := some r' }
        else advance (missed i r.e (r'.last.getD .excluded) s)
    else s

/-- An exchange of the dispatch pass has completed: SENT or MISSED, and not repeated (R44, R51). -/
def dispatchOutcome (i : Nat) (s : State) : State :=
  match s.slc.run with
  | none => s
  | some r => if r.entry = i then advance s else s

/-- An exchange of the head of the service queue has completed (R57, R58). -/
def serviceOutcome (h : Heard) (s : State) : State :=
  match s.slc.queue with
  | [] => s
  | it :: _ => endService (if itemRepeats it h then s else finishHead h s)

/-- The outcome goes to whoever the exchange was for (R24). -/
def claimOutcome (x : SlotEx) (h : Heard) (s : State) : State :=
  match x.claim with
  | .acq i => acqOutcome i h s
  | .dispatch i => dispatchOutcome i s
  | .service => serviceOutcome h s
  | .scan => scanProbe x.addr h s
  | .probe => probeDirectory x.addr h s
  | .orphan => s

/-- After a governor reset the directory takes its governor-reset values once the exchange has been applied (R38). -/
def settleReset (x : SlotEx) (s : State) : State :=
  if x.afterReset then { s with slc.dir := s.slc.dir.map (·.governorReset) } else s

/-- The completion of the exchange in its slot: directory, counts, claimant (R24, R29). -/
def complete (h : Heard) (s : State) : State :=
  match s.slc.slot with
  | none => s
  | some x =>
    let s := countOutcome x h.outcome (applyDirectory x h.outcome s)
    settleReset x (claimOutcome x h { s with slc.slot := none })

/-- A reply completes the exchange, if the words that returned hold one (R24, R200). -/
def exchangeComplete (ws : List RxWord) (s : State) : State :=
  match s.slc.slot with
  | none => s
  | some x =>
    match heardReply x ws with
    | none => s
    | some h => complete h s

/-- The slot ends with no complete reply (R23, R24). -/
def slotTimeout (s : State) : State := complete (.bare .noReply) s

/-- The exchange in its slot is the last a PERSIST run is allowed (R45, R57). -/
def lastAllowed (s : State) : Bool :=
  match s.slc.slot with
  | some ⟨.acq i, _, _, _, _, _, _, _⟩ =>
    s.slc.run.any (fun r => r.entry == i && r.e.settle == .persist && decide (r.e.retry ≤ r.used))
  | some ⟨.service, _, _, _, _, _, _, _⟩ => s.slc.queue.head?.any (fun it => it.retry.any (fun k => decide (k ≤ it.used)))
  | _ => false

/-- The last allowed exchange of a PERSIST run ends not ready (R45; log 3). -/
def persistExhausted (s : State) : State := if lastAllowed s then complete (.bare .takenNotReady) s else s

/-! ### A loss of the loop (R22, R33, R34, R54, R143, R158; log 10) -/

/-- The exchange in its slot ends LOOP_DOWN and its claimant is told. -/
def loopDownSlot (s : State) : State :=
  match s.slc.slot with
  | none => s
  | some x =>
    let t := { s with slc.slot := none }
    settleReset x
      (match x.claim with
        | .acq i =>
          match s.slc.run with
          | some r => missed i r.e .loopDown { t with slc.run := none }
          | none => t
        | .dispatch _ => { t with slc.run := none }
        | .service => finishHead (.bare .loopDown) t
        | _ => t)

/-- A run between two exchanges ends MISSED with cause LOOP_DOWN; one not yet begun is skipped, as CORRUPT when its entry has
been marked so since the pass read it (R54, R177; log 31). -/
def loopDownRun (s : State) : State :=
  match s.slc.run with
  | none => s
  | some r =>
    let s := { s with slc.run := none }
    if r.begun then missed r.entry r.e .loopDown s
    else if (entryAt r.entry s).corrupt then runCorrupt r s
    else skipEntry r.entry r.e .loopDown s

/-- The passes of the frame: the remaining due entries are skipped (R54). -/
def loopDownPasses (s : State) : State :=
  if s.slc.phase = .idle then s
  else
    let s := { s with slc.loopLost := true }
    match s.slc.phase with
    | .acq | .dispatch => advance (loopDownRun s)
    | .service => { s with slc.phase := .done }
    | _ => s

/-- A scan ends with cause LOOP_DOWN (R33). -/
def loopDownScan (s : State) : State :=
  match s.slc.scan with
  | some c => scanEnd 1 c s
  | none => s

/-- The loop leaves UP. The steering supply check is aborted, in any phase, ahead of the end of the exchange in its slot, so
that a release there ends with the abort's outcome pending (R158, R159; log 10). -/
def loopLoss (s : State) : State :=
  let s := steerAbort .loopDown (latch .loopWasDown (setLoop .down s))
  let s := loopDownScan (dropProbes (loopDownSlot s))
  gridAbort .loopDown (loopDownPasses s)

/-- No word edge on LOOP_IN for 4 word times (R21, R22). -/
def edgeTimeout (s : State) : State :=
  match s.slc.loopState with
  | .down => s
  | .syncing => setLoop .down s
  | .up => loopLoss s

/-! ### The frame start (R31, R39, R55) -/

/-- The SLC's condition posting for the frame that ends (R31). -/
def slcPosting (s : State) : SlcPosting where
  loop := s.slc.loopState
  wasDown := s.slc.loopLost
  stations := s.slc.dir.map (fun e => (e.addr, e.kind, e.state))
  nSuspect := s.slc.dir.countP (·.state == .suspect)
  nExcluded := s.slc.dir.countP (·.state == .excluded)

/-- The due WRITE entries of the unfinished frame that have not begun, as indices: those of a dispatch pass under way from
its next entry on, else the whole table (R55; log 9). -/
def unbegunWrites (s : State) : List Nat :=
  match s.slc.phase with
  | .dispatch =>
    match s.slc.run with
    | some r => if r.begun then indicesFrom s.slc.passIdx else indicesFrom r.entry
    | none => []
  | .acq | .acqEnded | .published => indicesFrom 0
  | _ => []

/-- The passes of the frame that ends (R55). -/
def endPasses (s : State) : State :=
  if s.slc.phase = .idle ∨ s.slc.phase = .done then s
  else
    let s := skipAll .write .overrun (unbegunWrites s) s
    latch .frameOverrun (bump .frameOverruns { s with slc.slot := s.slc.slot.map orphanPass })

/-- A frame start (R39; log 26). -/
def frameStart (s : State) : State :=
  if s.slc.frameTimer then
    let s := endPasses s
    let s := if s.slc.firstFrame then s else recordFrame { s with slc.posting := some (slcPosting s) }
    beginAcq
      { s with
        slc.frameNo := (s.slc.frameNo + 1) % 2 ^ 48, slc.firstFrame := false, slc.delivery := []
        slc.loopLost := s.slc.loopState != .up, slc.markReached := false }
  else s

/-- The budget of the pass is used up (R49). -/
def budgetExhaustion (s : State) : State := if budgetUsedUp s then budgetEnd s else s

/-- The dispatch mark passes: the dispatch pass begins if acquisition has ended (R51). -/
def dispatchMark (s : State) : State :=
  if s.slc.phase = .idle ∨ s.slc.markReached then s
  else if s.slc.phase = .published then beginDispatch { s with slc.markReached := true }
  else { s with slc.markReached := true }

/-- A held item joins the queue (R56). -/
def heldItemJoin (s : State) : State := joinHeld s

end Sys2Proof.Machine
end

