-- ==== Sys2Proof/Machine/Publication.lean ====
section
/-! DEFINITION. The publication event of a frame (R50): settings come into force, the image is screened and published, the
IMN posts, and the governing blocks compute (chapters 3 to 7, 9, 11). -/

namespace Sys2Proof.Machine

/-- The lowest index of an entry with a CORRUPT mark. -/
def lowestCorrupt (marks : List Bool) : Option Nat :=
  let i := marks.findIdx id
  if i < marks.length then some i else none

/-- The IMN posting (R177). -/
def postImn (s : State) : State :=
  { s with imn.posting := some (lowestCorrupt (s.slc.acq.map (·.val.corrupt)),
                                lowestCorrupt (s.sgs.screen.map (·.val.corrupt))) }

/-- The governing blocks compute from image N: each reads the governing state, the demand record and the EPU posting as
they stand at the publication event (R14, R80, R104, R120, R148; log 7). -/
def computeBlocks (old : List ImageEntry) (oldVspd : Quality) (s : State) : State :=
  let gov := s.dsc.gov
  let d := s.dsc.demand
  let p := s.epu.posting
  let imn := s.imn.posting
  let s := evaluateEpu old oldVspd imn (postImn s)
  computeSgv gov d.steer p.env.steerRate (computeRgv gov d p (computeTal gov d p s))

/-- Publication: the settings stored come into force (log 29), image N is published, the blocks compute, and the dispatch
pass begins if the mark has passed (R50, R51, R192). -/
def publish (s : State) : State :=
  let s := { s with hli.force := s.hli.stored }
  let oldVspd := s.sgs.vspd.quality
  let (old, s) := readImages inputIds s
  let s := computeBlocks old oldVspd (publishImage old s)
  if s.slc.markReached then beginDispatch s else { s with slc.phase := .published }

/-- The publication event, once the acquisition pass has ended; a pass whose budget is used up ends first (R49, R50). -/
def publication (s : State) : State :=
  let s := if s.slc.phase = .acq then budgetExhaustion s else s
  if s.slc.phase = .acqEnded then publish s else s

/-- A producer posts its outputs (R50). -/
def outputPosting (p : Producer) (s : State) : State :=
  match p with
  | .tal => postTal s
  | .rgv => postRgv s
  | .sgv => postSgv s

end Sys2Proof.Machine
end

