-- ==== Sys2Proof/Machine/Hli.lean ====
section
/-! DEFINITION. The Host Link Interface's own requests: STATUS-QUERY, settings, the table cursor and transfers, flags,
counters, PROC-RESULT and the integrity requests (chapters 11 and 12; R42, R68). -/

namespace Sys2Proof.Machine

/-! ### STATUS-QUERY (R189) -/

/-- The values STATUS-QUERY adds to those of the blocks. -/
def hliStatusBytes (s : State) : List Byte :=
  vFrame s.slc.frameNo ++ vEnum (loopCode s.slc.loopState) ++ vEnum (recStateCode s.trc.st)
    ++ vMark s.hli.deferred.isSome ++ [(s.hli.deferred.map (·.kind.code)).getD 0]
    ++ vCount s.hli.rx.length ++ vCount s.hli.tx.length ++ vMark (s.hli.flags != 0)

/-- STATUS-QUERY, taken (R189; log 22). -/
def takeStatusQuery (tag : Byte) (s : State) : State :=
  done 0x01 tag
    (dscStatusBytes s ++ talStatusBytes s ++ rgvStatusBytes s ++ epuStatusBytes s ++ sgvStatusBytes s
      ++ hliStatusBytes s) s

/-! ### Settings (R192) -/

/-- The first check of a SETTING-WRITE that fails (R192): `g` is the stored settings with the new value
in place; STREAK_EXCLUDE is held against the stored STREAK_SUSPECT and the other way about (log 67). -/
def settingFailure (id : Nat) (v : Int) (g : Settings) (s : State) : Option (RClass × Detail) :=
  if id < 1 ∨ 34 < id then some (.range, .setting)
  else if !settingInRange id v then some (.range, .value)
  else if id ≤ 5 ∧ s.dsc.gov ≠ .halted then some (.state, .notHalted)
  else if (29 ≤ id ∧ id ≤ 32) ∧ s.trc.st ≠ .idle then some (.state, .notIdle)
  else if id ≤ 2 ∧ 10 * g.framePeriod < g.dispatchMark + 5 then some (.range, .markPeriod)
  else if (3 ≤ id ∧ id ≤ 5) ∧ 64 < g.acqBudget + g.dispatchBudget + g.serviceBudget then some (.range, .budgetSum)
  else if (id = 8 ∨ id = 9) ∧ g.streakExclude ≤ g.streakSuspect then some (.range, .streakOrder)
  else none

/-- SETTING-WRITE, taken (R40, R192; log 29). -/
def takeSettingWrite (tag id : Byte) (value : BitVec 32) (s : State) : State :=
  let n := id.toNat
  let v := value.toInt
  let g := s.hli.stored.set v.toNat n
  match settingFailure n v g s with
  | some (c, d) => refuse 0x04 tag c d n s
  | none =>
    done 0x04 tag []
      { s with
        hli.stored := g
        hli.force := if s.dsc.gov = .halted then s.hli.force.set v.toNat n else s.hli.force }

/-- SETTING-READ, taken (R192). -/
def takeSettingRead (tag id : Byte) (s : State) : State :=
  let n := id.toNat
  if n < 1 ∨ 34 < n then refuse 0x05 tag .range .setting n s else done 0x05 tag (vQuant (s.hli.stored.get n)) s

/-! ### The table cursor (R190) -/

/-- TABLE-CURSOR, taken (R190). -/
def takeTableCursor (tag table : Byte) (index : BitVec 16) (mode : Byte) (s : State) : State :=
  if table.toNat < 1 ∨ 7 < table.toNat then refuse 0x06 tag .range .field 1 s
  else if tableSize table.toNat ≤ index.toNat then refuse 0x06 tag .range .field 2 s
  else
    match cursorModeOfCode mode.toNat with
    | none => refuse 0x06 tag .range .field 3 s
    | some m => done 0x06 tag [] { s with hli.cursor := ⟨table.toNat, index.toNat, m⟩ }

/-- The cursor after a transfer of `n` entries (R191). -/
def Cursor.moved (c : Cursor) (n : Nat) (moves : Bool) : Cursor :=
  if moves then { c with index := min (c.index + n) (tableSize c.table - 1) } else c

/-! ### Table writes (R42, R68, R162) -/

/-- The first check that an acquisition entry written valid fails (R42). -/
def acqEntryFailure (e : AcqEntry) : Option Detail :=
  if e.addr < 1 ∨ 47 < e.addr then some .field
  else if !(if e.func = .read then isInput e.signal else isOutput e.signal) then some .signalClass
  else if e.divisor ≤ e.phase then some .field
  else if (e.settle = .span ∨ e.settle = .persist) ∧ e.func ≠ .read then some .settle
  else if 1 < e.span ∧ e.settle ≠ .span then some .settle
  else if 47 < e.addr + e.span - 1 then some .field
  else none

/-- The first entry of a request that fails its checks, with its table index; `i` is the index of the first. -/
def firstFailure (check : α → Option Detail) : Nat → List α → Option (Detail × Nat)
  | _, [] => none
  | i, e :: es =>
    match check e with
    | some d => some (d, i)
    | none => firstFailure check (i + 1) es

/-- Two valid entries of one function with one signal (R42). -/
def acqClashes (a b : AcqEntry) : Bool := a.valid && b.valid && a.func == b.func && a.signal == b.signal

/-- The first index whose entry clashes with an earlier one (R42; log 47). -/
def duplicateIndex (t : List AcqEntry) : Option Nat :=
  (List.range t.length).find? (fun i => (t.take i).any (acqClashes · (t.getD i .empty)))

/-- An entry as stored: written not valid, all its other fields are zero (R42). -/
def acqStored (e : AcqEntry) : AcqEntry := if e.valid then e else .empty

/-- A TABLE-WRITE of table 1 from index `i` (R42, R181). -/
def writeAcq (i : Nat) (es : List AcqEntry) (s : State) : Except (RClass × Detail × Nat) State :=
  if s.dsc.gov ≠ .halted then .error (.state, .notHalted, 0)
  else
    match firstFailure (fun e => if e.valid then acqEntryFailure e else none) i es with
    | some (d, n) => .error (.range, d, n)
    | none =>
      let es := es.map acqStored
      match duplicateIndex (splice (s.slc.acq.map (·.val)) i es) with
      | some n => .error (.range, .duplicateSignal, n)
      | none =>
        let (fs, s) := takeInjection .acq s
        .ok { s with slc.acq := splice s.slc.acq i (es.mapIdx (fun k e => ⟨e, if k = 0 then fs else []⟩)) }

/-- The first check that a screening entry written valid fails (R68; log 32). -/
def screenEntryFailure (e : ScreenEntry) : Option Detail :=
  let wants := e.test == .agree || e.action == .subst
  if !isInput e.signal then some .signalClass
  else if e.test = .unknown ∨ e.action = .unknown ∨ (e.test = .range ∧ e.high < e.low) then some .field
  else if (e.partner != 0) != wants then some .partner
  else if wants ∧ (!isInput e.partner ∨ e.partner = e.signal) then some .partner
  else none

/-- A screening entry as stored: fields its test does not use are zero (R67, R68). -/
def screenStored (e : ScreenEntry) : ScreenEntry :=
  if e.valid then { e with high := if e.test = .range then e.high else 0 } else .empty

/-- A TABLE-WRITE of table 2 from index `i`: one entry in every state, more in HALTED (R68, R181). -/
def writeScreen (i : Nat) (es : List ScreenEntry) (s : State) : Except (RClass × Detail × Nat) State :=
  if 1 < es.length ∧ s.dsc.gov ≠ .halted then .error (.state, .notHalted, 0)
  else
    match firstFailure (fun e => if e.valid then screenEntryFailure e else none) i es with
    | some (d, n) => .error (.range, d, n)
    | none =>
      let (fs, s) := takeInjection .screen s
      .ok { s with sgs.screen :=
              splice s.sgs.screen i (es.mapIdx (fun k e => ⟨screenStored e, if k = 0 then fs else []⟩)) }

/-- A write of the cursor's table by its owner. -/
def writeTable (table i : Nat) (es : List (List Byte)) (s : State) : Except (RClass × Detail × Nat) State :=
  match table with
  | 1 => writeAcq i (es.map decodeAcq) s
  | 2 => writeScreen i (es.map decodeScreen) s
  | _ => writeRecset i (es.map decodeRecset) s

/-- TABLE-WRITE, taken (R191, R198). -/
def takeTableWrite (tag : Byte) (data : List Byte) (s : State) : State :=
  let c := s.hli.cursor
  let sz := entrySize c.table
  let n := data.length / sz
  if data.length % sz ≠ 0 ∨ n = 0 then refuse 0x07 tag .format .length 0x07 s
  else if 3 < c.table then refuse 0x07 tag .format .readOnly c.table s
  else if tableSize c.table < c.index + n then refuse 0x07 tag .range .pastEnd c.index s
  else
    match writeTable c.table c.index (chunks sz n data) s with
    | .error (cls, d, q) => refuse 0x07 tag cls d q s
    | .ok s => done 0x07 tag [] { s with hli.cursor := c.moved n (c.mode != .none) }

/-! ### Table reads (R191) -/

/-- An entry of a table as stored; tables 1 and 2 are read through the IMN (R27, R89, R91, R145, R175). -/
def readEntry (table i : Nat) (s : State) : List Byte × State :=
  match table with
  | 1 => let (e, s) := readAcq i s; (encodeAcq e, s)
  | 2 => let (e, s) := readScreen i s; (encodeScreen e, s)
  | 3 => (encodeRecset (s.trc.recset.getD i none), s)
  | 4 => (encodeStation s.slc.dir[i]?, s)
  | 5 => (encodeDerate s.epu.derates[i]?, s)
  | 6 => (encodeTrip s.epu.trips[i]?, s)
  | _ => (gridTableEntry i s, s)

/-- Entries at the given indices, in order. -/
def readEntries (table : Nat) : List Nat → State → List (List Byte) × State
  | [], s => ([], s)
  | i :: is, s =>
    let (e, s) := readEntry table i s
    let (es, s) := readEntries table is s
    (e :: es, s)

/-- TABLE-READ, taken (R191, R198; log 22). -/
def takeTableRead (tag count : Byte) (s : State) : State :=
  let c := s.hli.cursor
  let n := count.toNat
  if n = 0 then refuse 0x08 tag .format .length 0x08 s
  else if tableSize c.table < c.index + n then refuse 0x08 tag .range .pastEnd c.index s
  else
    let (es, s) := readEntries c.table (List.range' c.index n) s
    done 0x08 tag (vList id es) { s with hli.cursor := c.moved n (c.mode == .onReadAndWrite) }

/-! ### Flags and counters (R193, R194) -/

/-- FLAGS-READ, taken: flags and first-skipped index returned and cleared; present conditions set theirs again (R49,
R193). -/
def takeFlagsRead (tag : Byte) (s : State) : State :=
  done 0x0A tag (beBytes 2 s.hli.flags.toNat ++ beBytes 1 (s.hli.firstSkipped.getD 255))
    { s with hli.flags := conditionFlags s, hli.firstSkipped := none }

/-- The ten counters as COUNTS-READ returns them (R194). -/
def countersBytes (c : Counters) : List Byte :=
  vCounter c.exchFailed ++ vCounter c.exchNotReady ++ vCounter c.entriesSkipped ++ vCounter c.frameOverruns
    ++ vCounter c.staleDispatches ++ vCounter c.screenRejects ++ vCounter c.hostFramesBad ++ vCounter c.hostRxDropped
    ++ vCounter c.noticesDropped ++ vCounter c.recLost

/-- COUNTS-READ, taken (R194). -/
def takeCountsRead (tag : Byte) (s : State) : State :=
  done 0x0B tag (countersBytes s.hli.counters) { s with hli.counters := .zero }

/-! ### PROC-RESULT (R146, R160) -/

/-- PROC-RESULT, taken. -/
def takeProcResult (tag proc : Byte) (s : State) : State :=
  if proc = 1#8 then done 0x13 tag (gridResultBytes s) s
  else if proc = 2#8 then done 0x13 tag (steerResultBytes s) s
  else refuse 0x13 tag .range .field 1 s

/-! ### Integrity (R179, R180) -/

/-- The results of INTEGRITY-READ (R179; log 22). -/
def guardBytes (mode : Nat) (g : MemGuard) : List Byte :=
  vCount g.corrected ++ vCount g.uncorrectable ++ vOpt vCount 0 g.capCorrected ++ vOpt vCount 0 g.capUncorrectable
    ++ vEnum mode ++ vEnum (injectCode g.inject)

/-- Counts and captures cleared as the flags of INTEGRITY-READ say (R179). -/
def MemGuard.cleared (g : MemGuard) (c u : Bool) : MemGuard :=
  { g with
    corrected := if c then 0 else g.corrected, capCorrected := if c then none else g.capCorrected
    uncorrectable := if u then 0 else g.uncorrectable, capUncorrectable := if u then none else g.capUncorrectable }

/-- INTEGRITY-READ, taken (R179). -/
def takeIntegrityRead (tag mem flags : Byte) (s : State) : State :=
  match memOfCode mem.toNat with
  | none => refuse 0x19 tag .range .field 1 s
  | some m =>
    done 0x19 tag (guardBytes s.hli.force.integCapture (s.imn.guard m))
      (updGuard m (fun g => g.cleared (flags.getLsbD 0) (flags.getLsbD 1)) s)

/-- INTEGRITY-INJECT, taken (R180). -/
def takeIntegrityInject (tag mem kind : Byte) (s : State) : State :=
  match memOfCode mem.toNat with
  | none => refuse 0x1A tag .range .field 1 s
  | some m =>
    match injectOfCode kind.toNat with
    | none => refuse 0x1A tag .range .field 2 s
    | some k =>
      if s.dsc.gov ≠ .halted ∧ s.dsc.gov ≠ .standby then refuse 0x1A tag .state .governing (govCode s.dsc.gov) s
      else done 0x1A tag [] (updGuard m ({ · with inject := k }) s)

end Sys2Proof.Machine
end

