-- ==== Sys2Proof/Machine/Requests.lean ====
section
/-! DEFINITION. Host link frames as requests: the frame of each host request, the request in a frame, the receive queue and
the order in which requests are taken, the receiver, and messages sent (R183 to R185, R195 to R198). -/

namespace Sys2Proof.Machine

/-! ### Frames and requests (R196 to R198, "FMT: CENTRAL REQUEST PAYLOADS") -/

/-- The bytes of a 16-bit field. -/
def be2 (x : BitVec 16) : List Byte := [(x >>> 8).setWidth 8, x.setWidth 8]

/-- The bytes of a 32-bit field. -/
def be4 (x : BitVec 32) : List Byte :=
  [(x >>> 24).setWidth 8, (x >>> 16).setWidth 8, (x >>> 8).setWidth 8, x.setWidth 8]

/-- A 16-bit field from its bytes. -/
def of2 (a b : Byte) : BitVec 16 := a ++ b

/-- A 32-bit field from its bytes. -/
def of4 (a b c d : Byte) : BitVec 32 := a ++ b ++ c ++ d

/-- The frame of a host request; other commands have none. -/
def frameOf : Instr → Option Frame
  | .statusQuery tag => some ⟨0x01, tag, []⟩
  | .modeRequest tag target => some ⟨0x02, tag, [target]⟩
  | .demand tag dir propel retard hold steer brake =>
    some ⟨0x03, tag, dir :: (be2 propel ++ be2 retard ++ be2 hold ++ be2 steer ++ [brake])⟩
  | .settingWrite tag id value => some ⟨0x04, tag, id :: be4 value⟩
  | .settingRead tag id => some ⟨0x05, tag, [id]⟩
  | .tableCursor tag table index mode => some ⟨0x06, tag, table :: (be2 index ++ [mode])⟩
  | .tableWrite tag data => some ⟨0x07, tag, data⟩
  | .tableRead tag count => some ⟨0x08, tag, [count]⟩
  | .signalRead tag ids => some ⟨0x09, tag, ids⟩
  | .flagsRead tag => some ⟨0x0A, tag, []⟩
  | .countsRead tag => some ⟨0x0B, tag, []⟩
  | .tripClear tag cause => some ⟨0x0C, tag, [cause]⟩
  | .loopScan tag => some ⟨0x0D, tag, []⟩
  | .loopExchange tag addr channel func size data => some ⟨0x0E, tag, [addr, channel, func, size] ++ be4 data⟩
  | .stationReinstate tag addr => some ⟨0x0F, tag, [addr]⟩
  | .gridCheckStart tag grid => some ⟨0x10, tag, [grid]⟩
  | .gridCheckStop tag => some ⟨0x11, tag, []⟩
  | .steerCheckStart tag => some ⟨0x12, tag, []⟩
  | .procResult tag proc => some ⟨0x13, tag, [proc]⟩
  | .recordStart tag => some ⟨0x14, tag, []⟩
  | .recordStop tag => some ⟨0x15, tag, []⟩
  | .recordStatus tag => some ⟨0x16, tag, []⟩
  | .recordRead tag flags => some ⟨0x17, tag, [flags]⟩
  | .recordFind tag pos cmp start res value => some ⟨0x18, tag, [pos, cmp, start, res] ++ be4 value⟩
  | .integrityRead tag mem flags => some ⟨0x19, tag, [mem, flags]⟩
  | .integrityInject tag mem kind => some ⟨0x1A, tag, [mem, kind]⟩
  | .governorReset tag => some ⟨0x1B, tag, []⟩
  | .fullReset tag => some ⟨0x1C, tag, []⟩
  | .unknownRequestKind kind tag payload => some ⟨kind, tag, payload⟩
  | _ => none

/-- A payload of no bytes. -/
def payload0 (c : Instr) : List Byte → Option Instr
  | [] => some c
  | _ => none

/-- A payload of one byte. -/
def payload1 (c : Byte → Instr) : List Byte → Option Instr
  | [a] => some (c a)
  | _ => none

/-- A payload of two bytes. -/
def payload2 (c : Byte → Byte → Instr) : List Byte → Option Instr
  | [a, b] => some (c a b)
  | _ => none

/-- The payload of a DEMAND. -/
def demandIn (tag : Byte) : List Byte → Option Instr
  | [d, p1, p0, r1, r0, h1, h0, s1, s0, b] => some (.demand tag d (of2 p1 p0) (of2 r1 r0) (of2 h1 h0) (of2 s1 s0) b)
  | _ => none

/-- The payload of a SETTING-WRITE. -/
def settingIn (tag : Byte) : List Byte → Option Instr
  | [i, a, b, c, d] => some (.settingWrite tag i (of4 a b c d))
  | _ => none

/-- The payload of a TABLE-CURSOR. -/
def cursorIn (tag : Byte) : List Byte → Option Instr
  | [t, a, b, m] => some (.tableCursor tag t (of2 a b) m)
  | _ => none

/-- The payload of a LOOP-EXCHANGE. -/
def exchangeIn (tag : Byte) : List Byte → Option Instr
  | [a, ch, f, sz, d3, d2, d1, d0] => some (.loopExchange tag a ch f sz (of4 d3 d2 d1 d0))
  | _ => none

/-- The payload of a RECORD-FIND. -/
def findIn (tag : Byte) : List Byte → Option Instr
  | [p, c, st, r, v3, v2, v1, v0] => some (.recordFind tag p c st r (of4 v3 v2 v1 v0))
  | _ => none

/-- The request of a kind in a payload, if the length is one the kind allows (R197, R198); the lengths of TABLE-WRITE and
SIGNAL-READ are for their owners. -/
def requestIn (tag : Byte) (kind : Nat) (p : List Byte) : Option Instr :=
  match kind with
  | 0x01 => payload0 (.statusQuery tag) p
  | 0x02 => payload1 (.modeRequest tag) p
  | 0x03 => demandIn tag p
  | 0x04 => settingIn tag p
  | 0x05 => payload1 (.settingRead tag) p
  | 0x06 => cursorIn tag p
  | 0x07 => some (.tableWrite tag p)
  | 0x08 => payload1 (.tableRead tag) p
  | 0x09 => some (.signalRead tag p)
  | 0x0A => payload0 (.flagsRead tag) p
  | 0x0B => payload0 (.countsRead tag) p
  | 0x0C => payload1 (.tripClear tag) p
  | 0x0D => payload0 (.loopScan tag) p
  | 0x0E => exchangeIn tag p
  | 0x0F => payload1 (.stationReinstate tag) p
  | 0x10 => payload1 (.gridCheckStart tag) p
  | 0x11 => payload0 (.gridCheckStop tag) p
  | 0x12 => payload0 (.steerCheckStart tag) p
  | 0x13 => payload1 (.procResult tag) p
  | 0x14 => payload0 (.recordStart tag) p
  | 0x15 => payload0 (.recordStop tag) p
  | 0x16 => payload0 (.recordStatus tag) p
  | 0x17 => payload1 (.recordRead tag) p
  | 0x18 => findIn tag p
  | 0x19 => payload2 (.integrityRead tag) p
  | 0x1A => payload2 (.integrityInject tag) p
  | 0x1B => payload0 (.governorReset tag) p
  | 0x1C => payload0 (.fullReset tag) p
  | _ => none

/-- The request in a frame, or the detail of its refusal, in the order of the checks (R184). -/
def requestOf (f : Frame) : Except Detail Instr :=
  if !isRequestKind f.kind then .error .kind
  else if f.tag = 0#8 then .error .tag
  else
    match requestIn f.tag f.kind.toNat f.payload with
    | some c => .ok c
    | none => .error .length

/-- A request handed to its owning block (R184). -/
def take (c : Instr) (s : State) : State :=
  match c with
  | .statusQuery tag => takeStatusQuery tag s
  | .modeRequest tag target => takeModeRequest tag target s
  | .demand tag dir propel retard hold steer brake => takeDemand tag dir propel retard hold steer brake s
  | .settingWrite tag id value => takeSettingWrite tag id value s
  | .settingRead tag id => takeSettingRead tag id s
  | .tableCursor tag table index mode => takeTableCursor tag table index mode s
  | .tableWrite tag data => takeTableWrite tag data s
  | .tableRead tag count => takeTableRead tag count s
  | .signalRead tag ids => takeSignalRead tag ids s
  | .flagsRead tag => takeFlagsRead tag s
  | .countsRead tag => takeCountsRead tag s
  | .tripClear tag cause => takeTripClear tag cause s
  | .loopScan tag => takeLoopScan tag s
  | .loopExchange tag addr channel func size data => takeLoopExchange tag addr channel func size data s
  | .stationReinstate tag addr => takeReinstate tag addr s
  | .gridCheckStart tag grid => takeGridCheckStart tag grid s
  | .gridCheckStop tag => takeGridCheckStop tag s
  | .steerCheckStart tag => takeSteerCheckStart tag s
  | .procResult tag proc => takeProcResult tag proc s
  | .recordStart tag => takeRecordStart tag s
  | .recordStop tag => takeRecordStop tag s
  | .recordStatus tag => takeRecordStatus tag s
  | .recordRead tag flags => takeRecordRead tag flags s
  | .recordFind tag pos cmp start _ value => takeRecordFind tag pos cmp start value s
  | .integrityRead tag mem flags => takeIntegrityRead tag mem flags s
  | .integrityInject tag mem kind => takeIntegrityInject tag mem kind s
  | .governorReset tag => takeGovernorReset tag s
  | .fullReset tag => takeFullReset tag s
  | _ => s

/-! ### The receive queue (R183, R184) -/

/-- The HLI takes a request: no ordinary reply waits in the outgoing queue, and no FULL-RESET has been taken (R184, R195). -/
def ready (s : State) : Bool := s.hli.fullReset == .none && !s.hli.tx.any (·.isOrdinary)

/-- A frame taken from the receive queue (R184). -/
def runFrame (f : Frame) (s : State) : State :=
  match requestOf f with
  | .error d => refuse f.kind f.tag .format d f.kind.toNat s
  | .ok c => take c s

/-- The reply to a deferred request waits in the outgoing queue. -/
def deferredUnsent (s : State) : Bool := s.hli.tx.any (·.isDeferred)

/-- The request is one of the five deferrable ones and, taken now, would be deferred: it would take the free deferred slot
(R186, R187). The requests that wait behind it decide nothing of that. -/
def asksSlot (c : Instr) (s : State) : Bool :=
  match c with
  | .loopScan _ | .loopExchange .. | .stationReinstate .. | .recordRead .. | .recordFind .. =>
    s.hli.deferred.isNone && (take c { s with hli.rx := [] }).hli.deferred.isSome
  | _ => false

/-- A request that would be deferred waits while the reply to the deferred request before it is unsent, so that the outgoing
queue holds at most one such reply (R188; log 57). -/
def frameWaits (f : Frame) (s : State) : Bool :=
  deferredUnsent s &&
    (match requestOf f with
     | .ok c => asksSlot c s
     | .error _ => false)

/-- Requests are taken from the head of the receive queue while one can be (R184, R188). -/
def drain : Nat → State → State
  | 0, s => s
  | fuel + 1, s =>
    if ready s then
      match s.hli.rx with
      | [] => s
      | f :: fs => if frameWaits f s then s else drain fuel (runFrame f { s with hli.rx := fs })
    else s

/-- Take every request that can be taken now. -/
def drainAll (s : State) : State := drain s.hli.rx.length s

/-- A complete frame joins the receive queue, or is dropped with 4 frames held (R183); then requests are taken (R184). -/
def submit (f : Frame) (s : State) : State :=
  if s.hli.rx.length < 4 then drainAll { s with hli.rx := s.hli.rx ++ [f] } else bump .hostRxDropped s

/-! ### The receiver (R183) -/

/-- A frame is discarded (R183). -/
def frameBad (s : State) : State := latch .hostFramesBad (bump .hostFramesBad { s with hli.rxBuf := [] })

/-- The bytes gathered make a frame with its last byte (R183, R196). -/
def frameDone (buf : List Byte) (s : State) : State :=
  let n := byteAt buf 1
  let body := (buf.drop 1).take (n + 3)
  if wordBytes (crc16 body) = buf.drop (n + 4) then
    submit ⟨buf.getD 2 0, buf.getD 3 0, body.drop 3⟩ { s with hli.rxBuf := [] }
  else frameBad s

/-- A byte arrives (R183). -/
def receiveByte (b : Byte) (s : State) : State :=
  if s.hli.rxBuf.isEmpty then (if b = 0xA7#8 then { s with hli.rxBuf := [b] } else s)
  else
    let buf := s.hli.rxBuf ++ [b]
    if buf.length = 2 ∧ 240 < b.toNat then frameBad s
    else if buf.length = byteAt buf 1 + 6 then frameDone buf s
    else { s with hli.rxBuf := buf }

/-- Bytes arrive, in order. -/
def receiveBytes (bs : List Byte) (s : State) : State := bs.foldl (fun s b => receiveByte b s) s

/-- More than 2 ms pass between two bytes of a frame (R183). -/
def interByteGap (s : State) : State := if s.hli.rxBuf.isEmpty then s else frameBad s

/-! ### Messages sent (R184, R188, R195) -/

/-- The message at the head has been sent: it leaves the queue, and the next request is taken. After the reply of a
FULL-RESET nothing further is sent (R195; log 38). -/
def messageSent (s : State) : State :=
  if s.hli.fullReset = .replySent then s
  else
    match s.hli.tx with
    | [] => s
    | m :: ms =>
      let full := if s.hli.fullReset = .taken ∧ m.isOrdinary then FullReset.replySent else s.hli.fullReset
      drainAll { s with hli.tx := ms, hli.fullReset := full, pins.hostTx := m.bytes }

end Sys2Proof.Machine
end

