-- ==== Sys2Proof/Machine/HostRequests.lean ====
section
/-! DEFINITION. The meanings of the 28 host requests, and of a frame whose kind is none of theirs: each is submitted as its
frame and taken in its turn (R183, R184; log 1). -/

namespace Sys2Proof.Machine

/-- A command of a part that is not held in reset; while RESET is asserted it has no effect (R19; log 37). -/
def live (f : State → State) (s : State) : Host.Outcome State Fault Refusal := .next (if s.pins.reset then s else f s)

/-- A request arrives as its frame and is taken when the HLI takes it (R183, R184; log 1). -/
def request (c : Instr) (s : State) : State :=
  match frameOf c with
  | some f => submit f s
  | none => s

/-- STATUS-QUERY (R189). -/
def execStatusQuery (tag : Byte) (s : State) : Host.Outcome State Fault Refusal :=
  live (request (.statusQuery tag)) s

/-- MODE-REQUEST (R3). -/
def execModeRequest (tag target : Byte) (s : State) : Host.Outcome State Fault Refusal :=
  live (request (.modeRequest tag target)) s

/-- DEMAND (R11). -/
def execDemand (tag dir : Byte) (propel retard hold steer : BitVec 16) (brake : Byte)
    (s : State) : Host.Outcome State Fault Refusal :=
  live (request (.demand tag dir propel retard hold steer brake)) s

/-- SETTING-WRITE (R192). -/
def execSettingWrite (tag id : Byte) (value : BitVec 32) (s : State) : Host.Outcome State Fault Refusal :=
  live (request (.settingWrite tag id value)) s

/-- SETTING-READ (R192). -/
def execSettingRead (tag id : Byte) (s : State) : Host.Outcome State Fault Refusal :=
  live (request (.settingRead tag id)) s

/-- TABLE-CURSOR (R190). -/
def execTableCursor (tag table : Byte) (index : BitVec 16) (mode : Byte)
    (s : State) : Host.Outcome State Fault Refusal :=
  live (request (.tableCursor tag table index mode)) s

/-- TABLE-WRITE (R191). -/
def execTableWrite (tag : Byte) (data : List Byte) (s : State) : Host.Outcome State Fault Refusal :=
  live (request (.tableWrite tag data)) s

/-- TABLE-READ (R191). -/
def execTableRead (tag count : Byte) (s : State) : Host.Outcome State Fault Refusal :=
  live (request (.tableRead tag count)) s

/-- SIGNAL-READ (R78). -/
def execSignalRead (tag : Byte) (ids : List Byte) (s : State) : Host.Outcome State Fault Refusal :=
  live (request (.signalRead tag ids)) s

/-- FLAGS-READ (R193). -/
def execFlagsRead (tag : Byte) (s : State) : Host.Outcome State Fault Refusal :=
  live (request (.flagsRead tag)) s

/-- COUNTS-READ (R194). -/
def execCountsRead (tag : Byte) (s : State) : Host.Outcome State Fault Refusal :=
  live (request (.countsRead tag)) s

/-- TRIP-CLEAR (R97). -/
def execTripClear (tag cause : Byte) (s : State) : Host.Outcome State Fault Refusal :=
  live (request (.tripClear tag cause)) s

/-- LOOP-SCAN (R32). -/
def execLoopScan (tag : Byte) (s : State) : Host.Outcome State Fault Refusal :=
  live (request (.loopScan tag)) s

/-- LOOP-EXCHANGE (R26, R59). -/
def execLoopExchange (tag addr channel func size : Byte) (data : BitVec 32)
    (s : State) : Host.Outcome State Fault Refusal :=
  live (request (.loopExchange tag addr channel func size data)) s

/-- STATION-REINSTATE (R34). -/
def execStationReinstate (tag addr : Byte) (s : State) : Host.Outcome State Fault Refusal :=
  live (request (.stationReinstate tag addr)) s

/-- GRID-CHECK-START (R139). -/
def execGridCheckStart (tag grid : Byte) (s : State) : Host.Outcome State Fault Refusal :=
  live (request (.gridCheckStart tag grid)) s

/-- GRID-CHECK-STOP (R144). -/
def execGridCheckStop (tag : Byte) (s : State) : Host.Outcome State Fault Refusal :=
  live (request (.gridCheckStop tag)) s

/-- STEER-CHECK-START (R156). -/
def execSteerCheckStart (tag : Byte) (s : State) : Host.Outcome State Fault Refusal :=
  live (request (.steerCheckStart tag)) s

/-- PROC-RESULT (R146, R160). -/
def execProcResult (tag proc : Byte) (s : State) : Host.Outcome State Fault Refusal :=
  live (request (.procResult tag proc)) s

/-- RECORD-START (R165). -/
def execRecordStart (tag : Byte) (s : State) : Host.Outcome State Fault Refusal :=
  live (request (.recordStart tag)) s

/-- RECORD-STOP (R166). -/
def execRecordStop (tag : Byte) (s : State) : Host.Outcome State Fault Refusal :=
  live (request (.recordStop tag)) s

/-- RECORD-STATUS (R173). -/
def execRecordStatus (tag : Byte) (s : State) : Host.Outcome State Fault Refusal :=
  live (request (.recordStatus tag)) s

/-- RECORD-READ (R169, R171). -/
def execRecordRead (tag flags : Byte) (s : State) : Host.Outcome State Fault Refusal :=
  live (request (.recordRead tag flags)) s

/-- RECORD-FIND (R172). -/
def execRecordFind (tag position comparison start reserved : Byte) (value : BitVec 32)
    (s : State) : Host.Outcome State Fault Refusal :=
  live (request (.recordFind tag position comparison start reserved value)) s

/-- INTEGRITY-READ (R179). -/
def execIntegrityRead (tag mem flags : Byte) (s : State) : Host.Outcome State Fault Refusal :=
  live (request (.integrityRead tag mem flags)) s

/-- INTEGRITY-INJECT (R180). -/
def execIntegrityInject (tag mem kind : Byte) (s : State) : Host.Outcome State Fault Refusal :=
  live (request (.integrityInject tag mem kind)) s

/-- GOVERNOR-RESET (R20, R195). -/
def execGovernorReset (tag : Byte) (s : State) : Host.Outcome State Fault Refusal :=
  live (request (.governorReset tag)) s

/-- FULL-RESET (R195). -/
def execFullReset (tag : Byte) (s : State) : Host.Outcome State Fault Refusal :=
  live (request (.fullReset tag)) s

/-- A frame whose kind is none of the 28 (R184, R198). -/
def execUnknownRequestKind (kind tag : Byte) (payload : List Byte) (s : State) : Host.Outcome State Fault Refusal :=
  live (request (.unknownRequestKind kind tag payload)) s

end Sys2Proof.Machine
end

