-- ==== Sys2Proof/Machine/Events.lean ====
section
/-! DEFINITION. The meanings of the events: resets and pins, the demand timer, the host link's bytes, the loop, the frame,
thresholds, the recorder and the memories. An event that the state gives no occasion for changes nothing (log 2). -/

namespace Sys2Proof.Machine

/-- Power-on makes a full reset, with the STOP line as found (R19). -/
def execPowerOn (stopAsserted : Bool) (s : State) : Host.Outcome State Fault Refusal :=
  .next (fullResetTo stopAsserted s.pins.reset s)

/-- Assertion of the RESET pin makes a full reset, which lasts while it is asserted (R19). -/
def execResetPinAssert (s : State) : Host.Outcome State Fault Refusal :=
  .next (if s.pins.reset then s else fullResetTo s.pins.stop true s)

/-- Release of the RESET pin ends the reset, and the STATE notice is sent (R19). -/
def execResetPinRelease (s : State) : Host.Outcome State Fault Refusal :=
  .next (if s.pins.reset then fullResetTo s.pins.stop false s else s)

/-- Assertion of the STOP line (R15); in reset only the pin changes (log 37). -/
def execStopLineAssert (s : State) : Host.Outcome State Fault Refusal :=
  .next (if s.pins.reset then { s with pins.stop := true } else if s.dsc.stopLine then s else stopAssert s)

/-- Release of the STOP line (R16); in reset only the pin changes (log 37). -/
def execStopLineRelease (s : State) : Host.Outcome State Fault Refusal :=
  .next (if s.pins.reset then { s with pins.stop := false } else stopRelease s)

/-- The flipped bits of the ring word with an address (R175; log 16). -/
def flipRing (addr : Nat) (bits : List Nat) (r : RingRecord) : RingRecord :=
  if r.base ≤ addr then { r with words := r.words.modify (addr - r.base) (·.flip bits) } else r

/-- Bits of a stored word flip (R175). -/
def flipStored (m : Mem) (addr : Nat) (bits : List Nat) (s : State) : State :=
  match m with
  | .acq => { s with slc.acq := s.slc.acq.modify addr (·.flip bits) }
  | .screen => { s with sgs.screen := s.sgs.screen.modify addr (·.flip bits) }
  | .image => if addr = 0 then s else { s with sgs.image := s.sgs.image.modify (addr - 1) (·.flip bits) }
  | .record => { s with trc.ring := s.trc.ring.map (flipRing addr bits) }

/-- The reset of a FULL-RESET, once its reply has been sent (R195). -/
def execFullResetTakesEffect (s : State) : Host.Outcome State Fault Refusal := live fullResetEffect s

/-- The demand timer expires (R13; log 36). -/
def execDemandTimerExpiry (s : State) : Host.Outcome State Fault Refusal := live demandExpiry s

/-- Bytes arrive on HOST_RX (R183, R196). -/
def execHostFrameReceived (bytes : List Byte) (s : State) : Host.Outcome State Fault Refusal :=
  live (receiveBytes bytes) s

/-- A gap of more than 2 ms within a frame (R183). -/
def execHostInterByteGap (s : State) : Host.Outcome State Fault Refusal := live interByteGap s

/-- The message at the head of the outgoing queue has been sent (R188). -/
def execMessageSent (s : State) : Host.Outcome State Fault Refusal := live messageSent s

/-- A clean idle word returns (R21). -/
def execCleanIdleWordReturned (s : State) : Host.Outcome State Fault Refusal := live cleanIdleWord s

/-- Another word returns outside an exchange (R21). -/
def execUncleanWordReturned (word : RxWord) (s : State) : Host.Outcome State Fault Refusal :=
  live (uncleanWord word) s

/-- The count of clean idle words reaches 32 (R21). -/
def execLoopSyncReached (s : State) : Host.Outcome State Fault Refusal := live loopSyncReached s

/-- No word edge on LOOP_IN for 4 word times (R21, R22). -/
def execLoopEdgeTimeout (s : State) : Host.Outcome State Fault Refusal := live edgeTimeout s

/-- The frame timer makes a frame start (R39; log 5). -/
def execFrameStart (s : State) : Host.Outcome State Fault Refusal := live frameStart s

/-- The unread count reaches the block size (R168). -/
def execStreamBlockReady (s : State) : Host.Outcome State Fault Refusal := live streamBlockReady s

/-- The post count reaches 0 (R170). -/
def execRecorderFrozen (s : State) : Host.Outcome State Fault Refusal := live recorderFrozen s

/-- A slot starts (R25). -/
def execExchangeStart (s : State) : Host.Outcome State Fault Refusal := live exchangeStart s

/-- The words that returned in the slot hold a reply (R24, R200). -/
def execExchangeComplete (words : List RxWord) (s : State) : Host.Outcome State Fault Refusal :=
  live (exchangeComplete words) s

/-- The slot ends with no complete reply (R23). -/
def execSlotTimeout (s : State) : Host.Outcome State Fault Refusal := live slotTimeout s

/-- A streak reaches STREAK_SUSPECT (R30). -/
def execStationSuspect (addr : Nat) (s : State) : Host.Outcome State Fault Refusal := live (becomeSuspect addr) s

/-- A streak reaches STREAK_EXCLUDE (R30). -/
def execStationExcluded (addr : Nat) (s : State) : Host.Outcome State Fault Refusal := live (becomeExcluded addr) s

/-- The last allowed exchange of a PERSIST run ends not ready (R45). -/
def execPersistRetryExhausted (s : State) : Host.Outcome State Fault Refusal := live persistExhausted s

/-- A pass uses up its budget (R49; log 34). -/
def execBudgetExhaustion (s : State) : Host.Outcome State Fault Refusal := live budgetExhaustion s

/-- A held item joins the service queue (R56). -/
def execHeldItemJoin (s : State) : Host.Outcome State Fault Refusal := live heldItemJoin s

/-- The dispatch mark passes (R51). -/
def execDispatchMarkReached (s : State) : Host.Outcome State Fault Refusal := live dispatchMark s

/-- The publication event (R50). -/
def execPublication (s : State) : Host.Outcome State Fault Refusal := live publication s

/-- A held count passes its hold allowance (R71). -/
def execHoldAllowanceExceeded (signal : Nat) (s : State) : Host.Outcome State Fault Refusal :=
  live (holdExceeded signal) s

/-- A condition's count reaches its number (R84). -/
def execConditionCountReached (cond : CountedCond) (s : State) : Host.Outcome State Fault Refusal :=
  live (conditionCountReached cond) s

/-- A HOLDING derate's hold remaining reaches 0 (R90). -/
def execDerateHoldExpiry (cause : DerateCause) (target : DerateTarget) (s : State) : Host.Outcome State Fault Refusal :=
  live (derateHoldExpiry cause target) s

/-- A SPIN count reaches 20 (R114). -/
def execSlipPersistSet (wheel : Side) (s : State) : Host.Outcome State Fault Refusal := live (slipPersistSet wheel) s

/-- The hold enters SHORT (R125). -/
def execHoldShortEntry (s : State) : Host.Outcome State Fault Refusal := live holdShortEntry s

/-- The hold returns to ENGAGED (R125). -/
def execHoldShortExit (s : State) : Host.Outcome State Fault Refusal := live holdShortExit s

/-- STEER_TRACK becomes present (R151). -/
def execSteerTrackArise (s : State) : Host.Outcome State Fault Refusal := live steerTrackArise s

/-- STEER_TRACK goes (R151). -/
def execSteerTrackGo (s : State) : Host.Outcome State Fault Refusal := live steerTrackGo s

/-- STEER_SUPPLY becomes present (R153). -/
def execSteerSupplyArise (s : State) : Host.Outcome State Fault Refusal := live steerSupplyArise s

/-- ACC_LOW becomes present (R154). -/
def execAccLowArise (s : State) : Host.Outcome State Fault Refusal := live accLowArise s

/-- The twentieth watched image (R157). -/
def execSteerCheckWatchEnd (s : State) : Host.Outcome State Fault Refusal := live steerWatchEnd s

/-- A producer posts its outputs (R50). -/
def execOutputPosting (producer : Producer) (s : State) : Host.Outcome State Fault Refusal :=
  live (outputPosting producer) s

/-- The ring scan ends (R172). -/
def execRecordFindComplete (s : State) : Host.Outcome State Fault Refusal := live findComplete s

/-- Bits of a stored word flip of themselves (R175). -/
def execStoredBitFlipped (mem : Mem) (addr : Nat) (bits : List Nat) (s : State) : Host.Outcome State Fault Refusal :=
  live (flipStored mem addr bits) s

end Sys2Proof.Machine
end

