-- ==== Sys2Proof/Machine/Dispatch.lean ====
section
/-! DEFINITION. The meaning of each command: one arm per constructor of Instr, each a direct call. -/

namespace Sys2Proof.Machine

def exec (i : Instr) (s : State) : Host.Outcome State Fault Refusal :=
  match i with
  | .statusQuery tag => Sys2Proof.Machine.execStatusQuery tag s
  | .modeRequest tag target => Sys2Proof.Machine.execModeRequest tag target s
  | .demand tag dir propel retard hold steer brake => Sys2Proof.Machine.execDemand tag dir propel retard hold steer brake s
  | .settingWrite tag id value => Sys2Proof.Machine.execSettingWrite tag id value s
  | .settingRead tag id => Sys2Proof.Machine.execSettingRead tag id s
  | .tableCursor tag table index mode => Sys2Proof.Machine.execTableCursor tag table index mode s
  | .tableWrite tag data => Sys2Proof.Machine.execTableWrite tag data s
  | .tableRead tag count => Sys2Proof.Machine.execTableRead tag count s
  | .signalRead tag ids => Sys2Proof.Machine.execSignalRead tag ids s
  | .flagsRead tag => Sys2Proof.Machine.execFlagsRead tag s
  | .countsRead tag => Sys2Proof.Machine.execCountsRead tag s
  | .tripClear tag cause => Sys2Proof.Machine.execTripClear tag cause s
  | .loopScan tag => Sys2Proof.Machine.execLoopScan tag s
  | .loopExchange tag addr channel func size data => Sys2Proof.Machine.execLoopExchange tag addr channel func size data s
  | .stationReinstate tag addr => Sys2Proof.Machine.execStationReinstate tag addr s
  | .gridCheckStart tag grid => Sys2Proof.Machine.execGridCheckStart tag grid s
  | .gridCheckStop tag => Sys2Proof.Machine.execGridCheckStop tag s
  | .steerCheckStart tag => Sys2Proof.Machine.execSteerCheckStart tag s
  | .procResult tag proc => Sys2Proof.Machine.execProcResult tag proc s
  | .recordStart tag => Sys2Proof.Machine.execRecordStart tag s
  | .recordStop tag => Sys2Proof.Machine.execRecordStop tag s
  | .recordStatus tag => Sys2Proof.Machine.execRecordStatus tag s
  | .recordRead tag flags => Sys2Proof.Machine.execRecordRead tag flags s
  | .recordFind tag position comparison start reserved value => Sys2Proof.Machine.execRecordFind tag position comparison start reserved value s
  | .integrityRead tag mem flags => Sys2Proof.Machine.execIntegrityRead tag mem flags s
  | .integrityInject tag mem kind => Sys2Proof.Machine.execIntegrityInject tag mem kind s
  | .governorReset tag => Sys2Proof.Machine.execGovernorReset tag s
  | .fullReset tag => Sys2Proof.Machine.execFullReset tag s
  | .fullResetTakesEffect => Sys2Proof.Machine.execFullResetTakesEffect s
  | .powerOn stopAsserted => Sys2Proof.Machine.execPowerOn stopAsserted s
  | .resetPinAssert => Sys2Proof.Machine.execResetPinAssert s
  | .resetPinRelease => Sys2Proof.Machine.execResetPinRelease s
  | .stopLineAssert => Sys2Proof.Machine.execStopLineAssert s
  | .stopLineRelease => Sys2Proof.Machine.execStopLineRelease s
  | .demandTimerExpiry => Sys2Proof.Machine.execDemandTimerExpiry s
  | .hostFrameReceived bytes => Sys2Proof.Machine.execHostFrameReceived bytes s
  | .hostInterByteGap => Sys2Proof.Machine.execHostInterByteGap s
  | .messageSent => Sys2Proof.Machine.execMessageSent s
  | .cleanIdleWordReturned => Sys2Proof.Machine.execCleanIdleWordReturned s
  | .uncleanWordReturned word => Sys2Proof.Machine.execUncleanWordReturned word s
  | .loopSyncReached => Sys2Proof.Machine.execLoopSyncReached s
  | .loopEdgeTimeout => Sys2Proof.Machine.execLoopEdgeTimeout s
  | .frameStart => Sys2Proof.Machine.execFrameStart s
  | .streamBlockReady => Sys2Proof.Machine.execStreamBlockReady s
  | .recorderFrozen => Sys2Proof.Machine.execRecorderFrozen s
  | .exchangeStart => Sys2Proof.Machine.execExchangeStart s
  | .exchangeComplete words => Sys2Proof.Machine.execExchangeComplete words s
  | .slotTimeout => Sys2Proof.Machine.execSlotTimeout s
  | .stationSuspect addr => Sys2Proof.Machine.execStationSuspect addr s
  | .stationExcluded addr => Sys2Proof.Machine.execStationExcluded addr s
  | .persistRetryExhausted => Sys2Proof.Machine.execPersistRetryExhausted s
  | .budgetExhaustion => Sys2Proof.Machine.execBudgetExhaustion s
  | .heldItemJoin => Sys2Proof.Machine.execHeldItemJoin s
  | .dispatchMarkReached => Sys2Proof.Machine.execDispatchMarkReached s
  | .publication => Sys2Proof.Machine.execPublication s
  | .holdAllowanceExceeded signal => Sys2Proof.Machine.execHoldAllowanceExceeded signal s
  | .conditionCountReached cond => Sys2Proof.Machine.execConditionCountReached cond s
  | .derateHoldExpiry cause target => Sys2Proof.Machine.execDerateHoldExpiry cause target s
  | .slipPersistSet wheel => Sys2Proof.Machine.execSlipPersistSet wheel s
  | .holdShortEntry => Sys2Proof.Machine.execHoldShortEntry s
  | .holdShortExit => Sys2Proof.Machine.execHoldShortExit s
  | .steerTrackArise => Sys2Proof.Machine.execSteerTrackArise s
  | .steerTrackGo => Sys2Proof.Machine.execSteerTrackGo s
  | .steerSupplyArise => Sys2Proof.Machine.execSteerSupplyArise s
  | .accLowArise => Sys2Proof.Machine.execAccLowArise s
  | .steerCheckWatchEnd => Sys2Proof.Machine.execSteerCheckWatchEnd s
  | .outputPosting producer => Sys2Proof.Machine.execOutputPosting producer s
  | .recordFindComplete => Sys2Proof.Machine.execRecordFindComplete s
  | .unknownRequestKind kind tag payload => Sys2Proof.Machine.execUnknownRequestKind kind tag payload s
  | .storedBitFlipped mem addr bits => Sys2Proof.Machine.execStoredBitFlipped mem addr bits s

end Sys2Proof.Machine
end

