-- ==== Sys2Proof/Safety.lean ====
section
/-! DEFINITION. The vocabulary of the statements about the JW-60: when the part takes a request at once, what a queued reply
is, the bits an injection flips, and the two safety invariants: the stores keep their sizes, and DRIVE is left before a
severe record is held. -/

namespace Sys2Proof.Machine

/-- The part is not held in reset, the HLI takes the next request, and no frame waits ahead of it (R19, R184). -/
def CanTake (s : State) : Prop := s.pins.reset = false ∧ ready s = true ∧ s.hli.rx = []

/-- The part is not held in reset (R19). -/
def Live (s : State) : Prop := s.pins.reset = false

/-- The state with an ordinary reply at the tail of the outgoing queue (R184, R185). -/
def State.replied (s : State) (kind tag : Byte) (b : Body) : State :=
  { s with hli.tx := s.hli.tx ++ [.reply false kind tag b] }

/-- The state with a DONE reply at the tail of the outgoing queue (R185). -/
def State.answered (s : State) (kind tag : Byte) (data : List Byte) : State := s.replied kind tag (.done data)

/-- The state with a REFUSED reply at the tail of the outgoing queue (R185). -/
def State.turnedAway (s : State) (kind tag : Byte) (cls : RClass) (d : Detail) (qual : Nat) : State :=
  s.replied kind tag (.refused cls d qual)

/-- The bits a write stores flipped in the word that takes a pending injection: none without one, one for SINGLE, two
different ones for DOUBLE (R181); which they are is free (log 13). -/
def Struck : Inject → List Nat → Prop
  | .none, fs => fs = []
  | .single, fs => ∃ b, fs = [b]
  | .double, fs => ∃ b c, b ≠ c ∧ fs = [b, c]

/-- Sizes of the tables that never grow or shrink: acquisition, screening, image, record set (R41, R63, R67, R162). -/
def State.sizes (s : State) : Nat × Nat × Nat × Nat :=
  (s.slc.acq.length, s.sgs.screen.length, s.sgs.image.length, s.trc.recset.length)

/-- The tables have the sizes the spec gives them. -/
def TablesWhole (s : State) : Prop := s.sizes = (64, 96, 34, 12)

/-- In DRIVE the trip list holds no SEVERE record (R8), the steering supply check result is PASS (R5), and no steering
supply check runs (R156). -/
def DriveSafe (s : State) : Prop :=
  s.dsc.gov = .drive → severeHeld s = false ∧ s.sgv.result.outcome = .pass ∧ s.sgv.run = none

end Sys2Proof.Machine
end

