-- ==== Sys2Proof/Certificates/Slice0/Obligations.lean ====
section
/-! DEFINITION. The statements about the JW-60 that the provers settle. -/

open Sys2Proof Sys2Proof.Machine

/-! ### The queue, and how a request reaches its owner (R183, R184, R187, R188, R196 to R198) -/

/-- A step runs the command at the front of the queue on the state with the queue's rest; with no command waiting it
idles, which is the model's choice (log 4). -/
def Obligations.StepRunsTheFrontCommand : Prop :=
  (∀ (c : Instr) (rest : List Instr) (s : State), s.pending = c :: rest → step s = exec c { s with pending := rest })
    ∧ ∀ s : State, s.pending = [] → step s = .next s

/-- Every host request whose kind is one of the 28, sent as its frame, is read back as itself, with every field at
every value. -/
def Obligations.EveryRequestFrameReadsBack : Prop :=
  ∀ (c : Instr) (f : Frame), frameOf c = some f → isRequestKind f.kind = true → f.tag ≠ 0#8 →
    (∀ k t p, c ≠ .unknownRequestKind k t p) → requestOf f = .ok c

/-- The bytes of a request's frame, arriving on HOST_RX while the receiver hunts, do what the request's own row does: a
request the HLI takes at once reaches its owner. -/
def Obligations.FrameBytesActAsTheirRequest : Prop :=
  ∀ (c : Instr) (f : Frame) (s : State), frameOf c = some f → f.payload.length ≤ 240 → s.hli.rxBuf = [] →
    exec (.hostFrameReceived f.bytes) s = exec c s
      ∧ (CanTake s → f.tag ≠ 0#8 → (∀ k t p, c ≠ .unknownRequestKind k t p) →
          (deferredUnsent s = false ∨ asksSlot c s = false) →
          exec (.hostFrameReceived f.bytes) s = .next (take c s))

/-- A request that the HLI takes at once reaches its owner, which decides it (R184). A request behind an unsent
ordinary reply, behind a request that waits, or after a FULL-RESET, waits in the receive queue; with 4 frames held it
is dropped and counted. A request that would take the deferred slot waits too while the reply to the deferred request
before it is unsent (R188), which is the model's reading (log 57). -/
def Obligations.RequestIsTakenOrWaitsOrIsDropped : Prop :=
  (∀ (c : Instr) (f : Frame) (s : State), frameOf c = some f → f.tag ≠ 0#8 → (∀ k t p, c ≠ .unknownRequestKind k t p) →
      CanTake s → (deferredUnsent s = false ∨ asksSlot c s = false) → exec c s = .next (take c s))
  ∧ ((∀ (c : Instr) (f : Frame) (s : State), frameOf c = some f → Live s →
        (ready s = false ∨ ∃ g gs, s.hli.rx = g :: gs ∧ frameWaits g s = true) →
        exec c s = .next (if s.hli.rx.length < 4 then { s with hli.rx := s.hli.rx ++ [f] }
          else { s with hli.counters.hostRxDropped := s.hli.counters.hostRxDropped.rise }))
      ∧ ∀ (c : Instr) (f : Frame) (s : State), frameOf c = some f → f.tag ≠ 0#8 →
        (∀ k t p, c ≠ .unknownRequestKind k t p) → CanTake s → deferredUnsent s = true → asksSlot c s = true →
        exec c s = .next { s with hli.rx := [f] })

/-- A frame of a kind that is none of the 28 is refused with FORMAT/KIND, a request with tag 0 with FORMAT/TAG; the
qualifier is the kind received, and nothing else changes. The reply kind of kinds of 80h and above is free (log 23). A
request frame of one of the 28 kinds, with a tag, whose payload has not the length its kind has in the table of R197,
is refused FORMAT/LENGTH with the kind as qualifier, and nothing else changes; of SIGNAL-READ 1 to 16 ids are allowed
(whole entries of a TABLE-WRITE are its owner's check). A gap of more than 2 ms inside a frame discards it:
HOST_FRAMES_BAD rises, its flag is latched, the receiver hunts; while the receiver hunts a gap is nothing. A frame with
a wrong CRC, or with a length byte above 240, is discarded: HOST_FRAMES_BAD rises, its flag is latched, and the
receiver hunts again; a byte that is no start byte while it hunts is passed over. -/
def Obligations.MalformedFramesAreRefusedOrDiscarded : Prop :=
  ((∀ (k t : Byte) (p : List Byte) (s : State), CanTake s → isRequestKind k = false →
        exec (.unknownRequestKind k t p) s = .next (s.turnedAway (replyKind k) t .format .kind k.toNat))
      ∧ ∀ (c : Instr) (f : Frame) (s : State), CanTake s → frameOf c = some f → isRequestKind f.kind = true → f.tag = 0#8 →
        exec c s = .next (s.turnedAway (f.kind + 0x80#8) 0#8 .format .tag f.kind.toNat))
  ∧ (∀ (f : Frame) (k : Nat) (s : State), CanTake s → s.hli.rxBuf = [] → f.tag ≠ 0#8 → f.payload.length ≤ 240 →
      f.kind = BitVec.ofNat 8 k → 1 ≤ k → k ≤ 28 → k ≠ 7 →
      let lengths : List Nat :=
        [0, 1, 10, 5, 1, 4, 0, 1, 0, 0, 0, 1, 0, 8, 1, 1, 0, 0, 1, 0, 0, 0, 1, 8, 2, 2, 0, 0]
      (if k = 9 then f.payload.length = 0 ∨ 16 < f.payload.length else lengths[k - 1]? ≠ some f.payload.length) →
      exec (.hostFrameReceived f.bytes) s = .next (s.turnedAway (f.kind + 0x80#8) f.tag .format .length k))
  ∧ (∀ s : State, Live s →
      exec .hostInterByteGap s = .next (if s.hli.rxBuf = [] then s
        else { s with
          hli.rxBuf := [], hli.flags := s.hli.flags ||| Flag.hostFramesBad.mask
          hli.counters.hostFramesBad := s.hli.counters.hostFramesBad.rise }))
  ∧ (∀ s : State, Live s → s.hli.rxBuf = [] →
      let bad : Host.Outcome State Fault Refusal := .next { s with
        hli.flags := s.hli.flags ||| Flag.hostFramesBad.mask
        hli.counters.hostFramesBad := s.hli.counters.hostFramesBad.rise }
      (∀ b : Byte, b ≠ 0xA7#8 → exec (.hostFrameReceived [b]) s = .next s)
        ∧ (∀ n : Byte, 240 < n.toNat → exec (.hostFrameReceived [0xA7#8, n]) s = bad)
        ∧ ∀ (f : Frame) (hi lo : Byte), f.payload.length ≤ 240 → [hi, lo] ≠ wordBytes (crc16 f.body) →
          exec (.hostFrameReceived (0xA7#8 :: (f.body ++ [hi, lo]))) s = bad)

/-- The message at the head of the outgoing queue is sent and leaves it; with no ordinary reply left in it the frame at
the head of the receive queue is taken, and the frames behind it wait for its reply; a request that would take the
deferred slot waits while the reply to an earlier one is unsent (log 57). The reply of a FULL-RESET arms the reset,
after which nothing further is sent (log 38). With nothing queued the event changes nothing (log 2). -/
def Obligations.SentMessageLeavesTheQueue : Prop :=
  ∀ s : State, Live s →
    (s.hli.fullReset = .none → s.hli.tx = [] → s.hli.rx = [] → exec .messageSent s = .next s)
      ∧ (∀ m ms, s.hli.fullReset = .none → s.hli.tx = m :: ms → s.hli.rx = [] →
        exec .messageSent s = .next { s with hli.tx := ms, pins.hostTx := m.bytes })
      ∧ (∀ m ms f fs, s.hli.fullReset = .none → s.hli.tx = m :: ms → ms.any (·.isOrdinary) = false →
        s.hli.rx = f :: fs → frameWaits f { s with hli.tx := ms, pins.hostTx := m.bytes } = false →
        let t := runFrame f { s with hli.tx := ms, pins.hostTx := m.bytes, hli.rx := fs }
        fs = [] ∨ ready t = false → exec .messageSent s = .next t)
      ∧ (∀ m ms f fs, s.hli.fullReset = .none → s.hli.tx = m :: ms → s.hli.rx = f :: fs →
        (ms.any (·.isOrdinary) = true ∨ frameWaits f { s with hli.tx := ms, pins.hostTx := m.bytes } = true) →
        exec .messageSent s = .next { s with hli.tx := ms, pins.hostTx := m.bytes })
      ∧ (∀ m ms, s.hli.fullReset = .taken → s.hli.tx = m :: ms → m.isOrdinary = true →
        exec .messageSent s = .next { s with hli.tx := ms, pins.hostTx := m.bytes, hli.fullReset := .replySent })
      ∧ (s.hli.fullReset = .replySent → exec .messageSent s = .next s)

/-- A notice is queued when its kind is in the mask in force and fewer than 6 notices are queued, else dropped and
counted; a notice whose kind is not in the mask is not made (R188). A change of governing state sets it and makes the
STATE notice of the old state, the new one and the cause. -/
def Obligations.NoticesAreQueuedWithinTheirRoom : Prop :=
  (∀ (n : Notice) (s : State),
      notify n s =
        if s.hli.force.noticeMask.testBit n.maskBit = false then s
        else if s.hli.tx.countP (·.isNotice) < 6 then { s with hli.tx := s.hli.tx ++ [.notice n] }
        else { s with
          hli.flags := s.hli.flags ||| Flag.noticesDropped.mask
          hli.counters.noticesDropped := s.hli.counters.noticesDropped.rise })
  ∧ (∀ (g : Gov) (c : StateCause) (s : State),
      changeState g c s = notify (.state s.dsc.gov g c) { s with dsc.gov := g })

/-! ### The HLI's own requests (R189 to R194) -/

/-- STATUS-QUERY gathers the values of the six blocks as they stand and changes nothing else; the bytes are the model's
layout of the values that R18, R118, R136 and R189 name (log 22). PROC-RESULT reports either procedure (R146, R160; the
bytes are the model's layout, log 22) and refuses any other, changing nothing else. -/
def Obligations.StatusAndProcedureReportsChangeNothing : Prop :=
  (∀ (tag : Byte) (s : State), CanTake s → tag ≠ 0#8 →
      exec (.statusQuery tag) s =
        .next (s.answered 0x81 tag (dscStatusBytes s ++ talStatusBytes s ++ rgvStatusBytes s ++ epuStatusBytes s
          ++ sgvStatusBytes s ++ (vFrame s.slc.frameNo ++ vEnum (loopCode s.slc.loopState) ++ vEnum (recStateCode s.trc.st)
          ++ vMark s.hli.deferred.isSome ++ [(s.hli.deferred.map (·.kind.code)).getD 0] ++ vCount s.hli.rx.length
          ++ vCount s.hli.tx.length ++ vMark (s.hli.flags != 0)))))
  ∧ (∀ (tag proc : Byte) (s : State), CanTake s → tag ≠ 0#8 →
      exec (.procResult tag proc) s =
        .next (if proc = 1#8 then s.answered 0x93 tag (gridResultBytes s)
          else if proc = 2#8 then s.answered 0x93 tag (steerResultBytes s)
          else s.turnedAway 0x93 tag .range .field 1))

/-- SETTING-WRITE makes the seven checks of R192 in their order, stores a value that passes, and brings it into force
at once in HALTED. The last three checks take the other settings as stored, pending or not, which for STREAK_ORDER is
the model's choice (log 67). SETTING-READ returns the value stored, and refuses an unknown id. The ranges of the 34
settings are those of R192, each in its step (0.1 for DISPATCH_MARK, REST_SPEED, GEAR_RATIO and ACC_DROP_MAX),
FRAME_PERIOD one of 5, 10 and 20 ms. A setting in range that is stored is the value read back, and no other setting
changes. -/
def Obligations.SettingsAreCheckedStoredAndRead : Prop :=
  (∀ (tag id : Byte) (value : BitVec 32) (s : State), CanTake s → tag ≠ 0#8 →
      let n := id.toNat
      let g := s.hli.stored.set value.toInt.toNat n
      let no (c : RClass) (d : Detail) : Host.Outcome State Fault Refusal := .next (s.turnedAway 0x84 tag c d n)
      exec (.settingWrite tag id value) s =
        if n < 1 ∨ 34 < n then no .range .setting
        else if settingInRange n value.toInt = false then no .range .value
        else if n ≤ 5 ∧ s.dsc.gov ≠ .halted then no .state .notHalted
        else if (29 ≤ n ∧ n ≤ 32) ∧ s.trc.st ≠ .idle then no .state .notIdle
        else if n ≤ 2 ∧ 10 * g.framePeriod < g.dispatchMark + 5 then no .range .markPeriod
        else if (3 ≤ n ∧ n ≤ 5) ∧ 64 < g.acqBudget + g.dispatchBudget + g.serviceBudget then no .range .budgetSum
        else if (n = 8 ∨ n = 9) ∧ g.streakExclude ≤ g.streakSuspect then no .range .streakOrder
        else if s.dsc.gov = .halted then
          .next ({ s with hli.stored := g, hli.force := s.hli.force.set value.toInt.toNat n }.answered 0x84 tag [])
        else .next ({ s with hli.stored := g }.answered 0x84 tag []))
  ∧ (∀ (tag id : Byte) (s : State), CanTake s → tag ≠ 0#8 →
      exec (.settingRead tag id) s =
        .next (if id.toNat < 1 ∨ 34 < id.toNat then s.turnedAway 0x85 tag .range .setting id.toNat
          else s.answered 0x85 tag (vQuant (s.hli.stored.get id.toNat))))
  ∧ (let ranges : List (Int × Int) := [(5, 20), (5, 195), (1, 64), (1, 64), (0, 64), (20, 2000), (1, 30), (1, 254), (2, 255),
      (500, 2500), (50, 600), (0, 200000), (1, 100), (10, 600), (1, 500), (1, 40), (1, 100), (2, 50), (2, 50), (500, 10000),
      (5, 60), (20, 600), (100, 10000), (1, 500), (100, 30000), (0, 15), (5, 30), (1, 100), (0, 1), (1, 64), (0, 4096),
      (0, 1), (0, 1), (0, 31)]
    let value (n : Nat) (g : Settings) : Option Nat := [g.framePeriod, g.dispatchMark, g.acqBudget, g.dispatchBudget,
      g.serviceBudget, g.demandTimeout, g.restSpeed, g.streakSuspect, g.streakExclude, g.wheelRadius, g.gearRatio,
      g.strutTare, g.payloadGain, g.ratedPayload, g.derateHold, g.steerRate, g.torqueSlew, g.slipLimit, g.slideLimit,
      g.ratedRetardPower, g.baseSpeed, g.emptyMass, g.gridCool, g.gridEmax, g.stringNominal, g.yawGain, g.accMin,
      g.accDropMax, g.recordMode, g.recordBlock, g.recordPost, g.recordTrigger, g.integCapture, g.noticeMask][n - 1]?
    ∀ (n : Nat) (v : Int) (g : Settings), 1 ≤ n → n ≤ 34 →
      (settingInRange n v = true ↔
          (∃ low high, ranges[n - 1]? = some (low, high) ∧ low ≤ v ∧ v ≤ high) ∧ (n = 1 → v = 5 ∨ v = 10 ∨ v = 20))
        ∧ value n g = some (g.get n)
        ∧ (settingInRange n v = true → (((g.set v.toNat n).get n : Nat) : Int) = v)
        ∧ ∀ m, m ≠ n → (g.set v.toNat n).get m = g.get m)

/-- TABLE-CURSOR makes its three checks in order and sets the cursor whole. TABLE-WRITE makes the HLI's checks, hands
the entries to the table's owner, and moves the cursor in both incrementing modes, to at most the table's last index; a
refused transfer changes nothing. TABLE-READ returns the entries as they stand, in the model's byte order (R198, log
22), changes nothing but what reads through the integrity monitor repair, and moves the cursor in mode ON-READ-AND-WRITE
alone. A TABLE-WRITE of one acquisition entry: taken in HALTED only; the checks of R42 in their order on an entry
written valid, then no second valid entry of its function for its signal; the entry is stored with its CORRUPT mark
clear, or wholly zero when written not valid, with the bits a pending injection flips, which is then cleared (R181; the
bits are free, log 13), and no other entry changes. That the duplicate check looks at every valid stored entry, a
CORRUPT one included, is the model's reading (log 47). A TABLE-WRITE of one record set entry: taken in IDLE with no
RECORD-FIND running (the order of the two refusals is the model's, log 61); the set as it would stand is checked for ids
outside the catalog, for one id twice and for a gap: that each check goes over the whole set, in this order, with the
later of two entries as the offending one, is the model's choice (log 33); stored, it empties the ring. A valid byte
other than 0 is taken as valid (log 27). The bytes: each field of an acquisition or screening entry is read from its
bits, and such an entry with no bit flipped is read back as written, reserved bits 0, CORRUPT mark and fail count as
they stand; entries of tables 3 to 7 read as their layouts give them, past the last record as zeros; that a trip's
detail is sent as its low 16 bits is the model's choice (log 50). Several entries are read in order, with no bit flipped
in tables 1 and 2 changing nothing. -/
def Obligations.TableRequestsMoveEntriesAndTheCursor : Prop :=
  (∀ (tag table : Byte) (index : BitVec 16) (mode : Byte) (s : State), CanTake s → tag ≠ 0#8 →
      exec (.tableCursor tag table index mode) s =
        .next (if table.toNat < 1 ∨ 7 < table.toNat then s.turnedAway 0x86 tag .range .field 1
          else if [64, 96, 12, 32, 24, 8, 21].getD (table.toNat - 1) 0 ≤ index.toNat then s.turnedAway 0x86 tag .range .field 2
          else if mode = 0#8 then { s with hli.cursor := ⟨table.toNat, index.toNat, .none⟩ }.answered 0x86 tag []
          else if mode = 1#8 then { s with hli.cursor := ⟨table.toNat, index.toNat, .onReadAndWrite⟩ }.answered 0x86 tag []
          else if mode = 2#8 then { s with hli.cursor := ⟨table.toNat, index.toNat, .onWriteOnly⟩ }.answered 0x86 tag []
          else s.turnedAway 0x86 tag .range .field 3))
  ∧ (∀ (tag : Byte) (data : List Byte) (s : State), CanTake s → tag ≠ 0#8 →
      let c := s.hli.cursor
      let n := data.length / entrySize c.table
      exec (.tableWrite tag data) s =
        if data.length % entrySize c.table ≠ 0 ∨ n = 0 then .next (s.turnedAway 0x87 tag .format .length 7)
        else if 3 < c.table then .next (s.turnedAway 0x87 tag .format .readOnly c.table)
        else if tableSize c.table < c.index + n then .next (s.turnedAway 0x87 tag .range .pastEnd c.index)
        else
          match writeTable c.table c.index (chunks (entrySize c.table) n data) s with
          | .error (cls, d, q) => .next (s.turnedAway 0x87 tag cls d q)
          | .ok t =>
            .next ({ t with hli.cursor := if c.mode = CursorMode.none then c
                      else { c with index := min (c.index + n) (tableSize c.table - 1) } }.answered 0x87 tag []))
  ∧ (∀ (tag count : Byte) (s : State), CanTake s → tag ≠ 0#8 →
      let c := s.hli.cursor
      let n := count.toNat
      let r := readEntries c.table (List.range' c.index n) s
      exec (.tableRead tag count) s =
        .next (if n = 0 then s.turnedAway 0x88 tag .format .length 8
          else if tableSize c.table < c.index + n then s.turnedAway 0x88 tag .range .pastEnd c.index
          else
            { r.2 with hli.cursor := if c.mode = CursorMode.onReadAndWrite
                then { c with index := min (c.index + n) (tableSize c.table - 1) } else c }.answered 0x88 tag
              (vList id r.1)))
  ∧ (∀ (tag : Byte) (data : List Byte) (s : State), CanTake s → tag ≠ 0#8 → s.hli.cursor.table = 1 → s.hli.cursor.index < 64 →
      s.hli.cursor.mode = .none → s.slc.acq.length = 64 → data.length = 8 →
      let e := decodeAcq data
      let i := s.hli.cursor.index
      let no (d : Detail) (n : Nat) : Host.Outcome State Fault Refusal := .next (s.turnedAway 0x87 tag .range d n)
      let clash (j : Nat) : Prop := ∃ p : Prot AcqEntry, s.slc.acq[j]? = some p ∧ p.val.valid = true ∧ p.val.func = e.func
        ∧ p.val.signal = e.signal
      let bad : Option Detail :=
        if e.valid = false then none
        else if e.addr < 1 ∨ 47 < e.addr then some .field
        else if ¬(e.func = .read ∧ 1 ≤ e.signal ∧ e.signal ≤ 34 ∨ e.func = .write ∧ 40 ≤ e.signal ∧ e.signal ≤ 48) then
          some .signalClass
        else if e.divisor ≤ e.phase then some .field
        else if (e.settle = .span ∨ e.settle = .persist) ∧ e.func = .write then some .settle
        else if 1 < e.span ∧ e.settle ≠ .span then some .settle
        else if 47 < e.addr + e.span - 1 then some .field
        else none
      (s.dsc.gov ≠ .halted → exec (.tableWrite tag data) s = .next (s.turnedAway 0x87 tag .state .notHalted 0))
        ∧ (∀ d, s.dsc.gov = .halted → bad = some d → exec (.tableWrite tag data) s = no d i)
        ∧ (s.dsc.gov = .halted → bad = none →
          (∀ (j k : Nat) (p q : Prot AcqEntry), j < k → s.slc.acq[j]? = some p → s.slc.acq[k]? = some q → p.val.valid = true → q.val.valid = true →
            p.val.func = q.val.func → p.val.signal ≠ q.val.signal) →
          (∀ j, e.valid = true → j ≠ i → clash j → exec (.tableWrite tag data) s = no .duplicateSignal (max i j))
          ∧ ((e.valid = false ∨ ∀ j, j ≠ i → ¬clash j) →
            ∃ (fs : List Nat) (n : Nat), Struck s.imn.acq.inject fs ∧ (s.imn.acq.inject = .none → n = s.imn.freeCount)
              ∧ exec (.tableWrite tag data) s = .next ({ s with
                slc.acq := s.slc.acq.set i ⟨if e.valid then { e with corrupt := false } else
                  ⟨false, .read, 0, 0, false, .strict, 0, 1, false, 0, 1, 0, false⟩, fs⟩
                imn.acq.inject := .none, imn.freeCount := n }.answered 0x87 tag []))))
  ∧ (∀ (tag : Byte) (v : Byte) (id : Byte) (s : State), CanTake s → tag ≠ 0#8 → s.hli.cursor.table = 3 →
      s.hli.cursor.index < 12 → s.hli.cursor.mode = .none → s.trc.recset.length = 12 →
      let i := s.hli.cursor.index
      let e : Option Nat := if v = 0#8 then none else some id.toNat
      let t := s.trc.recset.set i e
      let no (c : RClass) (d : Detail) (n : Nat) : Host.Outcome State Fault Refusal := .next (s.turnedAway 0x87 tag c d n)
      (s.trc.st ≠ .idle → exec (.tableWrite tag [v, id]) s = no .state .notIdle 0)
        ∧ (s.trc.st = .idle → s.trc.find.isSome = true → exec (.tableWrite tag [v, id]) s = no .state .findRunning 0)
        ∧ (s.trc.st = .idle → s.trc.find = none → (∀ n, some n ∈ s.trc.recset → inCatalog n = true) →
          (∀ n, e = some n → inCatalog n = false → exec (.tableWrite tag [v, id]) s = no .range .signal i)
          ∧ ((∀ n, e = some n → inCatalog n = true) →
            (∀ q : Nat, (∃ n j : Nat, j < q ∧ t[j]? = some (some n) ∧ t[q]? = some (some n)) →
              (∀ m : Nat, m < q → ¬∃ n j : Nat, j < m ∧ t[j]? = some (some n) ∧ t[m]? = some (some n)) →
              exec (.tableWrite tag [v, id]) s = no .range .duplicateSignal q)
            ∧ ((∀ (n j q : Nat), j < q → t[j]? = some (some n) → t[q]? ≠ some (some n)) →
              (∀ q : Nat, (∃ n j : Nat, j < q ∧ t[j]? = some none ∧ t[q]? = some (some n)) →
                (∀ m : Nat, m < q → ¬∃ n j : Nat, j < m ∧ t[j]? = some none ∧ t[m]? = some (some n)) →
                exec (.tableWrite tag [v, id]) s = no .range .gap q)
              ∧ ((∀ (n j q : Nat), j < q → t[j]? = some none → t[q]? ≠ some (some n)) →
                exec (.tableWrite tag [v, id]) s = .next ({ s with
                  trc.recset := t, trc.ring := [], trc.nextSlot := 0, trc.unread := 0, trc.cursor := 0, trc.marks := []
                  trc.missed := 0, trc.announced := false }.answered 0x87 tag []))))))
  ∧ (let one (n : Nat) : Byte := BitVec.ofNat 8 n
    let mark (b : Bool) (n : Nat) : Nat := if b then n else 0
    let two (n : Nat) : List Byte := [one (n / 256), one n]
    let signed (z : Int) : List Byte := [BitVec.ofInt 8 (z / 256), BitVec.ofInt 8 z]
    let six (n : Nat) : List Byte := [5, 4, 3, 2, 1, 0].map (fun k => one (n / 256 ^ k))
    let zeros (n : Nat) : List Byte := List.replicate n 0#8
    (∀ (i : Nat) (d0 d1 d2 d3 d4 d5 d6 d7 : Byte) (c : Bool) (s : State),
        let e := decodeAcq [d0, d1, d2, d3, d4, d5, d6, d7]
        e.valid = d0.getLsbD 7 ∧ e.func = (if d0.getLsbD 6 then .write else .read) ∧ e.size32 = d0.getLsbD 5
          ∧ e.tolerate = d0.getLsbD 4
          ∧ [Settle.strict, .lenient, .persist, .span][d0.toNat / 4 % 4]? = some e.settle ∧ e.span = d0.toNat % 4 + 1
          ∧ e.addr = d1.toNat ∧ e.retry = d2.toNat / 16 % 8 ∧ e.channel = d2.toNat % 8 ∧ e.signal = d3.toNat
          ∧ e.divisor = 2 ^ (d4.toNat / 16 % 4) ∧ e.phase = d4.toNat % 8
          ∧ (s.slc.acq[i]? = some ⟨{ e with corrupt := c }, []⟩ → readEntry 1 i s =
              ([d0, d1, d2 &&& 0x77#8, d3, d4 &&& 0x37#8, one (mark c 1), 0#8, 0#8], s)))
    ∧ (∀ (i n : Nat) (d0 d1 d2 d3 d4 d5 d6 d7 d8 d9 d10 d11 : Byte) (c : Bool) (s : State),
        let e := decodeScreen [d0, d1, d2, d3, d4, d5, d6, d7, d8, d9, d10, d11]
        e.valid = d0.getLsbD 7
          ∧ [ScreenTest.range, .step, .agree, .unknown][d0.toNat / 16 % 4]? = some e.test
          ∧ [FailAction.hold, .bad, .subst, .unknown][d0.toNat % 4]? = some e.action
          ∧ e.signal = d1.toNat ∧ e.partner = d2.toNat ∧ e.low = (d4 ++ d5).toInt ∧ e.high = (d6 ++ d7).toInt
          ∧ (s.sgs.screen[i]? = some ⟨{ e with failCount := n, corrupt := c }, []⟩ → readEntry 2 i s =
              ([d0 &&& 0xB3#8, d1, d2, one (mark c 1), d4, d5, d6, d7] ++ two n ++ zeros 2, s)))
    ∧ (∀ (i : Nat) (s : State),
        (∀ v : Option Nat, s.trc.recset[i]? = some v → readEntry 3 i s =
            ((match v with | some id => [1#8, one id] | none => zeros 2), s))
          ∧ readEntry 4 i s = ((match s.slc.dir[i]? with
            | some e => [one (128 + [StationState.enrolled, .suspect, .excluded].idxOf e.state), one e.addr,
                one ([Kind.inverter, .chopper, .steer, .sense].idxOf e.kind + 1), one e.revision, one e.streak]
                ++ two e.total ++ [one ([FailKind.none, .noReply, .check, .untaken].idxOf e.lastFail)]
            | none => zeros 8), s)
          ∧ readEntry 5 i s = ((match s.epu.derates[i]? with
            | some e => [one (128 + mark e.holding 64 + 16 * [DerateTarget.left, .right, .vehicle].idxOf e.target
                  + [DerateKind.propel, .retard, .torque, .speed].idxOf e.kind),
                one ([DerateCause.motorHot, .inverterHot, .tempUnknown, .slipPersist, .slipRefLost, .payloadOver, .gridHeat,
                  .gridWithdrawn, .dcLinkHigh, .steerTrack, .accLow, .stationSuspect, .ambientUnknown].idxOf e.cause + 1)]
                ++ signed e.limit ++ two e.holdRemaining ++ six e.entered
            | none => zeros 12), s)
          ∧ readEntry 6 i s = ((match s.epu.trips[i]? with
            | some e => [one (128 + mark e.clearable 64 + mark (!e.severe) 32 +
                ([TripCause.inverterFaultL, .inverterFaultR, .motorOvertempL, .motorOvertempR, .dcLinkOver, .chopperFault,
                  .steerSupply, .steerAngleLost, .speedLost, .loopLost, .demandLost, .stopLine, .tableFault, .overflow,
                  .payloadGross, .gridOvertempA, .gridOvertempB, .screenFault, .overspeed].idxOf e.cause + 1))]
                ++ six e.first ++ six e.last ++ [one e.recurrences] ++ signed e.detail
            | none => zeros 16), s)
          ∧ (let cls (c : StringClass) : Byte := one ([StringClass.none, .good, .drift, .open, .short].idxOf c)
            let k := s.rgv.check
            (∀ e, i < 16 → k.results[i]? = some e →
                readEntry 7 i s = ([cls e.cls, 0#8] ++ two e.resistance ++ six e.frame ++ zeros 2, s))
              ∧ (16 ≤ i → i < 20 → readEntry 7 i s = ((match k.anomalies[i - 16]? with
                | some e => [0x80#8, (match e.grid with | .a => 1#8 | .b => 2#8), one e.string, cls e.cls] ++ two e.resistance
                    ++ zeros 6
                | none => zeros 12), s))
              ∧ (i = 20 → readEntry 7 i s = ([one (mark k.more 128), one k.anomalies.length,
                one ([Grids.none, .a, .b, .both].idxOf k.named), one s.rgv.gridA.good, one s.rgv.gridB.good] ++ zeros 7, s))))
      ∧ ∀ (table : Nat) (is : List Nat) (s : State), (∀ q ∈ s.slc.acq, q.flips = []) →
        (∀ q ∈ s.sgs.screen, q.flips = []) →
        readEntries table is s = (is.map (fun j => (readEntry table j s).1), s))

/-- FLAGS-READ returns the sixteen flags and the first-skipped index and clears them; the six flags that stand for a
condition are set again while their condition is present, and no other flag stands. COUNTS-READ returns the ten
counters with their marks and sets them all to 0; a rise past 2,147,483,647 takes a counter to 0 and sets its mark, any
other rise adds one and keeps the mark. -/
def Obligations.FlagsAndCountersAreReturnedAndCleared : Prop :=
  (∀ (tag : Byte) (s : State), CanTake s → tag ≠ 0#8 →
      ∃ fl : BitVec 16,
        exec (.flagsRead tag) s =
          .next ({ s with hli.flags := fl, hli.firstSkipped := none }.answered 0x8A tag
            (beBytes 2 s.hli.flags.toNat ++ beBytes 1 (s.hli.firstSkipped.getD 255)))
        ∧ ∀ f : Flag, fl.getLsbD f.bit =
            match f with
            | .loopWasDown => s.slc.loopState != .up
            | .stationSuspect => s.slc.dir.any (·.state == .suspect)
            | .stationExcluded => s.slc.dir.any (·.state == .excluded)
            | .signalBad => s.sgs.image.any (·.val.quality == .bad)
            | .propelRetard => s.tal.propelRetard
            | .retardShort => s.rgv.hold == .short
            | _ => false)
  ∧ ((∀ (tag : Byte) (s : State), CanTake s → tag ≠ 0#8 →
        exec (.countsRead tag) s =
          .next ({ s with hli.counters := .zero }.answered 0x8B tag (countersBytes s.hli.counters)))
      ∧ ∀ c : Counter, c.val ≤ 2147483647 →
          c.rise.val ≤ 2147483647 ∧ (c.val = 2147483647 → c.rise = ⟨0, true⟩)
            ∧ (c.val < 2147483647 → c.rise = ⟨c.val + 1, c.overflowed⟩))

/-! ### Integrity (chapter 11) -/

/-- INTEGRITY-INJECT makes its three checks in order; SINGLE or DOUBLE becomes the pending injection of the memory
named, NONE cancels it, and the other memories keep theirs (R180). -/
def Obligations.IntegrityInjectChecksInOrderAndPends : Prop :=
  ∀ (tag mem kind : Byte) (s : State), CanTake s → tag ≠ 0#8 →
    let no (d : Detail) (c : RClass) (q : Nat) : Host.Outcome State Fault Refusal := .next (s.turnedAway 0x9A tag c d q)
    let k : Inject := if kind = 0#8 then .none else if kind = 1#8 then .single else .double
    exec (.integrityInject tag mem kind) s =
      if mem.toNat < 1 ∨ 4 < mem.toNat then no .field .range 1
      else if 2 < kind.toNat then no .field .range 2
      else if s.dsc.gov = .drive ∨ s.dsc.gov = .safeHold then no .governing .state (govCode s.dsc.gov)
      else if mem = 1#8 then .next ({ s with imn.acq.inject := k }.answered 0x9A tag [])
      else if mem = 2#8 then .next ({ s with imn.screen.inject := k }.answered 0x9A tag [])
      else if mem = 3#8 then .next ({ s with imn.image.inject := k }.answered 0x9A tag [])
      else .next ({ s with imn.record.inject := k }.answered 0x9A tag [])

/-- A read of an acquisition entry through the integrity monitor: with no flipped bit it is handed on, its CORRUPT
mark too, and nothing changes; a single-bit error is corrected, counted, captured and latched; with more flipped bits
the entry gets its CORRUPT mark, and the error is counted, captured and latched. What the damaged entry reads as is
free (log 12). So do reads of the screening table, the image and the ring: a corrupt image entry read is BAD, with its
latched-bad mark, and latches SIGNAL_BAD if it was not BAD before; a corrupt ring word is not repaired, is read with
the corrupt mark and is counted at each read. Addresses are the entry index, the signal id and the ring word. Bits of
a stored word that flip of themselves are the bits named, in the word named of the memory named: a table entry by
index, an image entry by signal id, a ring word by its place in the ring; the contents to be read back, the other
words and the rest of the state stay, and a bit that flips twice is sound again. Three clauses are the model's, not
the spec's: bits that flip in an entry that already has its CORRUPT mark are a further error (log 66), a damaged image
entry keeps its partner (log 15), and an address that holds no word changes nothing (log 2, a choice). The places of
the check bits are the model's (log 12), and so are the places of ring words (log 16). A pending injection is taken by
the next write of its memory and then cleared, one bit flipped for SINGLE and two for DOUBLE (which ones is free, log
13): a TABLE-WRITE of table 1 or 2 carries it in the entry at its first index, a fail count update in its entry, whose
mark stays, a publication and the entry to HALTED in the image entry of signal 1. INTEGRITY-READ of the memory ACQ
(the other three are read alike): the reply carries its counts, captures, capture mode and pending injection, in the
model's order (log 22); bit 0 then clears the corrected count and capture, bit 1 the uncorrectable ones. -/
def Obligations.IntegrityErrorsAreMetCountedAndRead : Prop :=
  (∀ (i : Nat) (e : AcqEntry) (fs : List Nat) (s : State), s.slc.acq[i]? = some ⟨e, fs⟩ →
      (fs = [] → readAcq i s = (e, s))
        ∧ (∀ b, fs = [b] →
            (readAcq i s).1 = e
            ∧ (readAcq i s).2.slc.acq[i]? = some ⟨e, []⟩
            ∧ (readAcq i s).2.imn.acq.corrected = (if s.imn.acq.corrected < 255 then s.imn.acq.corrected + 1 else 255)
            ∧ (readAcq i s).2.imn.acq.capCorrected =
                (if s.hli.force.integCapture = 0 then s.imn.acq.capCorrected <|> some i else some i)
            ∧ (readAcq i s).2.hli.flags = s.hli.flags ||| Flag.integCorrected.mask)
        ∧ (2 ≤ fs.length →
            (readAcq i s).1.corrupt = true
            ∧ (readAcq i s).2.slc.acq[i]? = some ⟨(readAcq i s).1, []⟩
            ∧ (readAcq i s).2.imn.acq.uncorrectable =
                (if s.imn.acq.uncorrectable < 15 then s.imn.acq.uncorrectable + 1 else 15)
            ∧ (readAcq i s).2.imn.acq.capUncorrectable =
                (if s.hli.force.integCapture = 0 then s.imn.acq.capUncorrectable <|> some i else some i)
            ∧ (readAcq i s).2.hli.flags = s.hli.flags ||| Flag.integUncorrectable.mask))
  ∧ (∀ (a : Nat) (fs : List Nat) (s : State),
      let held (h : Option Nat) (addr : Nat) : Option Nat := if s.hli.force.integCapture = 0 then h <|> some addr else some addr
      let corrected (g : MemGuard) (addr : Nat) : MemGuard := { g with
        corrected := if g.corrected < 255 then g.corrected + 1 else 255, capCorrected := held g.capCorrected addr }
      let uncorrectable (g : MemGuard) (addr : Nat) : MemGuard := { g with
        uncorrectable := if g.uncorrectable < 15 then g.uncorrectable + 1 else 15
        capUncorrectable := held g.capUncorrectable addr }
      (∀ e : ScreenEntry, s.sgs.screen[a]? = some ⟨e, fs⟩ →
          (fs = [] → readScreen a s = (e, s))
            ∧ (fs.length = 1 → readScreen a s = (e, { s with
                sgs.screen := s.sgs.screen.set a ⟨e, []⟩, imn.screen := corrected s.imn.screen a
                hli.flags := s.hli.flags ||| Flag.integCorrected.mask }))
            ∧ (2 ≤ fs.length → ∃ e' : ScreenEntry, e'.corrupt = true ∧ readScreen a s = (e', { s with
                sgs.screen := s.sgs.screen.set a ⟨e', []⟩, imn.screen := uncorrectable s.imn.screen a
                hli.flags := s.hli.flags ||| Flag.integUncorrectable.mask })))
        ∧ (∀ e : ImageEntry, s.sgs.image[a - 1]? = some ⟨e, fs⟩ →
          (fs = [] → readImage a s = (e, s))
            ∧ (fs.length = 1 → readImage a s = (e, { s with
                sgs.image := s.sgs.image.set (a - 1) ⟨e, []⟩, imn.image := corrected s.imn.image a
                hli.flags := s.hli.flags ||| Flag.integCorrected.mask }))
            ∧ (2 ≤ fs.length → ∃ e' : ImageEntry, e'.quality = .bad ∧ e'.latchedBad = (e.latchedBad || e.quality != .bad)
              ∧ e'.partner = e.partner ∧ readImage a s = (e', { s with
                sgs.image := s.sgs.image.set (a - 1) ⟨e', []⟩, imn.image := uncorrectable s.imn.image a
                hli.flags := s.hli.flags ||| Flag.integUncorrectable.mask
                  ||| (if e.quality = .bad then 0 else Flag.signalBad.mask) })))
        ∧ ∀ (p : Nat) (r : RingRecord) (w : RingWord), s.trc.ring[p]? = some r → r.words[a]? = some ⟨w, fs⟩ →
          (fs = [] → readRingWord p a s = (w, false, s))
            ∧ (fs.length = 1 → readRingWord p a s = (w, false, { s with
                trc.ring := s.trc.ring.set p { r with words := r.words.set a ⟨w, []⟩ }
                imn.record := corrected s.imn.record (r.base + a), hli.flags := s.hli.flags ||| Flag.integCorrected.mask }))
            ∧ (2 ≤ fs.length → ∃ x : RingWord, readRingWord p a s = (x, true, { s with
                imn.record := uncorrectable s.imn.record (r.base + a)
                hli.flags := s.hli.flags ||| Flag.integUncorrectable.mask })))
  ∧ (∀ (a : Nat) (bits fs gs : List Nat) (s : State), Live s →
      (bits.Nodup ∧ (∀ b ∈ bits, b ∉ fs) ∧ gs = fs ++ bits ∨ ∃ b ∈ fs, bits = [b] ∧ gs = fs.erase b) →
      (∀ e, s.slc.acq[a]? = some ⟨e, fs⟩ →
          exec (.storedBitFlipped .acq a bits) s = .next { s with slc.acq := s.slc.acq.set a ⟨e, gs⟩ })
        ∧ (∀ e, s.sgs.screen[a]? = some ⟨e, fs⟩ →
          exec (.storedBitFlipped .screen a bits) s = .next { s with sgs.screen := s.sgs.screen.set a ⟨e, gs⟩ })
        ∧ (∀ e, 0 < a → s.sgs.image[a - 1]? = some ⟨e, fs⟩ →
          exec (.storedBitFlipped .image a bits) s = .next { s with sgs.image := s.sgs.image.set (a - 1) ⟨e, gs⟩ })
        ∧ (∀ i r w, s.trc.ring[i]? = some r → r.base ≤ a → r.words[a - r.base]? = some ⟨w, fs⟩ →
          (∀ j q, j ≠ i → s.trc.ring[j]? = some q → a < q.base ∨ q.base + q.words.length ≤ a) →
          exec (.storedBitFlipped .record a bits) s = .next { s with
            trc.ring := s.trc.ring.set i { r with words := r.words.set (a - r.base) ⟨w, gs⟩ } })
        ∧ (s.slc.acq.length ≤ a → exec (.storedBitFlipped .acq a bits) s = .next s)
        ∧ (s.sgs.screen.length ≤ a → exec (.storedBitFlipped .screen a bits) s = .next s)
        ∧ (a = 0 ∨ s.sgs.image.length < a → exec (.storedBitFlipped .image a bits) s = .next s)
        ∧ ((∀ r ∈ s.trc.ring, a < r.base ∨ r.base + r.words.length ≤ a) →
          exec (.storedBitFlipped .record a bits) s = .next s))
  ∧ ((∀ (i : Nat) (e : ScreenEntry) (s : State), i < s.sgs.screen.length →
        ∃ fs : List Nat, Struck s.imn.screen.inject fs
          ∧ (countFailure i e s).sgs.screen[i]? =
              some ⟨{ e with failCount := if e.failCount < 65535 then e.failCount + 1 else 65535 }, fs⟩
          ∧ (countFailure i e s).imn.screen = { s.imn.screen with inject := .none })
      ∧ (∀ (i : Nat) (e : AcqEntry) (es : List AcqEntry) (s t : State), writeAcq i (e :: es) s = .ok t →
        ∃ (fs : List Nat) (n : Nat), Struck s.imn.acq.inject fs ∧ t = { s with
          slc.acq := splice s.slc.acq i (⟨acqStored e, fs⟩ :: es.map (fun e => ⟨acqStored e, []⟩))
          imn.acq.inject := .none, imn.freeCount := n })
      ∧ (∀ (i : Nat) (e : ScreenEntry) (es : List ScreenEntry) (s t : State), writeScreen i (e :: es) s = .ok t →
        ∃ (fs : List Nat) (n : Nat), Struck s.imn.screen.inject fs ∧ t = { s with
          sgs.screen := splice s.sgs.screen i (⟨screenStored e, fs⟩ :: es.map (fun e => ⟨screenStored e, []⟩))
          imn.screen.inject := .none, imn.freeCount := n })
      ∧ (∀ (old : List ImageEntry) (s : State),
        let t := publishImage old s
        ∃ fs : List Nat, Struck s.imn.image.inject fs ∧ t.imn.image = { s.imn.image with inject := .none }
          ∧ t.sgs.image = (screenSignals old s.slc.delivery (screenContent s) inputIds s).1.mapIdx (fun i e => ⟨e, if i = 0 then fs else []⟩))
      ∧ ∀ (tag : Byte) (s : State), CanTake s → tag ≠ 0#8 → s.dsc.gov = .standby →
        ∃ (t : State) (fs : List Nat), exec (.modeRequest tag 0) s = .next t ∧ Struck s.imn.image.inject fs
          ∧ t.imn.image = { s.imn.image with inject := .none } ∧ t.sgs.image = s.sgs.image.mapIdx (fun i p =>
            ⟨⟨0, .absent, 65535, 0, p.val.latchedBad, none⟩, if i = 0 then fs else []⟩))
  ∧ ((∀ (tag mem flags : Byte) (s : State), CanTake s → tag ≠ 0#8 → mem.toNat < 1 ∨ 4 < mem.toNat →
        exec (.integrityRead tag mem flags) s = .next (s.turnedAway 0x99 tag .range .field 1))
      ∧ ∀ (tag flags : Byte) (m : Mem) (s : State), CanTake s → tag ≠ 0#8 →
        let code : Byte := match m with | .acq => 1 | .screen => 2 | .image => 3 | .record => 4
        let g := s.imn.guard m
        ∃ t : State, exec (.integrityRead tag code flags) s =
            .next (t.answered 0x99 tag (vCount g.corrected ++ vCount g.uncorrectable ++ vOpt vCount 0 g.capCorrected
              ++ vOpt vCount 0 g.capUncorrectable ++ vEnum s.hli.force.integCapture ++ vEnum (injectCode g.inject)))
          ∧ t.imn.guard m = ⟨if flags.getLsbD 0 then 0 else g.corrected, if flags.getLsbD 1 then 0 else g.uncorrectable,
              if flags.getLsbD 0 then none else g.capCorrected, if flags.getLsbD 1 then none else g.capUncorrectable,
              g.inject⟩
          ∧ (∀ m', m' ≠ m → t.imn.guard m' = s.imn.guard m') ∧ { t with imn := s.imn } = s)

/-! ### Governing states, demand, STOP line, resets (chapter 1) -/

/-- A MODE-REQUEST for the current state is DONE and changes nothing; one for a transition outside the table of R3 is
refused with STATE/TRANSITION and the current state; a code outside the list is refused (the qualifier 0 there is the
model's reading, log 24). STANDBY is taken from DRIVE and SAFE-HOLD at rest, and refused with STATE/NOT_AT_REST
otherwise, whatever trips are held, and the outputs and the allocator stay as they were (log 6); at rest is a speed at
or below REST_SPEED of quality FRESH or KEPT. STANDBY to HALTED is always taken: no procedure governs on, the frames
stop, every input signal is ABSENT, and the DONE reply is queued last; trips, derates, tables, settings and the
directory stay. Entry to HALTED ends the checks: a running grid element check ends ABORTED with cause HALTED and its
PROC notice, ahead of the STATE notice and the DONE reply; a running steering supply check has its pending outcome
fixed as ABORTED with cause HALTED (an abort or a supply raise before it stands) and goes to RELEASE, its release ACT
joining as the last item, the isolate ACT leaving unless in its slot, and no second release joining in RELEASE. Served
in HALTED, the release's outcome writes the result ABORTED/HALTED with its PROC notice. An outstanding deferred request
stays so: R7 ends none. -/
def Obligations.ModeRequestsFollowTheTransitionTable : Prop :=
  (∀ (tag target : Byte) (s : State), CanTake s → tag ≠ 0#8 →
      (3 < target.toNat → exec (.modeRequest tag target) s = .next (s.turnedAway 0x82 tag .range .field 0))
        ∧ (target.toNat = govCode s.dsc.gov → exec (.modeRequest tag target) s = .next (s.answered 0x82 tag []))
        ∧ ((s.dsc.gov, target.toNat) ∈ [(Gov.halted, 2), (.halted, 3), (.standby, 3), (.drive, 0), (.drive, 3),
              (.safeHold, 0), (.safeHold, 2)] →
            exec (.modeRequest tag target) s = .next (s.turnedAway 0x82 tag .state .transition (govCode s.dsc.gov))))
  ∧ (∀ (tag : Byte) (s : State), CanTake s → tag ≠ 0#8 → s.dsc.gov = .drive ∨ s.dsc.gov = .safeHold →
      exec (.modeRequest tag 1) s =
        if s.sgs.vspd.value ≤ s.hli.force.restSpeed ∧ (s.sgs.vspd.quality = .fresh ∨ s.sgs.vspd.quality = .kept) then
          .next ({ notify (.state s.dsc.gov .standby .request) { s with dsc.gov := .standby } with
            rgv.rtr := none, rgv.rtrOut := 0 }.answered 0x82 tag [])
        else .next (s.turnedAway 0x82 tag .state .notAtRest 0))
  ∧ (∀ (tag : Byte) (s : State), CanTake s → tag ≠ 0#8 → s.dsc.gov = .standby →
      ∃ t, exec (.modeRequest tag 0) s = .next t
        ∧ t.dsc = { s.dsc with gov := .halted } ∧ t.slc.frameTimer = false ∧ t.slc.phase = .idle ∧ t.slc.run = none
        ∧ (∀ p ∈ t.sgs.image, p.val.quality = .absent) ∧ t.rgv.check.run = none ∧ t.rgv.hold = .off
        ∧ t.hli.tx.getLast? = some (.reply false 0x82 tag (.done []))
        ∧ t.epu.trips = s.epu.trips ∧ t.epu.derates = s.epu.derates ∧ t.slc.acq = s.slc.acq ∧ t.sgs.screen = s.sgs.screen
        ∧ t.slc.dir = s.slc.dir ∧ t.hli.stored = s.hli.stored ∧ t.slc.frameNo = s.slc.frameNo)
  ∧ ((∀ (tag : Byte) (s : State), CanTake s → tag ≠ 0#8 → s.dsc.gov = .standby →
        ∃ t, exec (.modeRequest tag 0) s = .next t ∧ t.hli.deferred = s.hli.deferred
          ∧ (∀ r, s.rgv.check.run = some r →
              t.rgv.check.last = ⟨.aborted, .halted, r.grids, r.start, s.slc.frameNo, r.results.length, none⟩)
          ∧ (s.hli.force.noticeMask.testBit 0 = true → s.hli.force.noticeMask.testBit 3 = true →
              s.hli.tx.countP (·.isNotice) ≤ 4 → t.hli.tx = s.hli.tx
                ++ (if s.rgv.check.run.isSome then [Msg.notice (.proc 1 3 .halted s.slc.frameNo)] else [])
                ++ [.notice (.state .standby .halted .request), .reply false 0x82 tag (.done [])])
          ∧ (s.sgv.run = none → t.sgv = { s.sgv with staged := none })
          ∧ (∀ r, s.sgv.run = some r →
              let release : Item := ⟨.steerCheck, r.addr, 6, .act, false, 0, none, false, 0, false⟩
              t.sgv = { s.sgv with staged := none, run := some { r with
                phase := .release
                pending := match r.pending with
                  | some (.aborted, c) => some (.aborted, c)
                  | some (.none, c) => some (.none, c)
                  | _ => some (.aborted, .halted) } }
              ∧ (r.phase ≠ .release → (t.slc.queue ++ t.slc.held).getLast? = some release)
              ∧ (r.phase ≠ .release → s.slc.slot = none →
                  (t.slc.queue ++ t.slc.held).filter (·.claimant == .steerCheck) = [release])
              ∧ (r.phase = .release → (t.slc.queue ++ t.slc.held).filter (·.claimant == .steerCheck) =
                  (s.slc.queue ++ s.slc.held).filter (·.claimant == .steerCheck))))
      ∧ ∀ (it : Item) (its : List Item) (x : SlotEx) (r : SteerRun) (s : State), Live s → s.dsc.gov = .halted →
        s.slc.phase = .idle → s.slc.slot = some x → x.claim = .service → x.afterReset = false → s.slc.queue = it :: its →
        it.claimant = .steerCheck → it.discard = false → it.retry = none → s.slc.held = [] → s.rgv.check.run = none →
        s.sgv.run = some r → r.phase = .release → r.pending = some (.aborted, .halted) →
        let ended (t : State) (unconfirmed : Bool) : Prop := t.slc.queue = its ∧ t.slc.slot = none
          ∧ t.sgv = { s.sgv with
            run := none, isolation := if unconfirmed then s.sgv.isolation else false
            result := ⟨.aborted, .halted, r.init, r.final, s.slc.frameNo, unconfirmed⟩ }
          ∧ (s.hli.force.noticeMask.testBit 3 = true → s.hli.tx.countP (·.isNotice) < 6 →
              t.hli.tx = s.hli.tx ++ [.notice (.proc 2 3 .halted s.slc.frameNo)])
        (∀ (ws : List RxWord) (h : Heard), heardReply x ws = some h →
            ∃ t, exec (.exchangeComplete ws) s = .next t
              ∧ ended t (!(h.outcome == .takenReady || h.outcome == .takenNotReady)))
          ∧ ∃ t, exec .slotTimeout s = .next t ∧ ended t true)

/-- HALTED to STANDBY: the four conditions of R4 in order; the transition makes its notice ahead of the DONE reply. A
direct exchange is outstanding for LOOP_BUSY while its item is in the service queue; that one left in its slot by a
governor reset does not count is the model's choice (log 71). Entry to STANDBY from HALTED: the frames start, every
output signal is initial, the allocator, the retard governor's and the steering governor's governing values are
initial, an asserted STOP line makes its report, the postings of an earlier run are gone; the image, the tables, the
lists and the rest of the host link stay. That entry starts the frame timer, with the first frame still to start, is
deduced (log 5). STANDBY validation, of a table with no bit flipped: the first valid entry in table order that fails a
check of R60 ends it with that check's detail and the entry's index; else the first required READ, then the first
required WRITE, that no valid entry names; else the first binding of R61 that fails. Nothing changes. -/
def Obligations.StandbyEntryChecksThenStartsGoverning : Prop :=
  (∀ (tag : Byte) (s : State), CanTake s → tag ≠ 0#8 → s.dsc.gov = .halted →
      exec (.modeRequest tag 1) s =
        if s.slc.loopState ≠ .up then .next (s.turnedAway 0x82 tag .state .loopNotUp (loopCode s.slc.loopState))
        else if s.slc.scan.isSome then .next (s.turnedAway 0x82 tag .state .scanRunning 0)
        else if s.slc.queue.any (fun it => it.claimant == .loopExchange || it.claimant == .reinstate) then
          .next (s.turnedAway 0x82 tag .state .loopBusy 0)
        else
          match validate s with
          | (some (d, q), t) => .next (t.turnedAway 0x82 tag .state d q)
          | (none, t) => .next ((standbyEffects (changeState .standby .request t)).answered 0x82 tag []))
  ∧ (∀ s : State,
      let t := standbyEffects s
      t.slc.frameTimer = true ∧ t.slc.firstFrame = true ∧ t.slc.frameNo = s.slc.frameNo ∧ t.slc.posting = none
        ∧ t.out = { Outputs.initial with haul := s.out.haul }
        ∧ t.tal = { Tal.initial with propelRetard := s.tal.propelRetard }
        ∧ t.rgv.hold = .off ∧ t.rgv.integ = 0 ∧ t.sgv.ac = none ∧ t.epu.posting = .initial
        ∧ t.epu.stopReport = (s.epu.stopReport || s.dsc.stopLine)
        ∧ t.epu.trips = s.epu.trips ∧ t.epu.derates = s.epu.derates ∧ t.sgv.result = s.sgv.result
        ∧ t.slc.acq = s.slc.acq ∧ t.slc.dir = s.slc.dir ∧ t.sgs = s.sgs ∧ t.trc = s.trc ∧ t.hli = s.hli ∧ t.dsc = s.dsc)
  ∧ (∀ s : State, s.slc.acq.length = 64 → (∀ p ∈ s.slc.acq, p.flips = []) →
      let kind (n : Nat) : Option Kind :=
        if n ∈ [1, 2, 5, 6, 7, 8, 9, 10, 11, 12, 13, 14, 40, 41, 42, 43] then some .inverter
        else if n ∈ [15, 16, 17, 18, 19, 20, 21, 22, 23, 44, 45, 46, 47] then some .chopper
        else if n ∈ [28, 29, 30, 31, 48] then some .steer
        else if n ∈ [3, 4, 24, 25, 26, 27, 32, 33, 34] then some .sense
        else none
      let addrs (e : AcqEntry) : List Nat := if e.settle = .span then (List.range e.span).map (e.addr + ·) else [e.addr]
      let fails (e : AcqEntry) : Option Detail :=
        if (addrs e).all (fun a => (stationAt a s).isNone) then some .stationUnknown
        else if (addrs e).all (fun a => (stationAt a s).all (·.state == .excluded)) then some .stationExcluded
        else if (addrs e).any (fun a => (stationAt a s).any (fun st => some st.kind != kind e.signal)) then
          some .kindMismatch
        else if kind e.signal = some .chopper ∧ (e.channel = 5 ∨ e.channel = 6) ∨ kind e.signal = some .steer ∧ e.channel = 6
          then some .reservedChannel
        else if e.corrupt then some .corruptEntry
        else none
      let reads (n : Nat) : Bool := s.slc.acq.any (fun p => p.val.valid && p.val.func == .read && p.val.signal == n)
      let writes (n : Nat) : Bool := s.slc.acq.any (fun p => p.val.valid && p.val.func == .write && p.val.signal == n)
      let a (n : Nat) : Option Nat :=
        (s.slc.acq.find? (fun p => p.val.valid && p.val.func == .write && p.val.signal == n)).map (·.val.addr)
      let inputs : List Nat := [1, 2, 13, 14, 15, 20, 21, 28, 29, 31]
      let outputs : List Nat := [40, 41, 42, 43, 44, 45, 46, 47, 48]
      (∀ p ∈ s.slc.acq, p.val.valid = true → (kind p.val.signal).isSome = true) →
      (∀ i e d, s.slc.acq[i]? = some ⟨e, []⟩ → e.valid = true → fails e = some d →
          (∀ j p, j < i → s.slc.acq[j]? = some p → p.val.valid = true → fails p.val = none) →
          validate s = (some (d, i), s))
        ∧ ((∀ p ∈ s.slc.acq, p.val.valid = true → fails p.val = none) →
          validate s = (match inputs.find? (fun n => !reads n) with
            | some n => some (.missingSignal, n)
            | none =>
              match outputs.find? (fun n => !writes n) with
              | some n => some (.missingSignal, n)
              | none =>
                if a 40 ≠ a 42 then some (.binding, 42)
                else if a 41 ≠ a 43 then some (.binding, 43)
                else if a 44 ≠ a 46 then some (.binding, 46)
                else if a 45 ≠ a 47 then some (.binding, 47)
                else if a 40 = a 41 then some (.binding, 41)
                else if a 44 = a 45 then some (.binding, 45)
                else none, s)))

/-- STANDBY to DRIVE: the seven conditions of R5 in order, each with its detail and qualifier; when all hold the state
is DRIVE, the STATE notice is queued, then the DONE reply. That with both procedures running PROC_RUNNING names the
grid element check (1) is the model's choice (log 52). -/
def Obligations.DriveEntryChecksInOrder : Prop :=
  ∀ (tag : Byte) (s : State), CanTake s → tag ≠ 0#8 → s.dsc.gov = .standby →
    let no (d : Detail) (q : Nat) : Host.Outcome State Fault Refusal := .next (s.turnedAway 0x82 tag .state d q)
    exec (.modeRequest tag 2) s =
      if s.slc.loopState ≠ .up then no .loopNotUp (loopCode s.slc.loopState)
      else if s.dsc.stopLine then no .stopAsserted 0
      else if s.rgv.check.run.isSome then no .procRunning 1
      else if s.sgv.run.isSome then no .procRunning 2
      else if s.epu.trips.any (·.severe) then no .severeHeld (s.epu.trips.findIdx (·.severe))
      else if s.sgv.result.outcome ≠ .pass then no .steerCheck 0
      else if s.dsc.fresh = false then no .demandStale 0
      else if s.dsc.demand.dir ≠ .neutral ∨ s.dsc.demand.propel ≠ 0 then no .demandNotNeutral 0
      else .next ((notify (.state .standby .drive .request) { s with dsc.gov := .drive }).answered 0x82 tag [])

/-- DEMAND: each field is checked in table order; in range, the record is replaced whole, the timer restarts, the
demand is fresh and the demand-lost mark clear; out of range, the field number is the qualifier and nothing changes
(R11). Expiry of the demand timer, by governing state; with the timer stopped there is no expiry (log 36). -/
def Obligations.DemandAndItsExpiry : Prop :=
  (∀ (tag dir : Byte) (propel retard hold steer : BitVec 16) (brake : Byte) (s : State), CanTake s → tag ≠ 0#8 →
      let no (n : Nat) : Host.Outcome State Fault Refusal := .next (s.turnedAway 0x83 tag .range .field n)
      exec (.demand tag dir propel retard hold steer brake) s =
        if 2 < dir.toNat then no 1
        else if 1000 < propel.toNat then no 2
        else if 1000 < retard.toNat then no 3
        else if hold.toNat ≠ 0 ∧ (hold.toNat < 50 ∨ 500 < hold.toNat) then no 4
        else if steer.toInt < -4000 ∨ 4000 < steer.toInt then no 5
        else if 1 < brake.toNat then no 6
        else .next ({ s with
          dsc.demand := ⟨if dir = 0#8 then .neutral else if dir = 1#8 then .forward else .reverse, propel.toNat, retard.toNat,
            hold.toNat, steer.toInt, brake == 1#8⟩
          dsc.timerRunning := true, dsc.fresh := true, dsc.demandLost := false }.answered 0x83 tag []))
  ∧ (∀ s : State, Live s →
      (s.dsc.timerRunning = false → exec .demandTimerExpiry s = .next s)
        ∧ (s.dsc.timerRunning = true →
          ∃ t, exec .demandTimerExpiry s = .next t ∧ t.dsc.fresh = false ∧ t.dsc.timerRunning = false
            ∧ t.dsc.demand = s.dsc.demand
            ∧ (s.dsc.gov = .drive → t.dsc.gov = .safeHold ∧ t.dsc.demandLost = true ∧ t.epu.demandReport = true
                ∧ standing .demandTimeout t = true)
            ∧ (s.dsc.gov = .standby ∨ s.dsc.gov = .safeHold →
                t = { s with dsc.fresh := false, dsc.timerRunning := false
                             hli.flags := s.hli.flags ||| Flag.demandTimeout.mask })
            ∧ (s.dsc.gov = .halted → t = { s with dsc.fresh := false, dsc.timerRunning := false })))

/-- Assertion of the STOP line, by governing state: SAFE-HOLD from DRIVE; in STANDBY the running procedures are aborted
with cause STOP: the grid element check ends ABORTED, the steering supply check goes to phase RELEASE with its outcome
pending, and its release ACT joins the queue's tail or is held; a report to the EPU outside HALTED. A line already
asserted changes nothing (log 2); while the RESET pin holds the part only the pin changes (log 37). Release of the STOP
line records RELEASED and changes no governing state, nor anything else; while the RESET pin holds the part only the
pin changes (the model's reading, log 37). -/
def Obligations.StopLineAssertionAndRelease : Prop :=
  ((∀ s : State, s.pins.reset = true → exec .stopLineAssert s = .next { s with pins.stop := true })
      ∧ (∀ s : State, Live s → s.dsc.stopLine = true → exec .stopLineAssert s = .next s)
      ∧ ∀ s : State, Live s → s.dsc.stopLine = false →
        ∃ t, exec .stopLineAssert s = .next t ∧ t.dsc.stopLine = true ∧ t.pins.stop = true
          ∧ (s.dsc.gov = .drive → t.dsc.gov = .safeHold) ∧ (s.dsc.gov ≠ .drive → t.dsc.gov = s.dsc.gov)
          ∧ (s.dsc.gov ≠ .halted → t.epu.stopReport = true)
          ∧ (s.dsc.gov ≠ .standby → t.rgv = s.rgv ∧ t.sgv = s.sgv ∧ t.slc = s.slc)
          ∧ (s.dsc.gov = .standby → t.rgv.check.run = none)
          ∧ (∀ r, s.dsc.gov = .standby → s.rgv.check.run = some r →
              t.rgv.check.last = ⟨.aborted, .stop, r.grids, r.start, s.slc.frameNo, r.results.length, none⟩)
          ∧ (s.dsc.gov = .standby → s.sgv.run = none → t.sgv = s.sgv)
          ∧ (∀ r, s.dsc.gov = .standby → s.sgv.run = some r →
              t.sgv = { s.sgv with run := some { r with
                phase := .release
                pending := match r.pending with
                  | some (.aborted, c) => some (.aborted, c)
                  | some (.none, c) => some (.none, c)
                  | _ => some (.aborted, .stop) } }
              ∧ (r.phase ≠ .release → (t.slc.queue ++ t.slc.held).getLast? =
                  some ⟨.steerCheck, r.addr, 6, .act, false, 0, none, false, 0, false⟩)
              ∧ (r.phase ≠ .release → s.slc.slot = none → (t.slc.queue ++ t.slc.held).filter (·.claimant == .steerCheck) =
                  [⟨.steerCheck, r.addr, 6, .act, false, 0, none, false, 0, false⟩]))
          ∧ (s.dsc.gov = .halted → t = { s with dsc.stopLine := true, pins.stop := true }))
  ∧ (∀ s : State,
      exec .stopLineRelease s = .next (if s.pins.reset then { s with pins.stop := false }
        else { s with dsc.stopLine := false, pins.stop := false }))

/-- GOVERNOR-RESET is taken in every governing state: HALTED, the initial demand, procedures ended, the deferred slot
free, lists, wheel and recorder states at their governor-reset values; SUSPECT stations ENROLLED and every streak 0 at
once, or, with an exchange in its slot, at that exchange's completion, after its outcome (the order is R38's; log 11);
the STOP line, the frame number, the settings, the tables, the ring, the haul payload and the loop stay; the DONE
reply is queued last, in the reset event itself, also with an exchange in its slot, which is the model's choice (log
72). Its messages join in the order of its steps: the ABORTED reply of a deferred request, FAULT/ABORTED with
qualifier 1, the PROC notices of the checks it ends, the STATE notice, unless the state was HALTED, and the DONE
reply; a grid element check is recorded ABORTED with cause RESET, and so is a steering supply check, with the
pressures taken so far and RELEASE_UNCONFIRMED as the isolation mark stands. That the grid element check's notice is
ahead of the other's is the model's choice (log 10). -/
def Obligations.GovernorResetKeepsTablesAndSettings : Prop :=
  (let after (e : Station) : Station := { e with
      state := if e.state = .suspect then .enrolled else e.state, streak := 0 };
    (∀ (tag : Byte) (s : State), CanTake s → tag ≠ 0#8 →
      ∃ t, exec (.governorReset tag) s = .next t
        ∧ t.dsc = Dsc.initial s.dsc.stopLine
        ∧ t.hli.deferred = none ∧ t.rgv.check.run = none ∧ t.sgv.run = none ∧ t.slc.frameTimer = false
        ∧ t.epu = { Epu.initial with haul := s.epu.haul } ∧ t.tal = .initial ∧ t.slc.queue = [] ∧ t.slc.held = []
        ∧ t.slc.scan = none ∧ t.slc.delivery = [] ∧ t.trc.st = .idle
        ∧ (s.slc.slot = none → t.slc.slot = none ∧ t.slc.dir = s.slc.dir.map after)
        ∧ (∀ x, s.slc.slot = some x → t.slc.dir = s.slc.dir ∧ ∃ y, t.slc.slot = some y ∧ y.afterReset = true)
        ∧ t.slc.acq = s.slc.acq ∧ t.sgs.screen = s.sgs.screen ∧ t.trc.recset = s.trc.recset ∧ t.trc.ring = s.trc.ring
        ∧ t.hli.stored = s.hli.stored ∧ t.hli.force = s.hli.force ∧ t.hli.cursor = s.hli.cursor
        ∧ t.slc.frameNo = s.slc.frameNo ∧ t.slc.loopState = s.slc.loopState
        ∧ t.hli.tx.getLast? = some (.reply false 0x9B tag (.done [])))
      ∧ ∀ (x : SlotEx) (st : Station) (s : State), Live s → s.slc.slot = some x → x.afterReset = true → x.claim = .orphan →
        stationAt x.addr s = some st → st.state ≠ .excluded →
        ∃ t, exec .slotTimeout s = .next t ∧ t.slc.slot = none
          ∧ (∀ b, b ≠ x.addr → stationAt b t = (stationAt b s).map after)
          ∧ (s.hli.force.streakExclude ≤ (if st.streak < 255 then st.streak + 1 else 255) →
              (stationAt x.addr t).map (·.state) = some .excluded ∧ standing .stationExcluded t = true)
          ∧ ((if st.streak < 255 then st.streak + 1 else 255) < s.hli.force.streakExclude →
              (stationAt x.addr t).map (·.state) = some .enrolled))
  ∧ (∀ (tag : Byte) (s : State), CanTake s → tag ≠ 0#8 →
      let n := s.slc.frameNo
      let aborted : List Msg :=
        match s.hli.deferred with
        | some d => [.reply true (d.kind.code + 0x80#8) d.tag (.refused .fault .aborted 1)]
        | none => []
      let notices : List Notice :=
        (if s.rgv.check.run.isSome then [.proc 1 3 .reset n] else [])
          ++ (if s.sgv.run.isSome then [.proc 2 3 .reset n] else [])
          ++ (if s.dsc.gov = .halted then [] else [.state s.dsc.gov .halted .governorReset])
      ∃ (t : State) (sent : List Notice), exec (.governorReset tag) s = .next t
        ∧ t.hli.tx = s.hli.tx ++ aborted ++ sent.map (fun x => Msg.notice x) ++ [.reply false 0x9B tag (.done [])]
        ∧ sent.Sublist notices
        ∧ (s.hli.force.noticeMask.testBit 0 = true → s.hli.force.noticeMask.testBit 3 = true →
            s.hli.tx.countP (·.isNotice) ≤ 3 → sent = notices)
        ∧ (∀ r, s.rgv.check.run = some r →
            t.rgv.check.last = ⟨.aborted, .reset, r.grids, r.start, n, r.results.length, none⟩)
        ∧ (∀ r, s.sgv.run = some r → t.sgv.result = ⟨.aborted, .reset, r.init, r.final, n, s.sgv.isolation⟩)
        ∧ (s.sgv.run = none → t.sgv.result = s.sgv.result)
        ∧ t.sgv.isolation = s.sgv.isolation)

/-- FULL-RESET is answered DONE and no further request is taken; the reset takes effect once its reply has been sent,
with the STOP line as it stands on the pin; before that the event does nothing (log 2). Power-on and the RESET pin:
every block takes its full-reset value, the STOP line is taken as found, the STATE notice is queued when the part runs;
while RESET is asserted the part stays in reset. The commands still waiting stay in the model's queue, which is no
state of the part. While the RESET pin is asserted no command but power-on and the pins' own has an effect (the model's
reading, log 37). -/
def Obligations.ResetsResetThePart : Prop :=
  ((∀ (tag : Byte) (s : State), CanTake s → tag ≠ 0#8 →
        exec (.fullReset tag) s = .next { s.answered 0x9C tag [] with hli.fullReset := .taken })
      ∧ ∀ s : State, Live s →
        (s.hli.fullReset = .replySent →
          exec .fullResetTakesEffect s =
            .next { State.initial s.pins.stop false s.pending with hli.tx := [.notice (.state .halted .halted .reset)] })
        ∧ (s.hli.fullReset ≠ .replySent → exec .fullResetTakesEffect s = .next s))
  ∧ (∀ s : State,
      (∀ b, s.pins.reset = false →
        exec (.powerOn b) s =
          .next { State.initial b false s.pending with hli.tx := [.notice (.state .halted .halted .reset)] })
        ∧ (∀ b, s.pins.reset = true → exec (.powerOn b) s = .next (State.initial b true s.pending))
        ∧ (s.pins.reset = false → exec .resetPinAssert s = .next (State.initial s.pins.stop true s.pending))
        ∧ (s.pins.reset = true → exec .resetPinAssert s = .next s)
        ∧ (s.pins.reset = true →
          exec .resetPinRelease s =
            .next { State.initial s.pins.stop false s.pending with hli.tx := [.notice (.state .halted .halted .reset)] })
        ∧ (s.pins.reset = false → exec .resetPinRelease s = .next s))
  ∧ (∀ (c : Instr) (s : State), s.pins.reset = true → (∀ b, c ≠ .powerOn b) → c ≠ .resetPinRelease →
      c ≠ .stopLineAssert → c ≠ .stopLineRelease → exec c s = .next s)

/-- After a full reset: HALTED, the initial demand record, no fresh demand, no frames, the frame number 0, every input
signal ABSENT, empty lists and queues but for the STATE notice, default settings, clear flags and counters, the cursor
at table 1, index 0. That the notice is queued and the STOP line released is the model's choice (log 25). -/
def Obligations.ResetStateIsAsTheChaptersSay : Prop :=
  let s := State.reset
  s.dsc.gov = .halted ∧ s.dsc.demand = ⟨.neutral, 0, 0, 0, 0, true⟩ ∧ s.dsc.fresh = false ∧ s.dsc.timerRunning = false
    ∧ s.dsc.demandLost = false ∧ s.slc.loopState = .down ∧ s.slc.dir = [] ∧ s.slc.frameNo = 0 ∧ s.slc.frameTimer = false
    ∧ (∀ p ∈ s.slc.acq, p.val.valid = false) ∧ (∀ p ∈ s.sgs.image, p.val.quality = .absent)
    ∧ (∀ p ∈ s.sgs.screen, p.val.valid = false)
    ∧ s.epu.trips = [] ∧ s.epu.derates = [] ∧ s.epu.pendingSet = [] ∧ s.tal.travel = .neutral ∧ s.rgv.gridA.good = 8
    ∧ s.rgv.gridA.energy = 0 ∧ s.sgv.result.outcome = .none ∧ s.trc.st = .idle ∧ s.trc.ring = []
    ∧ s.hli.tx = [.notice (.state .halted .halted .reset)] ∧ s.hli.rx = [] ∧ s.hli.deferred = none
    ∧ s.hli.cursor = ⟨1, 0, .none⟩ ∧ s.hli.flags = 0 ∧ s.hli.counters = .zero ∧ s.hli.stored = .default
    ∧ s.hli.force = .default ∧ s.pending = []

/-! ### The station loop (chapter 2) -/

/-- The loop's sync: from DOWN a clean idle word starts SYNCING at 1; in SYNCING each adds one, and the 32nd makes the
loop UP; any other word starts the count again at 0; in UP, or in DOWN at another word, nothing changes. Each change of
state makes its LOOP notice. The row for the count reaching 32 does the change when the count is one short of it (log
3). -/
def Obligations.LoopSyncCountsCleanIdleWords : Prop :=
  ∀ s : State, Live s →
    (s.slc.loopState = .down → exec .cleanIdleWordReturned s =
        .next (notify (.loop .syncing) { s with slc.loopState := .syncing, slc.sync := 1 }))
      ∧ (s.slc.loopState = .syncing → s.slc.sync < 31 →
          exec .cleanIdleWordReturned s = .next { s with slc.sync := s.slc.sync + 1 })
      ∧ (s.slc.loopState = .syncing → s.slc.sync = 31 →
          exec .cleanIdleWordReturned s = .next (notify (.loop .up) { s with slc.loopState := .up, slc.sync := 32 })
          ∧ exec .loopSyncReached s = exec .cleanIdleWordReturned s)
      ∧ (s.slc.loopState = .up → exec .cleanIdleWordReturned s = .next s)
      ∧ (s.slc.loopState ≠ .syncing → exec .loopSyncReached s = .next s)
      ∧ ∀ w : RxWord, (w.word ≠ 0x0F0F#16 ∨ w.lineError = true) →
          exec (.uncleanWordReturned w) s =
            .next (if s.slc.loopState = .syncing then { s with slc.sync := 0 } else s)

/-- A failed exchange of a station adds one to its streak (to 255) and its total (to 65535) and sets its last failure
kind; then the streak is compared with the settings in force: at or above STREAK_EXCLUDE a station that is not EXCLUDED
becomes EXCLUDED, else at or above STREAK_SUSPECT an ENROLLED one becomes SUSPECT. A taken command sets the streak to 0
and takes a SUSPECT station back to ENROLLED. The threshold rows are of a rise of a station's streak by one, compared
as above with the settings in force: at or above STREAK_SUSPECT and below STREAK_EXCLUDE an ENROLLED station becomes
SUSPECT and latches STATION_SUSPECT; at or above STREAK_EXCLUDE one that is not EXCLUDED becomes EXCLUDED and latches
STATION_EXCLUDED, and the first row changes nothing; other stations keep their entries; with any other comparison, no
room for a rise or no such station nothing changes. That the rows raise the streak alone, by one, is the model's choice
(log 3). -/
def Obligations.FailureStreaksMoveStations : Prop :=
  ((∀ (k : FailKind) (g : Settings) (e : Station), g.streakSuspect < g.streakExclude →
        let e' := (e.fail k).judge g
        e'.streak = (if e.streak < 255 then e.streak + 1 else 255)
          ∧ e'.total = (if e.total < 65535 then e.total + 1 else 65535)
          ∧ e'.lastFail = k ∧ e'.addr = e.addr ∧ e'.kind = e.kind ∧ e'.revision = e.revision
          ∧ (e.state = .excluded → e'.state = .excluded)
          ∧ (e.state ≠ .excluded → g.streakExclude ≤ e'.streak → e'.state = .excluded)
          ∧ (e.state ≠ .excluded → e'.streak < g.streakExclude → g.streakSuspect ≤ e'.streak → e'.state = .suspect)
          ∧ (e'.streak < g.streakSuspect → e'.state = e.state))
      ∧ ∀ e : Station, e.state ≠ .excluded → e.took = { e with streak := 0, state := .enrolled })
  ∧ ((∀ (a : Nat) (e : Station) (s : State), Live s → stationAt a s = some e →
      let n := e.streak + 1
      let g := s.hli.force
      let suspects : Prop := e.state = .enrolled ∧ e.streak < 255 ∧ g.streakSuspect ≤ n ∧ n < g.streakExclude
      let excludes : Prop := e.state ≠ .excluded ∧ e.streak < 255 ∧ g.streakExclude ≤ n
      (suspects →
          ∃ t, exec (.stationSuspect a) s = .next t ∧ stationAt a t = some { e with state := .suspect, streak := n }
            ∧ standing .stationSuspect t = true ∧ (∀ b, b ≠ a → stationAt b t = stationAt b s)
            ∧ { t with slc.dir := s.slc.dir, hli.flags := s.hli.flags } = s)
        ∧ (¬suspects → exec (.stationSuspect a) s = .next s)
        ∧ (excludes →
          ∃ t, exec (.stationExcluded a) s = .next t
            ∧ stationAt a t = some { e with state := .excluded, streak := n }
            ∧ standing .stationExcluded t = true ∧ (∀ b, b ≠ a → stationAt b t = stationAt b s))
        ∧ (¬excludes → exec (.stationExcluded a) s = .next s))
      ∧ ∀ (a : Nat) (s : State), Live s → stationAt a s = none →
        exec (.stationSuspect a) s = .next s ∧ exec (.stationExcluded a) s = .next s)

/-- LOOP-SCAN makes its four checks in order; taken, it empties the directory, holds the deferred slot, and its first
probe is of address 1. A scan probe's effect, by outcome: a station of a known kind is enrolled with a fresh failure
record while the directory has room; with 32 stations it is counted and the FULL mark set; an unknown kind, UNTAKEN,
TAKEN_NOT_READY and CHECK are counted as answered and not enrolled; NO_REPLY changes nothing. The reply or the slot's
end that completes the probe in its slot has that effect and no other, the address having no station in the directory
yet; the scan goes on below address 47, and after it ends COMPLETE with the deferred DONE reply: the number enrolled,
the FULL mark, the two counts and the last address (its bytes in the model's order, log 22), the slot free again. -/
def Obligations.LoopScanBeginsAndEnrols : Prop :=
  (∀ (tag : Byte) (s : State), CanTake s → (deferredUnsent s = false ∨ asksSlot (.loopScan tag) s = false) → tag ≠ 0#8 →
      exec (.loopScan tag) s =
        if s.dsc.gov ≠ .halted then .next (s.turnedAway 0x8D tag .state .notHalted 0)
        else if s.slc.loopState ≠ .up then .next (s.turnedAway 0x8D tag .state .loopNotUp (loopCode s.slc.loopState))
        else if s.slc.queue ≠ [] then .next (s.turnedAway 0x8D tag .state .loopBusy 0)
        else if s.hli.deferred.isSome then .next (s.turnedAway 0x8D tag .resource .deferBusy 0)
        else .next { s with slc.dir := [], slc.scan := some ⟨1, false, 0, 0, 0⟩, hli.deferred := some ⟨.loopScan, tag⟩ })
  ∧ (∀ (a : Nat) (h : Heard) (c : Scan) (s : State), s.slc.scan = some c →
      let other := { s with slc.scan := some { c with notEnrolled := c.notEnrolled + 1 } }
      (∀ k : Kind, h.outcome = .takenReady → identityKind h.data = kindCode k → s.slc.dir.length < 32 →
          probeEffect a h s = { s with slc.dir := s.slc.dir ++ [⟨a, k, identityRev h.data, .enrolled, 0, 0, .none⟩] })
        ∧ (∀ k : Kind, h.outcome = .takenReady → identityKind h.data = kindCode k → 32 ≤ s.slc.dir.length →
          probeEffect a h s = { s with slc.scan := some { c with full := true, noRoom := c.noRoom + 1 } })
        ∧ (h.outcome = .takenReady → (∀ k : Kind, identityKind h.data ≠ kindCode k) → probeEffect a h s = other)
        ∧ (h.outcome = .untaken ∨ h.outcome = .takenNotReady ∨ h.outcome = .check → probeEffect a h s = other)
        ∧ (h.outcome = .noReply → probeEffect a h s = s))
  ∧ (∀ (c : Instr) (h : Heard) (k : Scan) (x : SlotEx) (s : State), Live s → s.slc.slot = some x → x.claim = .scan →
      x.afterReset = false → s.slc.scan = some k →
      (c = .slotTimeout ∧ h = ⟨.noReply, false, 0⟩ ∨ ∃ ws, c = .exchangeComplete ws ∧ heardReply x ws = some h) →
      let v := probeEffect x.addr h { applyDirectory x h.outcome s with slc.slot := none }
      (stationAt x.addr s = none → applyDirectory x h.outcome s = s)
        ∧ (x.addr < 47 → exec c s = .next v)
        ∧ (∀ tag, 47 ≤ x.addr → s.hli.deferred = some ⟨.loopScan, tag⟩ →
          ∃ k', v.slc.scan = some k' ∧ exec c s = .next { v with
            slc.scan := none, hli.deferred := none
            hli.tx := v.hli.tx ++ [Msg.reply true 0x8D tag (.done (vEnum 0 ++ vCount v.slc.dir.length ++ vMark k'.full
              ++ vCount k'.noRoom ++ vCount k'.notEnrolled ++ vCount k'.last))] }))

/-- STATION-REINSTATE makes its six checks in order; taken, its probe joins the tail of the service queue, and the
station stays EXCLUDED. With the reply to an earlier deferred request unsent a request that would take the slot waits
instead (log 57). LOOP-EXCHANGE of the fields a station can be sent: the checks in order, and the item that joins the
tail of the service queue; a READ carries data zero, size 16 the low two bytes. A field out of range is refused first;
that the fields are numbered in payload order is the model's reading (log 46). -/
def Obligations.QueuedRequestsCheckInOrder : Prop :=
  (∀ (tag addr : Byte) (s : State), CanTake s →
      (deferredUnsent s = false ∨ asksSlot (.stationReinstate tag addr) s = false) → tag ≠ 0#8 →
      let a := addr.toNat
      exec (.stationReinstate tag addr) s =
        if a < 1 ∨ 47 < a then .next (s.turnedAway 0x8F tag .range .field 1)
        else if stationAt a s = none then .next (s.turnedAway 0x8F tag .state .notEnrolled a)
        else if isExcluded a s = false then .next (s.turnedAway 0x8F tag .state .notExcluded a)
        else if s.slc.loopState ≠ .up then .next (s.turnedAway 0x8F tag .state .loopNotUp (loopCode s.slc.loopState))
        else if s.hli.deferred.isSome then .next (s.turnedAway 0x8F tag .resource .deferBusy 0)
        else if 8 ≤ s.slc.queue.length then .next (s.turnedAway 0x8F tag .resource .queueFull 0)
        else .next { s with
          slc.queue := s.slc.queue ++ [⟨.reinstate, a, 7, .read, false, 0, none, false, 0, false⟩]
          hli.deferred := some ⟨.reinstate, tag⟩ })
  ∧ (∀ (tag addr channel func size : Byte) (data : BitVec 32) (s : State), CanTake s →
      (deferredUnsent s = false ∨ asksSlot (.loopExchange tag addr channel func size data) s = false) →
      tag ≠ 0#8 →
      let a := addr.toNat
      let d := if func = 0#8 then 0 else if size = 32#8 then data.toNat else data.toNat % 65536
      exec (.loopExchange tag addr channel func size data) s =
        if a < 1 ∨ 47 < a then .next (s.turnedAway 0x8E tag .range .field 1)
        else if 7 < channel.toNat then .next (s.turnedAway 0x8E tag .range .field 2)
        else if 2 < func.toNat then .next (s.turnedAway 0x8E tag .range .field 3)
        else if size ≠ 16#8 ∧ size ≠ 32#8 then .next (s.turnedAway 0x8E tag .range .field 4)
        else if channel = 7#8 ∧ func ≠ 0#8 then .next (s.turnedAway 0x8E tag .range .identityChannel a)
        else if (stationAt a s).any (fun e => reservedChannel e.kind channel.toNat) = true then
          .next (s.turnedAway 0x8E tag .range .reservedChannel a)
        else if isExcluded a s = true then .next (s.turnedAway 0x8E tag .state .stationExcluded a)
        else if (s.dsc.gov = .drive ∨ s.dsc.gov = .safeHold) ∧ func ≠ 0#8 ∧ boundToOutput a s = true then
          .next (s.turnedAway 0x8E tag .state .outputBound a)
        else if s.hli.deferred.isSome then .next (s.turnedAway 0x8E tag .resource .deferBusy 0)
        else if 8 ≤ s.slc.queue.length then .next (s.turnedAway 0x8E tag .resource .queueFull 0)
        else .next { s with
          slc.queue := s.slc.queue ++ [⟨.loopExchange, a, channel.toNat,
            if func = 0#8 then .read else if func = 1#8 then .write else .act, size == 32#8, d, none, false, 0, false⟩]
          hli.deferred := some ⟨.loopExchange, tag⟩ })

/-! ### Frames, passes and the service queue (chapter 3; R22 to R25) -/

/-- A frame start, while the frame timer runs: the frame number counts on (modulo 2^48, log 26), the delivery buffer
starts empty, the condition posting of the frame that ends is made except at the first frame of a run, the acquisition
pass begins or, with nothing to run, has ended; passes still unfinished are ended, latching FRAME_OVERRUN and counting
one. With the timer stopped nothing happens (log 2). The same in steps: the unfinished passes end, the condition
posting is made, the recording event of the frame that ends follows, and then the acquisition pass of the next frame
begins; at the first frame of a run there is neither posting nor recording event. That the record is made after the
unfinished passes have ended is the model's choice (log 8). Of an unfinished frame, with no bit of the acquisition
table flipped, each due WRITE entry that has not begun adds one to ENTRIES_SKIPPED: in a dispatch pass those from its
next entry on, and, where the dispatch pass has not begun, all of them, the model's choice (log 9); in a service pass
none. A pass exchange in its slot completes for its station only. -/
def Obligations.FrameStartBeginsTheNextFrame : Prop :=
  (∀ s : State, Live s →
    (s.slc.frameTimer = false → exec .frameStart s = .next s)
      ∧ (s.slc.frameTimer = true →
        ∃ t, exec .frameStart s = .next t ∧ t.slc.frameNo = (s.slc.frameNo + 1) % 2 ^ 48 ∧ t.slc.firstFrame = false
          ∧ (t.slc.phase = .acq ∧ t.slc.run.isSome ∨ t.slc.phase = .acqEnded ∧ t.slc.run = none)
          ∧ (∀ d ∈ t.slc.delivery, d.frame = (s.slc.frameNo + 1) % 2 ^ 48)
          ∧ t.slc.slots = 0 ∧ t.slc.markReached = false ∧ t.dsc = s.dsc ∧ t.out = s.out ∧ t.slc.queue = s.slc.queue
          ∧ (s.slc.firstFrame = false → ∃ p, t.slc.posting = some p ∧ p.loop = s.slc.loopState
              ∧ p.wasDown = s.slc.loopLost ∧ p.nSuspect = s.slc.dir.countP (·.state == .suspect)
              ∧ p.nExcluded = s.slc.dir.countP (·.state == .excluded))
          ∧ (s.slc.firstFrame = true → t.slc.posting = s.slc.posting)
          ∧ (s.slc.phase ≠ .idle → s.slc.phase ≠ .done →
              standing .frameOverrun t = true
                ∧ t.hli.counters.frameOverruns = s.hli.counters.frameOverruns.rise)
          ∧ (s.slc.phase = .idle ∨ s.slc.phase = .done → t.hli.counters.frameOverruns = s.hli.counters.frameOverruns)))
  ∧ (∀ s : State, Live s → s.slc.frameTimer = true →
      let begun (w : State) : State := beginAcq { w with
        slc.frameNo := (s.slc.frameNo + 1) % 2 ^ 48, slc.firstFrame := false, slc.delivery := []
        slc.loopLost := s.slc.loopState != .up, slc.markReached := false }
      let recorded (w : State) : State := if s.slc.firstFrame then w
        else recordFrame { w with slc.posting := some ⟨s.slc.loopState, s.slc.loopLost,
          s.slc.dir.map (fun e => (e.addr, e.kind, e.state)), s.slc.dir.countP (·.state == .suspect),
          s.slc.dir.countP (·.state == .excluded)⟩ }
      let unbegun : List Nat := match s.slc.phase with
        | .dispatch => (match s.slc.run with
          | some r => if r.begun then List.range' s.slc.passIdx (64 - s.slc.passIdx) else List.range' r.entry (64 - r.entry)
          | none => [])
        | .service => []
        | _ => List.range 64
      let skipped : Nat := unbegun.countP (fun i => match s.slc.acq[i]? with
        | some p => p.val.valid && p.val.func == .write && s.slc.frameNo % p.val.divisor == p.val.phase
        | none => false)
      let orphaned (x : SlotEx) : SlotEx := match x.claim with
        | .acq _ | .dispatch _ => { x with claim := .orphan }
        | _ => x
      (s.slc.phase = .idle ∨ s.slc.phase = .done → exec .frameStart s = .next (begun (recorded s)))
        ∧ (s.slc.phase ≠ .idle → s.slc.phase ≠ .done → (∀ p ∈ s.slc.acq, p.flips = []) →
          exec .frameStart s = .next (begun (recorded { s with
            slc.run := none, slc.passIdx := 64, slc.slot := s.slc.slot.map orphaned
            hli.flags := s.hli.flags ||| Flag.frameOverrun.mask
            hli.counters.entriesSkipped := Nat.repeat Counter.rise skipped s.hli.counters.entriesSkipped
            hli.counters.frameOverruns := s.hli.counters.frameOverruns.rise }))))

/-- A slot start in the acquisition pass, with budget left: the exchange of the entry whose turn it is, as the pass
read it, goes into its slot and takes one of the budget's slots; a SPAN entry's goes to the next of its addresses
whose station is not EXCLUDED; nothing else changes. An entry marked CORRUPT is not run (R177), also when it was
marked after the pass read it (log 31). The service queue serves its head, whoever its claimant: in a service pass
with budget left, and directly in HALTED while no scan runs, a slot start puts the head's exchange into the slot and
keeps the item at the head; an item that has begun counts a repeat, and the isolate ACT sets the isolation mark. A
head that is no REINSTATE probe and whose station is EXCLUDED leaves without a slot and its claimant is told EXCLUDED
(R57): a LOOP-EXCHANGE is answered (its bytes in the model's order, log 22, its ready mark as 0, log 73, its data as
four bytes, log 74) and the next item becomes the head and begins; the grid element check is aborted; the steering
supply check is aborted, and its release ends EXCLUDED too. In HALTED a scan's next probe goes first. LOOP_OUT: the
idle word 0F0Fh while no exchange is in its slot, whatever the state; in a slot the words of the command, header
first, and idle words after them. The words of a command: the header is of type 10 and holds the address, the channel,
the function and the size; one data word at size 16, two at size 32, high word first; and the check word, the CRC-16
over header and data words, high byte first (generator 1021h, from FFFFh, each byte from its bit 7 on). The data of a
value are its low 16 or 32 bits. -/
def Obligations.SlotStartsServeEntriesAndTheHead : Prop :=
  (∀ (r : Run) (s : State), Live s → s.dsc.gov ≠ .halted → s.slc.loopState = .up → s.slc.slot = none → s.slc.phase = .acq →
      s.slc.run = some r → s.slc.slots < s.hli.force.acqBudget →
      let e := r.e
      ((entryAt r.entry s).corrupt = false → e.settle ≠ .span → isExcluded e.addr s = false →
        exec .exchangeStart s = .next { s with
          slc.slot := some ⟨.acq r.entry, e.addr, e.channel, e.func, e.size32, 0, e.tolerate, false⟩
          slc.slots := s.slc.slots + 1
          slc.run := some { r with
            begun := true, offset := 0, used := if r.begun ∧ e.settle = .persist then r.used + 1 else r.used } })
      ∧ (∀ k, (entryAt r.entry s).corrupt = false → e.settle = .span → r.offset ≤ k → k < e.span →
        isExcluded (e.addr + k) s = false → (∀ j, r.offset ≤ j → j < k → isExcluded (e.addr + j) s = true) →
        exec .exchangeStart s = .next { s with
          slc.slot := some ⟨.acq r.entry, e.addr + k, e.channel, e.func, e.size32, 0, e.tolerate, false⟩
          slc.slots := s.slc.slots + 1
          slc.run := some { r with begun := true, offset := k } })
      ∧ ((entryAt r.entry s).corrupt = true → r.entry < s.slc.passIdx →
        ∃ t, exec .exchangeStart s = .next t ∧ ∀ x, t.slc.slot = some x → x.claim ≠ .acq r.entry))
  ∧ ((∀ (it : Item) (its : List Item) (s : State), Live s → s.slc.loopState = .up → s.slc.slot = none →
      s.slc.queue = it :: its → (it.claimant = .reinstate ∨ isExcluded it.addr s = false) →
      (s.slc.phase = .service ∧ s.dsc.gov ≠ .halted ∧ s.slc.slots < s.hli.force.serviceBudget
        ∨ s.dsc.gov = .halted ∧ s.slc.scan = none) →
      exec .exchangeStart s = .next { s with
        slc.queue := { it with started := true, used := if it.started then it.used + 1 else it.used } :: its
        slc.slot := some ⟨.service, it.addr, it.channel, it.func, it.size32, it.data, false, false⟩
        slc.slots := s.slc.slots + 1
        sgv.isolation := s.sgv.isolation || (it.claimant == .steerCheck && it.data == 1) })
      ∧ (∀ (it : Item) (its : List Item) (s : State), Live s → s.slc.loopState = .up → s.slc.slot = none →
        s.slc.queue = it :: its → s.slc.held = [] → it.discard = false → isExcluded it.addr s = true →
        (s.slc.phase = .service ∧ s.dsc.gov ≠ .halted ∧ s.slc.slots < s.hli.force.serviceBudget
          ∨ s.dsc.gov = .halted ∧ s.slc.scan = none) →
        (∀ tag, it.claimant = .loopExchange → s.hli.deferred = some ⟨.loopExchange, tag⟩ →
            let tx : List Msg := s.hli.tx ++ [.reply true 0x8E tag (.done (vEnum 5 ++ vMark false ++ beBytes 4 0))]
            (∀ nx rest, its = nx :: rest → (nx.claimant = .reinstate ∨ isExcluded nx.addr s = false) →
              exec .exchangeStart s = .next { s with
                slc.queue := { nx with started := true, used := if nx.started then nx.used + 1 else nx.used } :: rest
                slc.slot := some ⟨.service, nx.addr, nx.channel, nx.func, nx.size32, nx.data, false, false⟩
                slc.slots := s.slc.slots + 1
                sgv.isolation := s.sgv.isolation || (nx.claimant == .steerCheck && nx.data == 1)
                hli.deferred := none, hli.tx := tx })
            ∧ (its = [] → ∃ t, exec .exchangeStart s = .next t ∧ t.slc.slot = none ∧ t.slc.queue = []
                ∧ t.hli.deferred = none ∧ t.hli.tx = tx))
          ∧ (∀ r, it.claimant = .gridCheck → its = [] → s.rgv.check.run = some r →
              ∃ t, exec .exchangeStart s = .next t ∧ t.slc.slot = none ∧ t.slc.queue = [] ∧ t.rgv.check.run = none
                ∧ t.rgv.check.last.outcome = .aborted ∧ t.rgv.check.last.cause = .stationExcluded)
          ∧ (∀ r, it.claimant = .steerCheck → its = [] → s.sgv.run = some r → r.phase = .isolate → r.pending = none →
              r.addr = it.addr →
              ∃ t, exec .exchangeStart s = .next t ∧ t.slc.slot = none ∧ t.slc.queue = [] ∧ t.sgv.run = none
                ∧ t.sgv.result = ⟨.aborted, .stationExcluded, r.init, r.final, s.slc.frameNo, true⟩))
      ∧ ∀ (c : Scan) (s : State), Live s → s.slc.loopState = .up → s.slc.slot = none → s.dsc.gov = .halted →
        s.slc.scan = some c →
        exec .exchangeStart s = .next { s with
          slc.slot := some ⟨.scan, c.next, 7, .read, false, 0, false, false⟩
          slc.scan := some { c with next := c.next + 1, last := c.next } })
  ∧ (∀ (k : Nat) (s : State),
      (s.slc.slot = none → loopOut k s = 0x0F0F#16)
        ∧ ∀ x, s.slc.slot = some x →
          (k < (commandWords x).length → some (loopOut k s) = (commandWords x)[k]?)
            ∧ ((commandWords x).length ≤ k → loopOut k s = 0x0F0F#16)
            ∧ (commandWords x).length = if x.size32 then 4 else 3)
  ∧ ((∀ x : SlotEx, x.addr < 64 → x.channel < 8 → ∃ h : LoopWord,
        h.toNat = 2 * 2 ^ 14 + x.addr * 2 ^ 8 + x.channel * 2 ^ 5
            + (match x.func with | .read => 0 | .write => 1 | .act => 2) * 2 ^ 3 + (if x.size32 then 1 else 0) * 2 ^ 2
          ∧ (x.size32 = false → ∃ d : LoopWord, d.toNat = x.data % 65536 ∧ commandWords x = [h, d, checkWord [h, d]])
          ∧ (x.size32 = true → ∃ d e : LoopWord, d.toNat = x.data / 65536 % 65536 ∧ e.toNat = x.data % 65536
              ∧ commandWords x = [h, d, e, checkWord [h, d, e]]))
      ∧ (∀ ws : List LoopWord, checkWord ws = crc16 (ws.flatMap (fun w => [w.extractLsb' 8 8, w.extractLsb' 0 8])))
      ∧ (∀ bs : List Byte, crc16 bs = (bs.flatMap (fun b => (List.range 8).map (fun k => b.getMsbD k))).foldl
          (fun (c : BitVec 16) (b : Bool) => (c <<< 1) ^^^ (if c.msb != b then 0x1021#16 else 0#16)) 0xFFFF#16)
      ∧ ∀ v : Int, (dataOf false v : Int) = v % 65536 ∧ (dataOf true v : Int) = v % 4294967296)

/-- The dispatch clamp (R51, R53): a dispatch exchange sends its source's posted value as it stands at that moment;
TC_L and TC_R (40, 41) are sent as posted in DRIVE, in SAFE-HOLD a positive torque as 0 and any other as posted, in
STANDBY 0; MD_L and MD_R (42, 43) lose a PROPEL mode in SAFE-HOLD and any mode in STANDBY, with the direction kept; the
posted value is not changed. A value not posted for the frame now running is sent all the same, counted and latched
stale. -/
def Obligations.DispatchClampChangesOnlyTheValueSent : Prop :=
  ∀ (r : Run) (s : State), Live s → s.dsc.gov ≠ .halted → s.slc.loopState = .up → s.slc.slot = none →
    s.slc.phase = .dispatch → s.slc.run = some r → s.slc.slots < s.hli.force.dispatchBudget →
    let e := r.e
    (entryAt r.entry s).corrupt = false → e.settle ≠ .span → isExcluded e.addr s = false →
    let p := s.out.get e.signal
    ∃ (t : State) (v : Int), exec .exchangeStart s = .next t ∧ t.out = s.out
      ∧ t.slc.slot = some ⟨.dispatch r.entry, e.addr, e.channel, e.func, e.size32, dataOf e.size32 v, e.tolerate, false⟩
      ∧ (s.dsc.gov = .drive ∨ (e.signal ≠ 40 ∧ e.signal ≠ 41 ∧ e.signal ≠ 42 ∧ e.signal ≠ 43) → v = p.value)
      ∧ (s.dsc.gov = .safeHold → e.signal = 40 ∨ e.signal = 41 → v = (if 0 < p.value then 0 else p.value))
      ∧ (s.dsc.gov = .standby → e.signal = 40 ∨ e.signal = 41 → v = 0)
      ∧ (s.dsc.gov = .safeHold → e.signal = 42 ∨ e.signal = 43 →
          v / 4 = p.value / 4 ∧ v % 4 = (if p.value % 4 = 1 then 0 else p.value % 4))
      ∧ (s.dsc.gov = .standby → e.signal = 42 ∨ e.signal = 43 → v / 4 = p.value / 4 ∧ v % 4 = 0)
      ∧ (p.frame = some s.slc.frameNo → t.hli = s.hli)
      ∧ (p.frame ≠ some s.slc.frameNo →
          t.hli = { s.hli with flags := s.hli.flags ||| Flag.staleDispatch.mask
                               counters.staleDispatches := s.hli.counters.staleDispatches.rise })

/-- A sound reply in its slot ends the run of a STRICT or LENIENT READ: DELIVERED with the reply's data for TAKEN_READY,
and for TAKEN_NOT_READY when LENIENT; otherwise MISSED with the outcome as cause. The item joins the delivery buffer
first; only MISSED items of entries skipped on the way to the next one can follow it. A PERSIST READ delivers at the
first TAKEN_READY, goes on with a repeat at a TAKEN_NOT_READY while repeats are left, and is MISSED at once with any
other outcome as cause. A SPAN READ delivers at the first TAKEN_READY; any other outcome goes on to the next address
while one is left whose station is not EXCLUDED, and after the last address is the cause of its MISSED. A WRITE makes
one exchange and is not repeated in its frame, whatever its outcome: its run ends, the next run, if any, is of a later
entry, not begun, and neither the delivery buffer nor a posted value changes. A slot that ends with no complete reply is
a NO_REPLY: of a station that stays addressed, the streak and the total rise, EXCH_FAILED rises, and a STRICT READ ends
MISSED with cause NO_REPLY. The last exchange a PERSIST READ is allowed ends not ready: the run ends MISSED with cause
NOT_READY, EXCH_NOT_READY rises, and the station's streak is 0. With no such exchange in its slot the row changes
nothing (log 3). The part's own command words, whole or in part, and idle words are no reply: the slot runs on, to
NO_REPLY at its end; what follows the whole command is judged as the reply. What counts as a part of the command, its
header and further words in order, is the model's reading (log 68). The reply (R24, R200) begins at the first word that
is no clean idle word; sound, with a header of type 11, the command's address, the data words of its size, their check
word and no line-code error, it is UNTAKEN without bit 7, else TAKEN_READY or TAKEN_NOT_READY by bit 6, with its data;
any other is CHECK. The value delivered is the data, signed in its width for the signed signals (R63). -/
def Obligations.RunsEndByTheirSettleMode : Prop :=
  (∀ (ws : List RxWord) (i : Nat) (r : Run) (x : SlotEx) (h : Heard) (s : State), Live s → s.slc.phase = .acq →
      s.slc.slot = some x → x.claim = .acq i → s.slc.run = some r → r.entry = i → heardReply x ws = some h →
      let e := r.e
      e.func = .read → isInput e.signal = true → e.settle = .strict ∨ e.settle = .lenient →
      ∃ (t : State) (more : List Delivery), exec (.exchangeComplete ws) s = .next t ∧ t.slc.slot = none
        ∧ t.slc.delivery = s.slc.delivery ++ (⟨i, e.signal, s.slc.frameNo,
            if h.outcome = .takenReady ∨ (h.outcome = .takenNotReady ∧ e.settle = .lenient) then
              .delivered (deliveredValue e.signal e.size32 h.data)
            else .missed (if h.outcome = .takenNotReady then .notReady else if h.outcome = .untaken then .untaken
              else .check)⟩ :: more)
        ∧ ∀ d ∈ more, ∃ c, d.result = .missed c)
  ∧ (∀ (ws : List RxWord) (i : Nat) (r : Run) (x : SlotEx) (h : Heard) (s : State), Live s → s.slc.phase = .acq →
      s.slc.slot = some x → x.claim = .acq i → s.slc.run = some r → r.entry = i → heardReply x ws = some h →
      let e := r.e
      let cause : MissCause := if h.outcome = .takenNotReady then .notReady else if h.outcome = .untaken then .untaken
        else .check
      let ends (d : Result) : Prop := ∃ (t : State) (more : List Delivery), exec (.exchangeComplete ws) s = .next t
        ∧ t.slc.slot = none ∧ t.slc.delivery = s.slc.delivery ++ (⟨i, e.signal, s.slc.frameNo, d⟩ :: more)
        ∧ ∀ m ∈ more, ∃ c, m.result = .missed c
      let goesOn (r' : Run) : Prop := ∃ t, exec (.exchangeComplete ws) s = .next t ∧ t.slc.slot = none
        ∧ t.slc.run = some r' ∧ t.slc.phase = .acq ∧ t.slc.delivery = s.slc.delivery
      e.func = .read → isInput e.signal = true →
      (e.settle = .persist ∨ e.settle = .span → h.outcome = .takenReady →
          ends (.delivered (deliveredValue e.signal e.size32 h.data)))
        ∧ (e.settle = .persist → h.outcome = .takenNotReady → r.used < e.retry → isExcluded e.addr s = false → goesOn r)
        ∧ (e.settle = .persist → h.outcome = .takenNotReady → e.retry ≤ r.used → ends (.missed .notReady))
        ∧ (e.settle = .persist → h.outcome = .untaken ∨ h.outcome = .check → ends (.missed cause))
        ∧ (e.settle = .span → h.outcome ≠ .takenReady → e.span ≤ r.offset + 1 → ends (.missed cause))
        ∧ (∀ k, e.settle = .span → h.outcome ≠ .takenReady → r.offset < k → k < e.span → e.addr + k ≠ x.addr →
            isExcluded (e.addr + k) s = false → goesOn { r with offset := r.offset + 1, last := some cause }))
  ∧ (∀ (ws : List RxWord) (r : Run) (x : SlotEx) (h : Heard) (s : State), Live s → s.slc.phase = .dispatch →
      s.slc.slot = some x → x.claim = .dispatch r.entry → s.slc.run = some r → heardReply x ws = some h →
      ∃ t, exec (.exchangeComplete ws) s = .next t ∧ t.slc.slot = none ∧ t.slc.delivery = s.slc.delivery ∧ t.out = s.out
        ∧ (∀ r', t.slc.run = some r' → r'.begun = false ∧ s.slc.passIdx ≤ r'.entry))
  ∧ (∀ (i : Nat) (r : Run) (x : SlotEx) (st : Station) (s : State), Live s → s.slc.phase = .acq → s.slc.slot = some x →
      x.claim = .acq i → x.afterReset = false → s.slc.run = some r → r.entry = i → stationAt x.addr s = some st →
      st.streak + 1 < s.hli.force.streakSuspect → s.hli.force.streakSuspect < s.hli.force.streakExclude →
      s.hli.force.streakExclude ≤ 255 → st.total < 65535 →
      let e := r.e
      e.func = .read → isInput e.signal = true → e.settle = .strict →
      ∃ (t : State) (more : List Delivery), exec .slotTimeout s = .next t ∧ t.slc.slot = none
        ∧ t.slc.delivery = s.slc.delivery ++ (⟨i, e.signal, s.slc.frameNo, .missed .noReply⟩ :: more)
        ∧ stationAt x.addr t = some { st with streak := st.streak + 1, total := st.total + 1, lastFail := .noReply }
        ∧ t.hli.counters.exchFailed = s.hli.counters.exchFailed.rise)
  ∧ (∀ s : State, Live s →
      (lastAllowed s = false → exec .persistRetryExhausted s = .next s)
        ∧ ∀ (i : Nat) (r : Run) (x : SlotEx), s.slc.phase = .acq → s.slc.slot = some x → x.claim = .acq i →
          x.afterReset = false → s.slc.run = some r → r.entry = i →
          let e := r.e
          e.func = .read → isInput e.signal = true → e.settle = .persist → r.used = e.retry →
          ∃ (t : State) (more : List Delivery), exec .persistRetryExhausted s = .next t ∧ t.slc.slot = none
            ∧ t.slc.delivery = s.slc.delivery ++ (⟨i, e.signal, s.slc.frameNo, .missed .notReady⟩ :: more)
            ∧ t.hli.counters.exchNotReady = s.hli.counters.exchNotReady.rise
            ∧ (∀ st, stationAt x.addr t = some st → st.state ≠ .excluded → st.streak = 0))
  ∧ (∀ (x : SlotEx) (ws : List RxWord) (s : State), Live s → s.slc.slot = some x →
      ((∀ w ∈ ws, w.cleanIdle = true) → exec (.exchangeComplete ws) s = .next s)
        ∧ (∀ (o : LoopWord) (own part : List LoopWord), commandWords x = o :: own → part.Sublist own →
            ws.filter (fun w => !w.cleanIdle) = (o :: part).map (fun w => ⟨w, false⟩) →
            heardReply x ws = none ∧ exec (.exchangeComplete ws) s = .next s)
        ∧ ∀ (w : RxWord) (rest : List RxWord), w.cleanIdle = false →
          heardReply x ((commandWords x).map (fun w => ⟨w, false⟩) ++ w :: rest) = some (judgeReply x (w :: rest)))
  ∧ ((∀ (x : SlotEx), x.addr < 64 →
      (∀ (h d c : LoopWord) (rest : List RxWord), x.size32 = false →
        let sound : Prop := h.toNat / 2 ^ 14 = 3 ∧ h.toNat / 2 ^ 8 % 64 = x.addr ∧ c = checkWord [h, d]
        let got := judgeReply x ([⟨h, false⟩, ⟨d, false⟩, ⟨c, false⟩] ++ rest)
        (sound → got = ⟨if h.getLsbD 7 = false then .untaken else if h.getLsbD 6 then .takenReady else .takenNotReady,
            h.getLsbD 6, d.toNat⟩)
          ∧ (¬sound → got = ⟨.check, false, 0⟩))
      ∧ (∀ (h d e c : LoopWord) (rest : List RxWord), x.size32 = true →
        let sound : Prop := h.toNat / 2 ^ 14 = 3 ∧ h.toNat / 2 ^ 8 % 64 = x.addr ∧ c = checkWord [h, d, e]
        let got := judgeReply x ([⟨h, false⟩, ⟨d, false⟩, ⟨e, false⟩, ⟨c, false⟩] ++ rest)
        (sound → got = ⟨if h.getLsbD 7 = false then .untaken else if h.getLsbD 6 then .takenReady else .takenNotReady,
            h.getLsbD 6, 65536 * d.toNat + e.toNat⟩)
          ∧ (¬sound → got = ⟨.check, false, 0⟩))
      ∧ ∀ ws : List RxWord, (ws.length < (if x.size32 then 4 else 3)
          ∨ ∃ w ∈ ws.take (if x.size32 then 4 else 3), w.lineError = true) → judgeReply x ws = ⟨.check, false, 0⟩)
      ∧ (∀ (x : SlotEx) (idles rest : List RxWord) (w : RxWord), (∀ v ∈ idles, v.cleanIdle = true) → w.cleanIdle = false →
        (∀ o, (commandWords x).head? = some o → w ≠ ⟨o, false⟩) →
        heardReply x (idles ++ w :: rest) = some (judgeReply x (w :: rest)))
      ∧ ∀ id d : Nat,
        let signed : Prop := id ∈ [1, 2, 5, 6, 9, 10, 11, 12, 18, 19, 28, 32, 34]
        (¬signed → deliveredValue id false d = d ∧ deliveredValue id true d = d)
          ∧ (signed → d < 65536 → deliveredValue id false d = if d < 32768 then (d : Int) else d - 65536)
          ∧ (signed → d < 4294967296 → deliveredValue id true d = if d < 2147483648 then (d : Int) else d - 4294967296))

/-- A pass that has used up its budget with a due entry not ended ends, acquisition and dispatch alike: PASS_OVERRUN is
latched, and the index of the entry whose turn it was is captured unless one is held. In a table with no bit flipped,
that entry and each due entry behind it adds one to ENTRIES_SKIPPED and, in the acquisition pass, makes a MISSED item,
with cause BUDGET, or CORRUPT for an entry that is marked and not begun; an entry whose turn it was and that is marked
CORRUPT is skipped for that alone, when its stored fields make it due, and the overrun is that of the next due entry
that is not, or there is none (R177; log 31). The acquisition pass then waits for publication; the service pass begins
after the dispatch pass. The dispatch mark: before publication it is only recorded; after it the dispatch pass begins,
at its first due entry that runs, or, with none, ends; in a table with no bit flipped each entry skipped on the way
adds one to ENTRIES_SKIPPED; a second mark in a frame, or one with no frame, changes nothing (log 2). -/
def Obligations.PassesEndAndBeginAtTheirEvents : Prop :=
  (∀ s : State, Live s →
      (budgetUsedUp s = false → exec .budgetExhaustion s = .next s)
        ∧ ∀ r : Run, s.slc.phase = .acq ∨ s.slc.phase = .dispatch → s.slc.run = some r → s.slc.slot = none →
          (if s.slc.phase = .acq then s.hli.force.acqBudget else s.hli.force.dispatchBudget) ≤ s.slc.slots →
          let f : Func := if s.slc.phase = .acq then .read else .write
          let behind : List Nat := (List.range' s.slc.passIdx (64 - s.slc.passIdx)).filter
            (fun j => due f s.slc.frameNo (entryAt j s))
          let item (j : Nat) (e : AcqEntry) (c : MissCause) : List Delivery :=
            if e.func = .read ∧ isInput e.signal = true then [⟨j, e.signal, s.slc.frameNo, .missed c⟩] else []
          let own : AcqEntry := entryAt r.entry s
          let met : Nat := if due f s.slc.frameNo own = true then 1 else 0
          let told : List Delivery := if due f s.slc.frameNo own = true then item r.entry own .corrupt else []
          let marked (js : List Nat) (c : MissCause) : List Delivery :=
            js.flatMap (fun j => item j (entryAt j s) (if (entryAt j s).corrupt then .corrupt else c))
          let ended (t : State) : Prop :=
            t.slc.run = none ∧ (s.slc.phase = .acq → t.slc.phase = .acqEnded)
              ∧ (s.slc.phase = .dispatch → t.slc.phase = (if s.slc.loopLost = true ∨ s.hli.force.serviceBudget = 0
                  ∨ s.slc.queue = [] then .done else .service) ∧ t.slc.slots = 0)
              ∧ t.slc.dir = s.slc.dir ∧ t.out = s.out ∧ t.dsc = s.dsc
          let overrun (t : State) (i : Nat) : Prop :=
            standing .passOverrun t = true ∧ t.hli.firstSkipped = (match s.hli.firstSkipped with | some k => some k | none => some i)
          let skips (t : State) (n : Nat) : Prop :=
            t.hli.counters = { s.hli.counters with entriesSkipped := Nat.repeat Counter.rise n s.hli.counters.entriesSkipped }
          (r.begun = true ∨ own.corrupt = false → ∃ t, exec .budgetExhaustion s = .next t ∧ ended t ∧ overrun t r.entry
              ∧ (∀ d ∈ t.slc.delivery, d ∈ s.slc.delivery ∨ d.result = .missed .budget ∨ d.result = .missed .corrupt)
              ∧ ((∀ p ∈ s.slc.acq, p.flips = []) →
                t.slc.delivery = s.slc.delivery ++ item r.entry r.e .budget ++ marked behind .budget
                  ∧ skips t (1 + behind.length)))
            ∧ (r.begun = false → own.corrupt = true → ∃ t, exec .budgetExhaustion s = .next t ∧ ended t
              ∧ ((∀ p ∈ s.slc.acq, p.flips = []) → (∀ j ∈ behind, (entryAt j s).corrupt = true) →
                t.slc.delivery = s.slc.delivery ++ told ++ marked behind .corrupt ∧ skips t (met + behind.length)
                  ∧ t.hli.flags = s.hli.flags ∧ t.hli.firstSkipped = s.hli.firstSkipped)
              ∧ ∀ (pre post : List Nat) (j : Nat), behind = pre ++ j :: post → (∀ p ∈ s.slc.acq, p.flips = []) →
                (∀ k ∈ pre, (entryAt k s).corrupt = true) → (entryAt j s).corrupt = false → s.slc.loopLost = false →
                allExcluded (entryAt j s) s = false →
                overrun t j ∧ skips t (met + behind.length)
                  ∧ t.slc.delivery = s.slc.delivery ++ told ++ marked behind .budget))
  ∧ (∀ s : State, Live s →
      (s.slc.phase = .idle ∨ s.slc.markReached = true → exec .dispatchMarkReached s = .next s)
        ∧ (s.slc.phase = .acq ∨ s.slc.phase = .acqEnded → s.slc.markReached = false →
            exec .dispatchMarkReached s = .next { s with slc.markReached := true })
        ∧ (s.slc.phase = .published → s.slc.markReached = false →
            ∃ t, exec .dispatchMarkReached s = .next t ∧ t.slc.markReached = true ∧ t.slc.slots = 0
              ∧ (t.slc.phase = .dispatch ∧ t.slc.run.isSome ∨ t.slc.run = none ∧ (t.slc.phase = .service ∨ t.slc.phase = .done))
              ∧ t.slc.delivery = s.slc.delivery ∧ t.out = s.out ∧ t.slc.dir = s.slc.dir
              ∧ ((∀ p ∈ s.slc.acq, p.flips = []) → ∀ r, t.slc.run = some r →
                r.begun = false ∧ r.e = entryAt r.entry s ∧ due .write s.slc.frameNo r.e = true ∧ r.e.corrupt = false
                ∧ t.hli.counters.entriesSkipped = Nat.repeat Counter.rise
                  ((List.range r.entry).countP (fun j => due .write s.slc.frameNo (entryAt j s)))
                  s.hli.counters.entriesSkipped)))

/-- The loop going DOWN: from SYNCING only the state changes, with its notice; from UP LOOP_WAS_DOWN is latched, no
exchange stays in its slot, no station's entry changes but as a governor reset taken in that slot sets it (R38), and
EXCH_FAILED does not rise; DOWN stays DOWN. A steering supply check whose release is in its slot ends with the outcome
that its LOOP_DOWN abort leaves pending, RELEASE_UNCONFIRMED (R158, R159; the order is log 10). -/
def Obligations.LoopLossSparesTheStations : Prop :=
  ∀ s : State, Live s →
    (s.slc.loopState = .down → exec .loopEdgeTimeout s = .next s)
      ∧ (s.slc.loopState = .syncing →
          exec .loopEdgeTimeout s = .next (notify (.loop .down) { s with slc.loopState := .down }))
      ∧ (s.slc.loopState = .up → (∀ it ∈ s.slc.held, it.claimant ≠ .reinstate) →
          ∃ t, exec .loopEdgeTimeout s = .next t ∧ t.slc.loopState = .down ∧ standing .loopWasDown t = true
            ∧ t.slc.slot = none
            ∧ (s.slc.slot.any (·.afterReset) = false → t.slc.dir = s.slc.dir)
            ∧ (s.slc.slot.any (·.afterReset) = true → t.slc.dir = s.slc.dir.map (fun e => { e with
                state := if e.state = .suspect then .enrolled else e.state, streak := 0 }))
            ∧ t.hli.counters.exchFailed = s.hli.counters.exchFailed
            ∧ t.slc.scan = none ∧ t.rgv.check.run = none
            ∧ (s.slc.phase = .acq ∨ s.slc.phase = .dispatch → t.slc.run = none)
            ∧ (∀ it ∈ t.slc.queue, it.claimant ≠ .reinstate)
            ∧ (∀ r x it its, s.sgv.run = some r → r.phase = .release → s.slc.slot = some x → x.claim = .service →
                s.slc.queue = it :: its → it.claimant = .steerCheck → it.discard = false →
                let o : SteerOutcome × ProcCause := match r.pending with
                  | some (.aborted, c) => (.aborted, c)
                  | some (.none, c) => (.none, c)
                  | _ => (.aborted, .loopDown)
                t.sgv.run = none ∧ t.sgv.result = ⟨o.1, o.2, r.init, r.final, s.slc.frameNo, true⟩))

/-- A LOOP-EXCHANGE whose exchange completes, in HALTED or in a service pass of a governing frame, for any address,
with neither check running, leaves the queue, its reply joins the outgoing queue with the outcome, the ready mark and
the data, in the model's order (log 22; where no reply arrived sound the mark is sent as 0, the model's choice, log
73; that the data are four bytes at either size is its choice too, log 74), and the deferred slot is free; the items
behind it move up, and the service pass ends with its queue empty or its budget used. An enrolled station takes the
outcome: taken, streak 0 and ENROLLED unless EXCLUDED; UNTAKEN, CHECK or NO_REPLY, a failure of that kind judged by
the settings in force; no other entry changes. A REINSTATE probe whose exchange completes leaves the queue, is
answered with its outcome, and frees the deferred slot: TAKEN_READY with the directory's kind enrols the station with
streak 0 and the revision read; with another kind, or TAKEN_NOT_READY, the entry stays; UNTAKEN, CHECK and NO_REPLY
leave it EXCLUDED and add to its streak and total. No other station's entry changes. The reply's bytes are in the
model's order (log 22). Held items join the queue while it has room, in the order in which they began to be held. -/
def Obligations.ServiceItemsCompleteAndJoin : Prop :=
  (∀ (it : Item) (its : List Item) (x : SlotEx) (tag : Byte) (s : State), Live s →
      (s.dsc.gov = .halted ∧ s.slc.phase = .idle ∨ s.dsc.gov ≠ .halted ∧ s.slc.phase = .service) →
      s.slc.slot = some x → x.claim = .service → x.afterReset = false → x.tolerate = false →
      s.slc.queue = it :: its → it.claimant = .loopExchange → it.discard = false → it.retry = none → s.slc.held = [] →
      s.rgv.check.run = none → s.sgv.run = none → s.hli.deferred = some ⟨.loopExchange, tag⟩ →
      let ends (out : Host.Outcome State Fault Refusal) (h : Heard) (station : Station → Station) : Prop :=
        ∃ t, out = .next t ∧ t.slc.queue = its ∧ t.slc.slot = none ∧ t.hli.deferred = none
          ∧ t.hli.tx = s.hli.tx ++ [.reply true 0x8E tag (.done (vEnum (exOutcomeCode h.outcome) ++ vMark h.ready
              ++ beBytes 4 h.data))]
          ∧ t.slc.phase = (if s.slc.phase = .service ∧ (its = [] ∨ s.hli.force.serviceBudget ≤ s.slc.slots) then .done
              else s.slc.phase)
          ∧ t.slc.dir.map (·.addr) = s.slc.dir.map (·.addr)
          ∧ stationAt x.addr t = (stationAt x.addr s).map station ∧ (∀ b, b ≠ x.addr → stationAt b t = stationAt b s)
      let failed (k : FailKind) (e : Station) : Station := (e.fail k).judge s.hli.force
      ends (exec .slotTimeout s) ⟨.noReply, false, 0⟩ (failed .noReply)
        ∧ ∀ (ws : List RxWord) (h : Heard), heardReply x ws = some h →
          let o := exec (.exchangeComplete ws) s
          (h.outcome = .takenReady ∨ h.outcome = .takenNotReady →
              ends o h (fun e => if e.state = .excluded then e else { e with streak := 0, state := .enrolled }))
            ∧ (h.outcome = .untaken → ends o h (failed .untaken)) ∧ (h.outcome = .check → ends o h (failed .check))
            ∧ h.outcome ≠ .noReply ∧ h.outcome ≠ .excluded ∧ h.outcome ≠ .loopDown)
  ∧ (∀ (it : Item) (its : List Item) (x : SlotEx) (st : Station) (tag : Byte) (s : State), Live s →
      s.dsc.gov = .halted → s.slc.phase = .idle → s.slc.slot = some x → x.claim = .service → x.afterReset = false →
      x.tolerate = false → x.addr = it.addr → s.slc.queue = it :: its → it.claimant = .reinstate → it.discard = false →
      it.retry = none → s.slc.held = [] → s.hli.deferred = some ⟨.reinstate, tag⟩ → stationAt it.addr s = some st →
      st.state = .excluded →
      let ends (out : Host.Outcome State Fault Refusal) (st' : Station) (data : List Byte) : Prop :=
        ∃ t, out = .next t ∧ t.slc.queue = its ∧ t.slc.slot = none ∧ t.hli.deferred = none
          ∧ stationAt it.addr t = some st' ∧ (∀ b, b ≠ it.addr → stationAt b t = stationAt b s)
          ∧ t.hli.tx = s.hli.tx ++ [.reply true 0x8F tag (.done data)]
      let failed (k : FailKind) : Station := { st with
        streak := if st.streak < 255 then st.streak + 1 else 255
        total := if st.total < 65535 then st.total + 1 else 65535, lastFail := k }
      ends (exec .slotTimeout s) (failed .noReply) (vEnum 3)
        ∧ ∀ (ws : List RxWord) (h : Heard), heardReply x ws = some h →
          let o := exec (.exchangeComplete ws) s
          (h.outcome = .takenReady → h.data / 4096 % 16 = kindCode st.kind →
              ends o { st with state := .enrolled, streak := 0, revision := h.data % 256 }
                (vEnum 7 ++ vCount (h.data % 256)))
            ∧ (h.outcome = .takenReady → h.data / 4096 % 16 ≠ kindCode st.kind →
              ends o st (vEnum 8 ++ vEnum (h.data / 4096 % 16)))
            ∧ (h.outcome = .takenNotReady → ends o st (vEnum 9))
            ∧ (h.outcome = .untaken → ends o (failed .untaken) (vEnum 2))
            ∧ (h.outcome = .check → ends o (failed .check) (vEnum 4)))
  ∧ (∀ s : State, Live s →
      exec .heldItemJoin s = .next { s with
        slc.queue := s.slc.queue ++ s.slc.held.take (8 - s.slc.queue.length)
        slc.held := s.slc.held.drop (8 - s.slc.queue.length) })

/-! ### Screening and the image (chapter 4) -/

/-- The hold path: from FRESH, KEPT, SUBST or HELD the held count rises by one, up to 255, the value stays, and the
signal is HELD while the count is at most its hold allowance, then BAD; from ABSENT the same with value 0 and ABSENT;
BAD stays BAD. With a hold allowance of 2, three misses in a row of a FRESH signal make it HELD, HELD and BAD. -/
def Obligations.HoldPathKeepsWithinTheAllowance : Prop :=
  (∀ (id : Nat) (e : ImageEntry),
      let h := if e.heldCount < 255 then e.heldCount + 1 else 255
      (e.quality = .fresh ∨ e.quality = .kept ∨ e.quality = .subst ∨ e.quality = .held →
        holdPath id e = { e with heldCount := h, quality := if h ≤ holdAllowance id then .held else .bad })
      ∧ (e.quality = .absent →
        holdPath id e = { e with
          value := 0, heldCount := h, quality := if h ≤ holdAllowance id then .absent else .bad })
      ∧ (e.quality = .bad → holdPath id e = e))
    ∧ ∀ (id : Nat) (e : ImageEntry), holdAllowance id = 2 → e.quality = .fresh → e.heldCount = 0 →
        let a := holdPath id e
        let b := holdPath id a
        let c := holdPath id b
        a.quality = .held ∧ a.heldCount = 1 ∧ b.quality = .held ∧ b.heldCount = 2 ∧ c.quality = .bad
          ∧ c.value = e.value

/-- The substitution path: a FRESH or KEPT partner gives its value, SUBST and held count 0; a SUBST partner gives its
value with the held count one higher, BAD once that is above the hold allowance; any other partner leaves the hold
path. The partner is stored at a SUBST outcome. A signal with no item in the delivery buffer is not due: FRESH and KEPT
become KEPT with held count 0 and the value kept; HELD, and ABSENT with a held count above 0, take the hold path; SUBST
takes the substitution path with its stored partner; ABSENT with held count 0 and BAD stay as they are. A held count
that stands at its hold allowance passes it: the signal is BAD, its latched-bad mark is set and SIGNAL_BAD latched; its
value and the other signals stay. That the row needs the count at its allowance is the model's choice (log 3). -/
def Obligations.SignalsAreSubstitutedKeptOrTurnedBad : Prop :=
  (∀ (id p : Nat) (q e : ImageEntry),
      let h := if e.heldCount < 255 then e.heldCount + 1 else 255
      (q.quality = .fresh ∨ q.quality = .kept →
          substPath id p q e = { e with value := q.value, quality := .subst, heldCount := 0, partner := some p })
        ∧ (q.quality = .subst → h ≤ holdAllowance id →
          substPath id p q e = { e with value := q.value, quality := .subst, heldCount := h, partner := some p })
        ∧ (q.quality = .subst → holdAllowance id < h →
          (substPath id p q e).quality = .bad ∧ (substPath id p q e).heldCount = h)
        ∧ (q.quality = .held ∨ q.quality = .bad ∨ q.quality = .absent → substPath id p q e = holdPath id e))
  ∧ (∀ (old : List ImageEntry) (id : Nat) (e : ImageEntry),
      (e.quality = .fresh ∨ e.quality = .kept → notDue old id e = { e with quality := .kept, heldCount := 0 })
        ∧ (e.quality = .held → notDue old id e = holdPath id e)
        ∧ (∀ p, e.quality = .subst → e.partner = some p → notDue old id e = substPath id p (entryOf old p) e)
        ∧ (e.quality = .absent → e.heldCount = 0 → notDue old id e = e)
        ∧ (e.quality = .absent → e.heldCount ≠ 0 → notDue old id e = holdPath id e)
        ∧ (e.quality = .bad → notDue old id e = e))
  ∧ (∀ (sig : Nat) (e : ImageEntry) (fs : List Nat) (s : State), Live s → isInput sig = true →
      s.sgs.image[sig - 1]? = some ⟨e, fs⟩ → e.quality ≠ .bad → e.heldCount = holdAllowance sig →
      exec (.holdAllowanceExceeded sig) s = .next { s with
        sgs.image := s.sgs.image.set (sig - 1)
          ⟨{ e with quality := .bad, latchedBad := true, heldCount := holdAllowance sig + 1 }, fs⟩
        hli.flags := s.hli.flags ||| Flag.signalBad.mask })

/-- The three tests: RANGE between its bounds, both inclusive; STEP within its bound of the signal's own value in
image N-1 when that was FRESH, KEPT, SUBST or HELD, else passing; AGREE within its bound of the partner's delivery of
this frame, else of its usable value in image N-1, else passing. A delivery of a signal that no valid screening entry
names passes: FRESH, the delivered value, held count 0, from any earlier quality. With one valid sound entry naming
it, a delivery that passes its test does the same, and one that fails is rejected: the entry's fail count and
SCREEN_REJECTS rise, and the fail action decides. This update and the edit below take a pending injection of the
SCREEN memory into their entry, which is then cleared (R181; the bits are free, log 13). A TABLE-WRITE of one valid
screening entry that passes the checks of R68 is taken in every governing state: the entry is stored with fail count 0
and its CORRUPT mark clear, no other entry changes, and the reply is DONE. A TABLE-WRITE of any number of entries, up
to a payload of 240 bytes: more than one outside HALTED is refused with NOT_HALTED; else the first entry written valid
that fails a check, SIGNAL_CLASS, FIELD, PARTNER in that order, refuses the whole with its index; a negative bound of
STEP or AGREE fails none, the model's reading (log 32). Otherwise every entry of the request is stored, one written
not valid with all its other fields zero, and the rest of the table stays. -/
def Obligations.DeliveriesAreScreenedByTheTable : Prop :=
  (∀ (old : List ImageEntry) (buf : List Delivery) (e : ScreenEntry) (id : Nat) (d : Int),
      (e.test = .range → (testPasses old buf e id d = true ↔ e.low ≤ d ∧ d ≤ e.high))
        ∧ (e.test = .step → (testPasses old buf e id d = true ↔
            ((entryOf old id).quality = .absent ∨ (entryOf old id).quality = .bad
              ∨ ((d - (entryOf old id).value).natAbs : Int) ≤ e.low)))
        ∧ (∀ v, e.test = .agree → deliveredFor buf e.partner = some v →
            (testPasses old buf e id d = true ↔ ((d - v).natAbs : Int) ≤ e.low))
        ∧ (e.test = .agree → deliveredFor buf e.partner = none → (entryOf old e.partner).quality.usable = true →
            (testPasses old buf e id d = true ↔ ((d - (entryOf old e.partner).value).natAbs : Int) ≤ e.low))
        ∧ (e.test = .agree → deliveredFor buf e.partner = none → (entryOf old e.partner).quality.usable = false →
            testPasses old buf e id d = true))
  ∧ (∀ (old : List ImageEntry) (buf : List Delivery) (id : Nat) (d : Int) (s : State), deliveredFor buf id = some d →
      let e := entryOf old id
      let pass : ImageEntry := { e with value := d, quality := .fresh, heldCount := 0 }
      ((∀ p ∈ s.sgs.screen, p.val.valid = true → p.val.signal ≠ id) → screenSignal old buf (screenContent s) id s = (pass, s))
        ∧ ∀ (i : Nat) (c : ScreenEntry), i < 96 → s.sgs.screen[i]? = some ⟨c, []⟩ → c.valid = true → c.signal = id →
          c.corrupt = false → (∀ j p, j ≠ i → s.sgs.screen[j]? = some p → p.val.valid = true → p.val.signal ≠ id) →
          (testPasses old buf c id d = true → screenSignal old buf (screenContent s) id s = (pass, s))
          ∧ (testPasses old buf c id d = false →
              (screenSignal old buf (screenContent s) id s).1 =
                (match c.action with
                  | .hold => holdPath id e
                  | .subst => substPath id c.partner (entryOf old c.partner) e
                  | _ => { e with quality := .bad })
              ∧ ∃ (fs : List Nat) (n : Nat), Struck s.imn.screen.inject fs
                ∧ (s.imn.screen.inject = .none → n = s.imn.freeCount)
                ∧ (screenSignal old buf (screenContent s) id s).2 =
                { s with
                  sgs.screen := s.sgs.screen.set i ⟨{ c with
                    failCount := if c.failCount < 65535 then c.failCount + 1 else 65535 }, fs⟩
                  imn.screen.inject := .none, imn.freeCount := n
                  hli.counters.screenRejects := s.hli.counters.screenRejects.rise }))
  ∧ (∀ (tag : Byte) (data : List Byte) (s : State), CanTake s → tag ≠ 0#8 → s.hli.cursor.table = 2 → s.hli.cursor.index < 96 →
      s.hli.cursor.mode = .none → s.sgs.screen.length = 96 → data.length = 12 →
      let e := decodeScreen data
      e.valid = true → isInput e.signal = true → e.test ≠ .unknown → e.action ≠ .unknown →
      (e.test = .range → e.low ≤ e.high) →
      (e.test = .agree ∨ e.action = .subst → isInput e.partner = true ∧ e.partner ≠ e.signal) →
      (e.test ≠ .agree → e.action ≠ .subst → e.partner = 0) →
      ∃ (e' : ScreenEntry) (fs : List Nat) (n : Nat), Struck s.imn.screen.inject fs
        ∧ (s.imn.screen.inject = .none → n = s.imn.freeCount)
        ∧ exec (.tableWrite tag data) s =
          .next ({ s with
            sgs.screen := s.sgs.screen.set s.hli.cursor.index ⟨e', fs⟩
            imn.screen.inject := .none, imn.freeCount := n }.answered 0x87 tag [])
        ∧ e'.valid = true ∧ e'.signal = e.signal ∧ e'.test = e.test ∧ e'.low = e.low ∧ e'.partner = e.partner
        ∧ e'.action = e.action ∧ e'.failCount = 0 ∧ e'.corrupt = false ∧ (e.test = .range → e'.high = e.high))
  ∧ (∀ (tag : Byte) (data : List Byte) (s : State), CanTake s → tag ≠ 0#8 → s.hli.cursor.table = 2 →
      s.hli.cursor.mode = .none → s.sgs.screen.length = 96 → data ≠ [] → data.length % 12 = 0 →
      data.length ≤ 240 →
      let n := data.length / 12
      let i := s.hli.cursor.index
      let written (k : Nat) : ScreenEntry := decodeScreen ((data.drop (12 * k)).take 12)
      let failing (e : ScreenEntry) : Option Detail :=
        if isInput e.signal = false then some .signalClass
        else if e.test = .unknown ∨ e.action = .unknown ∨ (e.test = .range ∧ e.high < e.low) then some .field
        else if e.test = .agree ∨ e.action = .subst then
          (if isInput e.partner = true ∧ e.partner ≠ e.signal then none else some .partner)
        else if e.partner = 0 then none else some .partner
      let sound (e : ScreenEntry) : Prop := e.valid = true → failing e = none
      let stored (e : ScreenEntry) : ScreenEntry :=
        if e.valid then { e with high := if e.test = .range then e.high else 0 }
        else ⟨false, 0, .range, 0, 0, 0, .hold, 0, false⟩
      i + n ≤ 96 →
      (1 < n → s.dsc.gov ≠ .halted → exec (.tableWrite tag data) s = .next (s.turnedAway 0x87 tag .state .notHalted 0))
        ∧ (n = 1 ∨ s.dsc.gov = .halted →
          (∀ (k : Nat) (d : Detail), k < n → (written k).valid = true → failing (written k) = some d →
              (∀ j, j < k → sound (written j)) →
              exec (.tableWrite tag data) s = .next (s.turnedAway 0x87 tag .range d (i + k)))
          ∧ ((∀ j, j < n → sound (written j)) →
            ∃ (fs : List Nat) (m : Nat), Struck s.imn.screen.inject fs ∧ (s.imn.screen.inject = .none → m = s.imn.freeCount)
              ∧ exec (.tableWrite tag data) s = .next ({ s with
                sgs.screen := s.sgs.screen.mapIdx (fun j p => if i ≤ j ∧ j < i + n then
                  ⟨stored (written (j - i)), if j = i then fs else []⟩ else p)
                imn.screen.inject := .none, imn.freeCount := m }.answered 0x87 tag []))))

/-- SIGNAL-READ: no id or more than 16 is refused with FORMAT/LENGTH; the first id not in the catalog is refused with
RANGE/SIGNAL. Otherwise, with no bit of the image flipped, the reply carries one item per id, in request order, as the
image and the postings stand when it is taken (its bytes in the model's order, log 22): of an input value, quality,
age, held count and latched-bad mark; of VSPD and PAYLOAD_NOW value, quality and the image's frame; of every other
output or derived signal the posted value and its frame or the not-posted mark. The image after it is the old one with
the latched-bad mark of each input named cleared, or standing while the signal is BAD (R74); nothing else changes. With
flipped bits the entries not named stay; one named is read through the integrity monitor first: with one flipped bit it
is corrected, with more it is BAD, marked latched bad. -/
def Obligations.SignalReadClearsTheMarksItNames : Prop :=
  ∀ (tag : Byte) (ids : List Byte) (s : State), CanTake s → tag ≠ 0#8 →
    let ns := ids.map (·.toNat)
    let entry (j : Nat) : ImageEntry := ((s.sgs.image[j - 1]?).map (·.val)).getD .initial
    let derived (d : Derived) : List Byte := vQuant d.value ++ vEnum (qualityCode d.quality) ++ vFrame s.sgs.imageFrame
    let posted (p : Posted) : List Byte := vQuant p.value ++
      (match p.frame with
        | some f => vMark true ++ vFrame f
        | none => vMark false ++ vFrame 0)
    let item (j : Nat) : List Byte :=
      if j ≤ 34 then vQuant (entry j).value ++ vEnum (qualityCode (entry j).quality) ++ vCount (entry j).age
        ++ vCount (entry j).heldCount ++ vMark (entry j).latchedBad
      else if j = 60 then derived s.sgs.vspd
      else if j = 61 then derived s.sgs.payload
      else posted (s.out.get j)
    let cleared (p : Prot ImageEntry) : Prot ImageEntry := ⟨{ p.val with latchedBad := p.val.quality == .bad }, []⟩
    (ids = [] ∨ 16 < ids.length → exec (.signalRead tag ids) s = .next (s.turnedAway 0x89 tag .format .length 9))
      ∧ (ids ≠ [] → ids.length ≤ 16 → ∀ n, ns.find? (fun n => !inCatalog n) = some n →
          exec (.signalRead tag ids) s = .next (s.turnedAway 0x89 tag .range .signal n))
      ∧ (ids ≠ [] → ids.length ≤ 16 → (∀ n ∈ ns, inCatalog n = true) → (∀ p ∈ s.sgs.image, p.flips = []) →
          exec (.signalRead tag ids) s = .next ({ s with
            sgs.image := s.sgs.image.mapIdx (fun i p => if ns.contains (i + 1) then cleared p else p) }.answered 0x89 tag
            (beBytes 1 ids.length ++ ns.flatMap item)))
      ∧ (ids ≠ [] → ids.length ≤ 16 → (∀ n ∈ ns, inCatalog n = true) →
          ∃ t, exec (.signalRead tag ids) s = .next t
            ∧ t.hli.tx = s.hli.tx ++ [.reply false 0x89 tag (.done (vList id (signalItems ns s).1))]
            ∧ ((signalItems ns s).1).length = ids.length ∧ t.sgs.image.length = s.sgs.image.length
            ∧ (∀ (i : Nat) (p : Prot ImageEntry), i < 34 → s.sgs.image[i]? = some p →
                (i + 1 ∉ ns → t.sgs.image[i]? = some p)
                ∧ (i + 1 ∈ ns → p.flips.length ≤ 1 → t.sgs.image[i]? = some (cleared p))
                ∧ (i + 1 ∈ ns → 2 ≤ p.flips.length → ∃ e : ImageEntry,
                    t.sgs.image[i]? = some ⟨e, []⟩ ∧ e.quality = .bad ∧ e.latchedBad = true))
            ∧ t.dsc = s.dsc ∧ t.slc = s.slc ∧ t.out = s.out)

/-- Publication: with the acquisition pass ended, the settings stored come into force, the image of the frame is
published, the integrity monitor posts, the governing blocks compute from it and stage their outputs for the posting
row (log 7), and the frame goes on to its dispatch; before that end, with no budget used up, nothing is published (log
2). With the tables whole, no bit of the image or the screening table flipped and no injection pending for either, the
state after it is given whole. Each input signal's entry is decided against the image before it: a delivery that every
valid entry naming the signal passes makes it FRESH with the value delivered and held count 0; at the first entry that
fails, in table order, or is CORRUPT, it is rejected, that entry's fail count and SCREEN_REJECTS rise, and its action
decides, BAD for a CORRUPT one; only MISSED items take the hold path; no item is not due. Age is 0 when FRESH, 65535
when ABSENT, else one more; a signal that becomes BAD has its mark set and latches SIGNAL_BAD. VSPD and PAYLOAD_NOW are
drawn from these entries (log 29), and the IMN posts its lowest CORRUPT indexes. From that state, in the order of log
7, the EPU evaluates, with the qualities and the IMN posting of the frame before; then the TAL, RGV and SGV compute,
with the governing state, demand record and envelope as they stood. -/
def Obligations.PublicationPublishesTheFrame : Prop :=
  (∀ s : State, Live s →
      (s.slc.phase ≠ .acqEnded → budgetUsedUp s = false → exec .publication s = .next s)
        ∧ (s.slc.phase = .acqEnded →
          ∃ t, exec .publication s = .next t ∧ t.hli.force = s.hli.stored ∧ t.sgs.imageFrame = s.slc.frameNo
            ∧ t.slc.frameNo = s.slc.frameNo ∧ t.imn.posting.isSome ∧ t.tal.staged.map (·.frame) = some s.slc.frameNo
            ∧ t.rgv.staged.map (·.frame) = some s.slc.frameNo ∧ t.sgv.staged.map (·.frame) = some s.slc.frameNo
            ∧ t.slc.phase ≠ .acqEnded
            ∧ (s.slc.markReached = false → t.slc.phase = .published)
            ∧ t.epu.stopReport = false ∧ t.epu.demandReport = false
            ∧ t.dsc.demand = s.dsc.demand ∧ t.slc.dir = s.slc.dir
            ∧ (s.dsc.gov ≠ .drive → t.dsc.gov = s.dsc.gov)
            ∧ (s.dsc.gov = .drive → t.dsc.gov = .drive ∨ t.dsc.gov = .safeHold)))
  ∧ (∀ s : State, Live s → TablesWhole s → s.slc.phase = .acqEnded → (∀ p ∈ s.sgs.image, p.flips = []) →
      (∀ p ∈ s.sgs.screen, p.flips = []) → s.imn.image.inject = .none → s.imn.screen.inject = .none →
      let buf := s.slc.delivery
      let old : List ImageEntry := s.sgs.image.map (·.val)
      let ids : List Nat := (List.range 34).map (· + 1)
      let scr (j : Nat) : ScreenEntry := (s.sgs.screen.map (·.val)).getD j .empty
      let rejecter (id : Nat) : Option Nat := (deliveredFor buf id).bind (fun d => (List.range 96).find? (fun j =>
        (scr j).valid && (scr j).signal == id && ((scr j).corrupt || !testPasses old buf (scr j) id d)))
      let decided (id : Nat) : ImageEntry :=
        let e := entryOf old id
        match deliveredFor buf id, rejecter id with
        | some d, none => { e with value := d, quality := .fresh, heldCount := 0 }
        | some _, some j =>
          if (scr j).corrupt then { e with quality := .bad }
          else
            match (scr j).action with
            | .hold => holdPath id e
            | .subst => substPath id (scr j).partner (entryOf old (scr j).partner) e
            | _ => { e with quality := .bad }
        | none, _ => if buf.any (·.signal == id) then holdPath id e else notDue old id e
      let turnsBad (id : Nat) : Bool := (decided id).quality == .bad && (entryOf old id).quality != .bad
      let image : List ImageEntry := ids.map (fun id =>
        let n := decided id
        { n with
          age := if n.quality = .fresh then 0 else if n.quality = .absent then 65535
            else if n.age < 65535 then n.age + 1 else 65535
          latchedBad := n.latchedBad || turnsBad id })
      let lowest (marks : List Bool) : Option Nat := (List.range marks.length).find? (fun i => marks.getD i false)
      let p : State := { s with
        hli.force := s.hli.stored
        hli.flags := if ids.any turnsBad then s.hli.flags ||| Flag.signalBad.mask else s.hli.flags
        hli.counters.screenRejects :=
          Nat.repeat Counter.rise (ids.countP (fun id => (rejecter id).isSome)) s.hli.counters.screenRejects
        sgs.image := image.map (⟨·, []⟩)
        sgs.screen := s.sgs.screen.mapIdx (fun j q => if ids.any (fun id => rejecter id == some j) then
          ⟨{ q.val with failCount := if q.val.failCount < 65535 then q.val.failCount + 1 else 65535 }, []⟩ else q)
        sgs.vspd := vspdOf s.hli.stored image s.sgs.vspd
        sgs.payload := payloadOf s.hli.stored image s.sgs.payload
        sgs.imageFrame := s.slc.frameNo
        imn.posting := some (lowest (s.slc.acq.map (·.val.corrupt)), lowest (s.sgs.screen.map (·.val.corrupt))) }
      let env := s.epu.posting
      let e := evaluateEpu old s.sgs.vspd.quality s.imn.posting p
      let v := computeSgv s.dsc.gov s.dsc.demand.steer env.env.steerRate
        (computeRgv s.dsc.gov s.dsc.demand env (computeTal s.dsc.gov s.dsc.demand env e))
      exec .publication s = .next (if s.slc.markReached then beginDispatch v else { v with slc.phase := .published })
        ∧ (s.slc.markReached = true → (beginDispatch v).tal = v.tal ∧ (beginDispatch v).rgv = v.rgv
          ∧ (beginDispatch v).sgv = v.sgv ∧ (beginDispatch v).sgs = v.sgs ∧ (beginDispatch v).epu = v.epu)
        ∧ v.sgs.image = p.sgs.image ∧ v.sgs.screen = p.sgs.screen ∧ v.hli.counters.screenRejects = p.hli.counters.screenRejects
        ∧ (ids.any turnsBad = true → standing .signalBad v = true))

/-! ### Envelope, derates and trips (chapter 5) -/

/-- A condition on a value: over its arising threshold it is present, past its going threshold absent, between the two
it keeps its presence; a value that is not usable leaves it as it was. A condition that asks for a number of
evaluations counts consecutive ones and is present from the one at which the count reaches it. The counts of
DC_LINK_OVER (2) and OVERSPEED (20) reaching their numbers while governing: the condition is present, and nothing else
changes. That the row needs a count one short is the model's choice (log 3). An evaluation brings the presences on
values up to date: each rises past its arising threshold and goes past its going threshold of R85 to R87, keeps between
the two, and keeps while its value is not usable; DC_LINK_OVER asks for 2 evaluations and OVERSPEED for 20; GRID_HEAT
takes the higher ratio over the grids with capacity, keeps with none, and without an RGV posting is absent. The 17
derate keys of R85 in table order, L ahead of R (the model's order, log 63), each with its kind, presence and limit
(0.1 % and 0.1 km/h, rounded down; none where the value it is drawn from is not usable, and for GRID_HEAT where no grid
has a capacity above 0, so that its record keeps its last limit there: the model's choice, log 70), and the 18 causes of R86 and
R87 with presence and detail: before the first postings of a run nothing is lost; a station bound to an output is found
in the table as it stands (log 30), and the detail of INVERTER_FAULT is that of the first of its ways that holds (log
44). An evaluation, with no bit of the image flipped, keeps the presences, and meets both lists with them, after
weighing the payload. -/
def Obligations.ConditionsAriseAndGo : Prop :=
  ((∀ (e : ImageEntry) (arises goes : Int → Bool) (last : Bool),
        (e.quality.usable = false → presence e arises goes last = last)
        ∧ (e.quality.usable = true → arises e.value = true → presence e arises goes last = true)
        ∧ (e.quality.usable = true → arises e.value = false → goes e.value = true → presence e arises goes last = false)
        ∧ (arises e.value = false → goes e.value = false → presence e arises goes last = last))
      ∧ ∀ (usable test : Bool) (num n : Nat) (last : Bool),
        (usable = false → countStep usable test n = n ∧ countPresence usable test num n last = last)
        ∧ (usable = true → test = false → countStep usable test n = 0 ∧ countPresence usable test num n last = false)
        ∧ (usable = true → test = true →
            countStep usable test n = n + 1 ∧ (countPresence usable test num n last = true ↔ num ≤ n + 1)))
  ∧ (∀ s : State, Live s → s.dsc.gov ≠ .halted →
      (s.epu.pres.dcLinkCount = 1 → s.epu.pres.dcLinkOver = false →
          exec (.conditionCountReached .dcLinkOver) s =
            .next { s with epu.pres.dcLinkOver := true, epu.pres.dcLinkCount := 2 })
        ∧ (s.epu.pres.overspeedCount = 19 → s.epu.pres.overspeed = false →
          exec (.conditionCountReached .overspeed) s =
            .next { s with epu.pres.overspeed := true, epu.pres.overspeedCount := 20 }))
  ∧ (∀ (i : EvalIn) (s : State),
      let p := s.epu.pres
      let q := nextPresences i s
      let level (e : ImageEntry) (up down : Int → Prop) (was now : Bool) : Prop :=
        (e.quality.usable = false → now = was) ∧ (e.quality.usable = true → up e.value → now = true)
          ∧ (e.quality.usable = true → down e.value → now = false)
          ∧ (e.quality.usable = true → ¬up e.value → ¬down e.value → now = was)
      let at' (lim : Int) (e : ImageEntry) (was now : Bool) : Prop := level e (fun v => lim ≤ v) (fun v => v < lim) was now
      let mark (e : ImageEntry) (was now : Bool) : Prop :=
        level e (fun v => v / 32768 % 2 = 1) (fun v => v / 32768 % 2 = 0) was now
      let counted (usable high : Prop) (num n n' : Nat) (was now : Bool) : Prop :=
        (¬usable → now = was ∧ n' = n) ∧ (usable → ¬high → now = false ∧ n' = 0)
          ∧ (usable → high → n' = n + 1 ∧ (now = true ↔ num ≤ n + 1))
      level i.mtL (fun v => 1500 < v) (fun v => v < 1450) p.motorHotL q.motorHotL
        ∧ level i.mtR (fun v => 1500 < v) (fun v => v < 1450) p.motorHotR q.motorHotR
        ∧ level i.itL (fun v => 800 < v) (fun v => v < 770) p.inverterHotL q.inverterHotL
        ∧ level i.itR (fun v => 800 < v) (fun v => v < 770) p.inverterHotR q.inverterHotR
        ∧ level i.vdc (fun v => 2700 < v) (fun v => v < 2650) p.dcLinkHigh q.dcLinkHigh
        ∧ mark i.isL p.faultMarkL q.faultMarkL ∧ mark i.isR p.faultMarkR q.faultMarkR
        ∧ at' 1050 i.itL p.inverterTripL q.inverterTripL ∧ at' 1050 i.itR p.inverterTripR q.inverterTripR
        ∧ at' 1900 i.mtL p.motorTripL q.motorTripL ∧ at' 1900 i.mtR p.motorTripR q.motorTripR
        ∧ at' 700 i.gtA p.gridTripA q.gridTripA ∧ at' 700 i.gtB p.gridTripB q.gridTripB
        ∧ counted (i.vdc.quality.usable = true) (2850 < i.vdc.value) 2 p.dcLinkCount q.dcLinkCount p.dcLinkOver q.dcLinkOver
        ∧ counted (s.sgs.vspd.quality.usable = true) (s.epu.posting.env.speedLimit + 80 < s.sgs.vspd.value) 20
            p.overspeedCount q.overspeedCount p.overspeed q.overspeed
        ∧ (s.rgv.cond = none → q.gridHeat = false)
        ∧ ∀ c, s.rgv.cond = some c →
          let hot (k : Int) : Prop :=
            0 < c.emaxA ∧ k * c.emaxA ≤ 100 * c.energyA ∨ 0 < c.emaxB ∧ k * c.emaxB ≤ 100 * c.energyB
          (c.emaxA ≤ 0 ∧ c.emaxB ≤ 0 → q.gridHeat = p.gridHeat)
            ∧ (hot 85 → q.gridHeat = true)
            ∧ (0 < c.emaxA ∨ 0 < c.emaxB → ¬hot 80 → q.gridHeat = false)
            ∧ (hot 80 → ¬hot 85 → q.gridHeat = p.gridHeat))
  ∧ ((∀ (i : EvalIn) (p : Presences) (s : State),
        let lost (id : Nat) : Bool := i.imn.isSome && !(i.old.getD (id - 1) .initial).quality.usable
        let from' (e : ImageEntry) (l : Int → Int) : Option Int := if e.quality.usable then some (l e.value) else none
        let motor (t : Int) : Int := max 300 (min 1000 ((3000 - 7 * (t - 1500)) / 3))
        let inverter (t : Int) : Int := max 400 (min 1000 (1000 - 4 * (t - 800)))
        let heat : Option Int :=
          (s.rgv.cond.bind higherGrid).map (fun x => max 200 (min 500 ((2200 * x.2 - 2000 * x.1) / x.2)))
        let bound (sig : Nat) : Bool :=
          match boundAddr sig s, s.slc.posting with
          | some a, some c => c.stations.any (fun x => x.1 == a && x.2.2 == .excluded)
          | _, _ => false
        let fault (mark trip : Bool) (is it : ImageEntry) : Int :=
          if mark = true then is.value else if trip = true then it.value else 0
        let acq : Option Nat := i.imn.bind (·.1)
        let screen : Option Nat := i.imn.bind (·.2)
        (keyViews i p s).map (fun k => (k.cause, k.target, k.kind, k.present, k.limit)) =
            [(.motorHot, .left, .torque, p.motorHotL, from' i.mtL motor),
              (.motorHot, .right, .torque, p.motorHotR, from' i.mtR motor),
              (.inverterHot, .left, .torque, p.inverterHotL, from' i.itL inverter),
              (.inverterHot, .right, .torque, p.inverterHotR, from' i.itR inverter),
              (.tempUnknown, .left, .torque, lost 9 || lost 11, some 500),
              (.tempUnknown, .right, .torque, lost 10 || lost 12, some 500),
              (.slipPersist, .left, .propel, s.tal.cond.any (·.persistL), some 600),
              (.slipPersist, .right, .propel, s.tal.cond.any (·.persistR), some 600),
              (.slipRefLost, .vehicle, .propel, s.tal.cond.any (·.refLost), some 700),
              (.payloadOver, .vehicle, .speed, s.epu.cls == .over || s.epu.cls == .gross, some 300),
              (.gridHeat, .vehicle, .speed, p.gridHeat, heat),
              (.gridWithdrawn, .vehicle, .speed, s.rgv.cond.any (fun c => !c.usableA || !c.usableB), some 250)]
            ++ [(.dcLinkHigh, .vehicle, .retard, p.dcLinkHigh, some 700),
              (.steerTrack, .vehicle, .speed, s.sgv.cond.any (·.track), some 150),
              (.accLow, .vehicle, .speed, s.sgv.cond.any (·.accLow), some 200),
              (.stationSuspect, .vehicle, .speed, s.slc.posting.any (fun c => decide (0 < c.nSuspect)), some 250),
              (.ambientUnknown, .vehicle, .speed, lost 33 || lost 34, some 400)]
          ∧ (tripViews i p s).map (fun v => (v.cause, v.present, v.detail)) =
            [(.inverterFaultL, p.faultMarkL || p.inverterTripL || lost 13 || bound 40,
                fault p.faultMarkL p.inverterTripL i.isL i.itL),
              (.inverterFaultR, p.faultMarkR || p.inverterTripR || lost 14 || bound 41,
                fault p.faultMarkR p.inverterTripR i.isR i.itR),
              (.motorOvertempL, p.motorTripL, i.mtL.value), (.motorOvertempR, p.motorTripR, i.mtR.value),
              (.dcLinkOver, p.dcLinkOver, i.vdc.value),
              (.chopperFault, s.rgv.cond.any (fun c => !c.usableA && !c.usableB), 0),
              (.steerSupply, s.sgv.cond.any (·.supply), 0),
              (.steerAngleLost, i.imn.isSome && (i.old.getD 27 .initial).quality == .bad, 0),
              (.speedLost, i.imn.isSome && i.oldVspd == .bad, 0),
              (.loopLost, s.slc.posting.any (fun c => c.loop != .up || c.wasDown), 0)]
            ++ [(.demandLost, s.epu.demandReport || s.dsc.demandLost, 0), (.stopLine, s.epu.stopReport || s.dsc.stopLine, 0),
              (.tableFault, acq.isSome, ((acq.getD 0 : Nat) : Int)), (.payloadGross, s.epu.cls == .gross, s.epu.haul),
              (.gridOvertempA, p.gridTripA, i.gtA.value), (.gridOvertempB, p.gridTripB, i.gtB.value),
              (.screenFault, screen.isSome, ((screen.getD 0 : Nat) : Int)), (.overspeed, p.overspeed, s.sgs.vspd.value)])
      ∧ (∀ c : RgvCond,
        (higherGrid c = none ↔ c.emaxA ≤ 0 ∧ c.emaxB ≤ 0)
          ∧ ∀ e m, higherGrid c = some (e, m) →
            ((e, m) = (c.energyA, c.emaxA) ∨ (e, m) = (c.energyB, c.emaxB)) ∧ 0 < m
              ∧ (0 < c.emaxA → c.energyA * m ≤ e * c.emaxA) ∧ (0 < c.emaxB → c.energyB * m ≤ e * c.emaxB))
      ∧ ∀ (old : List ImageEntry) (oldVspd : Quality) (imn : Option (Option Nat × Option Nat)) (s : State),
        (∀ q ∈ s.sgs.image, q.flips = []) →
        let e (j : Nat) : ImageEntry := ((s.sgs.image[j - 1]?).map (·.val)).getD .initial
        let i : EvalIn := ⟨e 9, e 10, e 11, e 12, e 13, e 14, e 15, e 18, e 19, old, oldVspd, imn⟩
        let t := evaluateEpu old oldVspd imn s
        let w := weighPayload s
        t.epu.pres = nextPresences i s
          ∧ t.epu.derates = updateDerates s.slc.frameNo s.hli.force.derateHold (keyViews i t.epu.pres w) s.epu.derates
          ∧ ∃ u, u.epu.trips = s.epu.trips ∧ u.epu.pendingSet = s.epu.pendingSet ∧ u.slc = s.slc
            ∧ t.epu.trips = (updateTrips (tripViews i t.epu.pres w) u).epu.trips)

/-- The derate list meets the presence of one key: no record and present, one is created at the tail; ACTIVE and
present, its limit is set; ACTIVE and absent, it goes HOLDING with DERATE_HOLD remaining and its limit frozen; HOLDING
and present, it goes ACTIVE in its place; HOLDING and absent, its hold counts down, and at 0 it is removed. Records of
other keys stay. A key that shows no limit, its value not usable (R84) or, the model's choice, GRID_HEAT with no grid
of a capacity above 0 (log 70), leaves a held record its last limit. The hold of a derate running out while governing
removes that record, and those behind it close up; in HALTED holds are frozen. A record whose hold has more than 1
frame left stays (log 3). The list of an evaluation is brought up to date key by key, in the order in which the keys
are given. -/
def Obligations.DeratesAreMadeHeldAndRemoved : Prop :=
  (∀ (n hold : Nat) (k : KeyView) (ds : List Derate),
      ((∀ d ∈ ds, d.hasKey k.cause k.target = false) →
          (k.present = false → updateDerate n hold k ds = ds)
            ∧ ∀ l, k.present = true → k.limit = some l →
              updateDerate n hold k ds = ds ++ [⟨k.cause, k.target, k.kind, l, n, false, 0⟩])
        ∧ ∀ (pre post : List Derate) (d : Derate), ds = pre ++ d :: post → d.cause = k.cause → d.target = k.target →
          (∀ x ∈ pre ++ post, x.hasKey k.cause k.target = false) →
          updateDerate n hold k ds =
            (if k.present then
              pre ++ { d with holding := false, holdRemaining := 0, limit := k.limit.getD d.limit } :: post
            else if d.holding = false then pre ++ { d with holding := true, holdRemaining := hold } :: post
            else if d.holdRemaining ≤ 1 then pre ++ post
            else pre ++ { d with holdRemaining := d.holdRemaining - 1 } :: post))
  ∧ (∀ (c : DerateCause) (t : DerateTarget) (pre post : List Derate) (d : Derate) (s : State), Live s →
      (s.dsc.gov = .halted → exec (.derateHoldExpiry c t) s = .next s)
        ∧ (s.dsc.gov ≠ .halted → s.epu.derates = pre ++ d :: post → d.cause = c → d.target = t → d.holding = true →
            (∀ x ∈ pre ++ post, x.hasKey c t = false) →
            exec (.derateHoldExpiry c t) s =
              .next (if d.holdRemaining ≤ 1 then { s with epu.derates := pre ++ post } else s)))
  ∧ (∀ (n hold : Nat) (ks : List KeyView) (ds : List Derate),
      updateDerates n hold ks ds = ks.foldl (fun ds k => updateDerate n hold k ds) ds)

/-- The trip list meets one cause: no record and not pending, a record is created at the tail and raised while fewer
than 7 ordinary records are held; otherwise the cause joins the pending set, and the OVERFLOW record is created and
raised with the number of causes now pending as its lost count, or, held, counts one more lost (to 65535) and moves its
last frame on; an ACTIVE record's last frame moves on, or it goes CLEARABLE; a CLEARABLE record whose condition is
present goes ACTIVE, counts a recurrence and is raised again. The list is brought up to date with the causes in their
order, after the pending ones: the oldest pending cause is placed while there is room, with its own first frame and
detail, ACTIVE if its condition is present and CLEARABLE if not, and raised; causes still pending with no OVERFLOW
record held create one with their number. A raise is one event: the TRIP notice, TRIP_RAISED, the DSC's part (a SEVERE
raise in DRIVE takes SAFE-HOLD, any other changes no state), then the recorder's (in CAPTURE mode, for a SEVERE raise
or trigger ANY: RUNNING goes to POST with the post count and the first trip mark, or is FROZEN at once with RECORD_POST
0; POST adds a mark, up to 4, else a missed trip; FROZEN counts a missed trip), and for STEER_SUPPLY the steering
governor's; the trip and derate lists stay. LIMITING are the causes PAYLOAD_GROSS, GRID_OVERTEMP_A, GRID_OVERTEMP_B,
SCREEN_FAULT and OVERSPEED; every other cause is SEVERE. -/
def Obligations.TripsAreRecordedAndRaised : Prop :=
  (∀ (v : TripView) (s : State),
      let n := s.slc.frameNo
      ((s.epu.trips.find? (·.cause == v.cause)) = none → v.present = false → updateTrip v s = s)
        ∧ ((s.epu.trips.find? (·.cause == v.cause)) = none → v.present = true →
            s.epu.pendingSet.any (·.cause == v.cause) = true → updateTrip v s = s)
        ∧ ((s.epu.trips.find? (·.cause == v.cause)) = none → v.present = true →
            s.epu.pendingSet.any (·.cause == v.cause) = false → s.epu.trips.countP (·.cause != .overflow) < 7 →
            updateTrip v s = raise v.cause { s with
              epu.trips := s.epu.trips ++ [⟨v.cause, tripSevere v.cause, n, n, 0, false, v.detail⟩] })
        ∧ ((s.epu.trips.find? (·.cause == v.cause)) = none → v.present = true →
            s.epu.pendingSet.any (·.cause == v.cause) = false → 7 ≤ s.epu.trips.countP (·.cause != .overflow) →
            let w : State := { s with epu.pendingSet := s.epu.pendingSet ++ [⟨v.cause, n, v.detail⟩] }
            (s.epu.trips.any (·.cause == .overflow) = false → updateTrip v s = raise .overflow { w with
                epu.trips := s.epu.trips ++
                  [⟨.overflow, true, n, n, 0, true, min 65535 (((s.epu.pendingSet.length + 1 : Nat)) : Int)⟩] })
              ∧ ∀ (pre post : List Trip) (o : Trip), s.epu.trips = pre ++ o :: post → o.cause = .overflow →
                (∀ x ∈ pre ++ post, x.cause ≠ .overflow) →
                updateTrip v s = { w with epu.trips := pre ++ { o with
                  detail := min 65535 (o.detail + 1), last := n } :: post })
        ∧ ∀ (pre post : List Trip) (t : Trip), s.epu.trips = pre ++ t :: post → t.cause = v.cause →
          (∀ x ∈ pre ++ post, x.cause ≠ v.cause) →
          (v.present = true → t.clearable = false →
              updateTrip v s = { s with epu.trips := pre ++ { t with last := n } :: post })
          ∧ (v.present = false →
              updateTrip v s = { s with epu.trips := pre ++ { t with clearable := true } :: post })
          ∧ (v.present = true → t.clearable = true →
              updateTrip v s = raise v.cause { s with epu.trips := pre ++ { t with
                clearable := false, recurrences := if t.recurrences < 255 then t.recurrences + 1 else 255
                last := n, detail := v.detail } :: post }))
  ∧ (∀ (views : List TripView) (s : State),
      let n := s.slc.frameNo
      let full : Prop := 7 ≤ s.epu.trips.countP (·.cause != .overflow)
      updateTrips views s = views.foldl (fun u v => updateTrip v u) (takePending views s)
        ∧ (s.epu.pendingSet = [] → takePending views s = s)
        ∧ (∀ p ps, s.epu.pendingSet = p :: ps → ¬full → takePending views s = takePending views (raise p.cause { s with
            epu.pendingSet := ps
            epu.trips := s.epu.trips ++ [⟨p.cause, tripSevere p.cause, p.frame, n, 0,
              !views.any (fun v => v.cause == p.cause && v.present), p.detail⟩] }))
        ∧ (s.epu.pendingSet ≠ [] → full → s.epu.trips.any (·.cause == .overflow) = false →
            takePending views s = raise .overflow { s with epu.trips := s.epu.trips ++
              [⟨.overflow, true, n, n, 0, true, min 65535 ((s.epu.pendingSet.length : Nat) : Int)⟩] })
        ∧ (s.epu.pendingSet ≠ [] → full → s.epu.trips.any (·.cause == .overflow) = true → takePending views s = s))
  ∧ ((∀ c : TripCause, tripSevere c = false ↔
        c = .payloadGross ∨ c = .gridOvertempA ∨ c = .gridOvertempB ∨ c = .screenFault ∨ c = .overspeed)
      ∧ ∀ (c : TripCause) (s : State),
      let t := raise c s
      let n := s.slc.frameNo
      let p := s.trc.params
      let heard : Prop := p.capture = true ∧ (tripSevere c = true ∨ p.severeOnly = false)
      (s.dsc.gov = .drive → tripSevere c = true → t.dsc.gov = .safeHold)
        ∧ (s.dsc.gov ≠ .drive ∨ tripSevere c = false → t.dsc.gov = s.dsc.gov)
        ∧ standing .tripRaised t = true ∧ t.epu = s.epu ∧ t.dsc.demand = s.dsc.demand
        ∧ (c = .steerSupply → t.sgv.result.outcome = .none)
        ∧ (c ≠ .steerSupply → t.sgv = s.sgv)
        ∧ (¬heard ∨ s.trc.st = .idle → t.trc = s.trc)
        ∧ (heard → s.trc.st = .running → 0 < p.post →
            t.trc = { s.trc with st := .post, postCount := p.post, marks := [(n, c)] })
        ∧ (heard → s.trc.st = .running → p.post = 0 →
            t.trc = { s.trc with st := .frozen, postCount := 0, cursor := 0, marks := [(n, c)] })
        ∧ (heard → s.trc.st = .post → s.trc.marks.length < 4 →
            t.trc = { s.trc with marks := s.trc.marks ++ [(n, c)] })
        ∧ (heard → s.trc.st = .frozen ∨ s.trc.st = .post ∧ 4 ≤ s.trc.marks.length →
            t.trc = { s.trc with missed := if s.trc.missed < 65535 then s.trc.missed + 1 else 65535 })
        ∧ (s.hli.force.noticeMask.testBit 1 = true → s.hli.tx.countP (·.isNotice) < 6 →
            ∃ more, t.hli.tx = s.hli.tx ++ (Msg.notice (.trip c (tripSevere c) n) :: more)
              ∧ ∀ m ∈ more, m = .notice (.state .drive .safeHold .trip) ∨ m = .notice (.frozen n c)))

/-- TRIP-CLEAR: a code that is no trip cause is refused; a named cause's CLEARABLE record, or for ALL every CLEARABLE
record, is removed; ACTIVE records stay, in order; the reply carries the number removed and the number of ACTIVE
records left; the pending set, the derate list and the governing state stay. -/
def Obligations.TripClearRemovesClearableRecords : Prop :=
  ∀ (tag cause : Byte) (s : State), CanTake s → tag ≠ 0#8 →
    let clear (keep : List Trip) : Host.Outcome State Fault Refusal :=
      .next ({ s with epu.trips := keep }.answered 0x8C tag
        (vCount (s.epu.trips.length - keep.length) ++ vCount (keep.countP (fun (t : Trip) => !t.clearable))))
    (cause = 0xFF#8 → exec (.tripClear tag cause) s = clear (s.epu.trips.filter (fun t => !t.clearable)))
      ∧ (∀ c, tripCode c = cause.toNat →
          exec (.tripClear tag cause) s = clear (s.epu.trips.filter (fun t => !(t.clearable && t.cause == c))))
      ∧ (cause ≠ 0xFF#8 → (∀ c, tripCode c ≠ cause.toNat) →
          exec (.tripClear tag cause) s = .next (s.turnedAway 0x8C tag .range .field 1))

/-- The envelope: each wheel limit is the least of 100 % and the limits of the derates of its side or the vehicle of
its kind or of kind TORQUE; the speed limit the least of 64 km/h, the SPEED derates, 10 km/h while PAYLOAD_GROSS and
20 km/h while SCREEN_FAULT is held; the steer rate is at most 8 degrees per second above 30 km/h or with VSPD not
usable, and is halved for a class OVER or GROSS. Leaving rest: under 50 rest frames nothing is captured; from 50 on,
with every window entry usable, the class follows the captured haul payload (EMPTY under 15 % of RATED_PAYLOAD, LOADED
to 100 %, OVER to 110 %, GROSS above), else the class is UNKNOWN and the haul payload stays. A mean that falls between
two steps on a tie is free (log 18). At rest an evaluation adds one to the rest count, up to 65535, and puts
PAYLOAD_NOW, with a mark whether it was usable, into the rest window, which holds the last 50; nothing else of the EPU
changes there, nor away from rest with the rest count at 0. An evaluation posts the envelope built from its lists, the
haul payload and the class, the marks of held INVERTER_FAULT and GRID_OVERTEMP records, and for its frame SPEED_LIMIT
and HAUL_PAYLOAD; no other output changes; so does a publication. -/
def Obligations.EnvelopeAndHaulPayload : Prop :=
  (∀ s : State,
      let v := buildEnvelope s
      let least (m base : Int) (p : Derate → Prop) : Prop :=
        m ≤ base ∧ (∀ d ∈ s.epu.derates, p d → m ≤ d.limit) ∧ (m = base ∨ ∃ d ∈ s.epu.derates, p d ∧ m = d.limit)
      let bound : Int := if s.epu.trips.any (·.cause == .payloadGross) then 100
        else if s.epu.trips.any (·.cause == .screenFault) then 200 else 640
      least v.propelL 1000 (fun d => (d.target = .left ∨ d.target = .vehicle) ∧ (d.kind = .propel ∨ d.kind = .torque))
        ∧ least v.retardL 1000 (fun d => (d.target = .left ∨ d.target = .vehicle) ∧ (d.kind = .retard ∨ d.kind = .torque))
        ∧ least v.propelR 1000 (fun d => (d.target = .right ∨ d.target = .vehicle) ∧ (d.kind = .propel ∨ d.kind = .torque))
        ∧ least v.retardR 1000 (fun d => (d.target = .right ∨ d.target = .vehicle) ∧ (d.kind = .retard ∨ d.kind = .torque))
        ∧ least v.speedLimit bound (fun d => d.kind = .speed)
        ∧ v.steerRate =
            (let r : Int := if 300 < s.sgs.vspd.value ∨ s.sgs.vspd.quality.usable = false
                then min (10 * (s.hli.force.steerRate : Int)) 80 else 10 * (s.hli.force.steerRate : Int)
            if s.epu.cls = .over ∨ s.epu.cls = .gross then r / 2 else r))
  ∧ (∀ s : State, atRest s = false → 0 < s.epu.restCount →
      let t := weighPayload s
      let g := s.hli.force.ratedPayload
      t.epu.restCount = 0 ∧ t.epu.restWindow = []
        ∧ (s.epu.restCount < 50 → t.epu.haul = s.epu.haul ∧ t.epu.cls = s.epu.cls)
        ∧ (50 ≤ s.epu.restCount → s.epu.restWindow.all (·.2) = false →
            t.epu.haul = s.epu.haul ∧ t.epu.cls = .unknown)
        ∧ (50 ≤ s.epu.restCount → s.epu.restWindow.all (·.2) = true →
            -25 ≤ 50 * t.epu.haul - (s.epu.restWindow.map (·.1)).sum ∧ 50 * t.epu.haul - (s.epu.restWindow.map (·.1)).sum ≤ 25
            ∧ (t.epu.cls = .empty ↔ 100 * t.epu.haul < 15 * (10 * (g : Int)))
            ∧ (t.epu.cls = .loaded ↔ 15 * (10 * (g : Int)) ≤ 100 * t.epu.haul ∧ 100 * t.epu.haul ≤ 100 * (10 * (g : Int)))
            ∧ (t.epu.cls = .over ↔ 100 * (10 * (g : Int)) < 100 * t.epu.haul ∧ 100 * t.epu.haul ≤ 110 * (10 * (g : Int)))
            ∧ (t.epu.cls = .gross ↔ 110 * (10 * (g : Int)) < 100 * t.epu.haul)))
  ∧ (let posts (t : State) : Prop :=
      t.epu.posting = ⟨buildEnvelope t, t.epu.haul, t.epu.cls, t.epu.trips.any (·.cause == .inverterFaultL),
        t.epu.trips.any (·.cause == .inverterFaultR), t.epu.trips.any (·.cause == .gridOvertempA),
        t.epu.trips.any (·.cause == .gridOvertempB)⟩
    (∀ (old : List ImageEntry) (oldVspd : Quality) (imn : Option (Option Nat × Option Nat)) (s : State),
        let t := evaluateEpu old oldVspd imn s
        posts t ∧ t.out = { s.out with
          speedLimit := ⟨(buildEnvelope t).speedLimit, some s.slc.frameNo⟩, haul := ⟨t.epu.haul, some s.slc.frameNo⟩ })
      ∧ ∀ s : State, Live s → s.slc.phase = .acqEnded →
        ∃ t, exec .publication s = .next t ∧ posts t ∧ t.out = { s.out with
          speedLimit := ⟨(buildEnvelope t).speedLimit, some s.slc.frameNo⟩, haul := ⟨t.epu.haul, some s.slc.frameNo⟩ })
  ∧ (∀ s : State,
      let entry : Int × Bool := (s.sgs.payload.value, s.sgs.payload.quality.usable)
      (atRest s = true → weighPayload s = { s with
          epu.restCount := if s.epu.restCount < 65535 then s.epu.restCount + 1 else 65535
          epu.restWindow := (s.epu.restWindow ++ [entry]).drop (s.epu.restWindow.length + 1 - 50) })
        ∧ (atRest s = true → (weighPayload s).epu.restWindow.length ≤ 50)
        ∧ (atRest s = false → s.epu.restCount = 0 → weighPayload s = s))

/-! ### Traction allocation (chapter 6) -/

/-- Measured slip (R112): the reference speed is the magnitude of the mean of the usable front wheel speeds (log 54),
in km/h by the wheel radius, and exists when one is usable; the wheel speed is the magnitude of the motor speed by the
gear ratio, measured when it is usable; both to the nearest 0.1 km/h, with a rational approximation of PI (log 21).
Slip is 100 (wheel - reference) / reference in %, rounded toward zero to 0.1 %; 0 at a reference below 2.0 km/h; not
measured without either speed. A computation decides both wheels' states by it, and stages it, or 0 where there is
none. The slip table of R113, for a wheel with measured slip (0.1 %, limits in %): the state held and the tests in
their order give the new state; the torque factor is halved, at least 0.100, or raised by 0.050 up to 1.000. Half of an
odd factor is one of its two neighbours, which one is free (log 19). The count of consecutive SPIN computations and the
SLIP_PERSIST mark: set at a count of 20, kept through RECOVER and SLIDE, cleared in GRIP; with no slip measured nothing
of the wheel changes; with no reference speed the wheel is GRIP with factor 1.000, count 0 and mark clear. A wheel in
SPIN whose count stands at 19 reaches 20 while frames run: its SLIP_PERSIST mark is set, the other wheel and everything
else stay; in HALTED nothing happens. That the row needs the count at 19 is the model's choice (log 3). -/
def Obligations.SlipStatesAndPersistence : Prop :=
  ((∀ (g : Settings) (fsL fsR ws : ImageEntry),
        let front : List ImageEntry := [fsL, fsR].filter (·.quality.usable)
        let near (num den v : Int) : Prop := -den ≤ 2 * num - 2 * v * den ∧ 2 * num - 2 * v * den ≤ den
        (front = [] → referenceSpeed g fsL fsR = none)
          ∧ (front ≠ [] → ∃ v, referenceSpeed g fsL fsR = some v ∧ 0 ≤ v
            ∧ near ((((front.map (fun e : ImageEntry => e.value)).sum : Int).natAbs : Int) * g.wheelRadius * 120 * piNum)
                (front.length * 1000000 * piDen) v)
          ∧ (ws.quality.usable = false → wheelSpeed g ws = none)
          ∧ (ws.quality.usable = true → 0 < g.gearRatio → ∃ v, wheelSpeed g ws = some v ∧ 0 ≤ v
            ∧ near ((ws.value.natAbs : Int) * g.wheelRadius * 12000 * piNum) (g.gearRatio * 1000000 * piDen) v))
      ∧ (∀ (r w : Int) (x : Option Int),
        slipOf none x = none ∧ slipOf x none = none
          ∧ slipOf (some r) (some w) = some (if r < 20 then 0 else (1000 * (w - r)).tdiv r))
      ∧ ∀ (gov : Gov) (d : Demand) (p : EpuPosting) (s : State), (∀ q ∈ s.sgs.image, q.flips = []) →
        let t := computeTal gov d p s
        let g := s.hli.force
        let entry (j : Nat) : ImageEntry := ((s.sgs.image[j - 1]?).map (·.val)).getD .initial
        let posted (o : Posted) : Int := if o.frame = none then 0 else o.value
        let ref := referenceSpeed g (entry 3) (entry 4)
        let slipL := slipOf ref (wheelSpeed g (entry 1))
        let slipR := slipOf ref (wheelSpeed g (entry 2))
        t.tal.refLost = ref.isNone
          ∧ t.tal.wheelL = nextWheel g ref.isNone slipL (posted s.out.tcL) s.tal.wheelL
          ∧ t.tal.wheelR = nextWheel g ref.isNone slipR (posted s.out.tcR) s.tal.wheelR
          ∧ ∃ v, t.tal.staged = some v ∧ v.slipL = slipL.getD 0 ∧ v.slipR = slipR.getD 0)
  ∧ (∀ (g : Settings) (slip tc : Int) (f : Nat), 100 ≤ f → f ≤ 1000 →
      let spin := 10 * (g.slipLimit : Int) < slip ∧ 0 < tc
      let slide := slip < -(10 * (g.slideLimit : Int)) ∧ tc < 0
      let cut (x : Slip × Nat) (st : Slip) : Prop :=
        x.1 = st ∧ 100 ≤ x.2 ∧ (200 ≤ f → x.2 = f / 2 ∨ x.2 = (f + 1) / 2) ∧ (f < 199 → x.2 = 100)
      let back (x : Slip × Nat) : Prop := x.2 = min 1000 (f + 50)
      (spin → cut (slipState g slip tc .grip f) .spin ∧ cut (slipState g slip tc .recover f) .spin)
        ∧ (¬spin → slide → cut (slipState g slip tc .grip f) .slide ∧ cut (slipState g slip tc .recover f) .slide)
        ∧ (¬spin → ¬slide → slipState g slip tc .grip f = (.grip, 1000)
            ∧ back (slipState g slip tc .recover f)
            ∧ (slipState g slip tc .recover f).1 = (if 950 ≤ f then .grip else .recover))
        ∧ (slip < 5 * (g.slipLimit : Int) →
            (slipState g slip tc .spin f).1 = .recover ∧ back (slipState g slip tc .spin f))
        ∧ (5 * (g.slipLimit : Int) ≤ slip → cut (slipState g slip tc .spin f) .spin)
        ∧ (-(5 * (g.slideLimit : Int)) < slip →
            (slipState g slip tc .slide f).1 = .recover ∧ back (slipState g slip tc .slide f))
        ∧ (slip ≤ -(5 * (g.slideLimit : Int)) → cut (slipState g slip tc .slide f) .slide))
  ∧ (∀ (g : Settings) (slip : Option Int) (tc : Int) (w : Wheel),
      nextWheel g true slip tc w = ⟨.grip, 1000, 0, false⟩
        ∧ nextWheel g false none tc w = w
        ∧ ∀ x, slip = some x →
          let n := nextWheel g false slip tc w
          n.spinCount = (if n.slip = .spin then w.spinCount + 1 else 0)
            ∧ (n.slip = .grip → n.persist = false)
            ∧ (n.slip ≠ .grip → w.persist = true → n.persist = true)
            ∧ (n.slip ≠ .grip → w.persist = false → (n.persist = true ↔ n.slip = .spin ∧ 20 ≤ n.spinCount)))
  ∧ (∀ s : State, Live s →
      (∀ w, s.dsc.gov = .halted → exec (.slipPersistSet w) s = .next s)
        ∧ (s.dsc.gov ≠ .halted → s.tal.wheelL.slip = .spin → s.tal.wheelL.spinCount = 19 → s.tal.wheelL.persist = false →
            exec (.slipPersistSet .left) s = .next { s with tal.wheelL.spinCount := 20, tal.wheelL.persist := true })
        ∧ (s.dsc.gov ≠ .halted → s.tal.wheelR.slip = .spin → s.tal.wheelR.spinCount = 19 → s.tal.wheelR.persist = false →
            exec (.slipPersistSet .right) s = .next { s with tal.wheelR.spinCount := 20, tal.wheelR.persist := true }))

/-- The command of a wheel (R110): from the last command it moves toward the target by at most the step, in either
direction, a step that would cross 0 stops at 0, the result is bounded by the ceiling, and it is 0 at once in STANDBY,
in SAFE-HOLD when positive, and at COAST; so a rise is never more than the step, and a fall only where the ceiling or
one of these cases asks. From the demand to a wheel's target: the travel direction and its pending mark (R105), the
propel request (R106), the base of both wheels (R107), its yaw split by turn side and effort (R108), and the target
and ceiling (R109); that the limit of the target's sign is the ceiling of a command of either sign is the model's
reading (log 56). In a computation each wheel's command moves from its posted command toward that target, with the
limits of the EPU posting, the other wheel's INVERTER_FAULT mark halving the retard limit, and its own holding it at
COAST (R116). The PROPEL_RETARD condition of a computation is present in DRIVE with a demand propel above 0 and RREQ
of the frame before above 0, absent otherwise, and latches its flag while present (R106). With the commands it stages
its conditions: the SLIP_PERSIST mark of each wheel and SLIP_REF_LOST, which its posting takes over. -/
def Obligations.WheelCommandIsBounded : Prop :=
  (∀ (gov : Gov) (coast : Bool) (last target ceiling step : Int), 0 ≤ ceiling → 0 < step →
      let c := commandOf gov coast last target ceiling step
      let moved := if last < target then min target (last + step) else max target (last - step)
      let x := if (0 < last ∧ moved < 0) ∨ (last < 0 ∧ 0 < moved) then 0 else moved
      c = (if gov = .standby ∨ (gov = .safeHold ∧ 0 < x) ∨ coast = true then 0 else max (-ceiling) (min ceiling x))
        ∧ c ≤ ceiling ∧ -ceiling ≤ c
        ∧ (gov = .standby ∨ coast = true → c = 0)
        ∧ (gov = .safeHold → c ≤ 0)
        ∧ (0 ≤ last → last ≤ ceiling → c ≤ last + step) ∧ (last ≤ 0 → -ceiling ≤ last → last - step ≤ c)
        ∧ (0 < last → 0 ≤ c) ∧ (last < 0 → c ≤ 0)
        ∧ (gov = .drive → coast = false → 0 < last → last ≤ ceiling → last - step ≤ c)
        ∧ (gov = .drive ∨ gov = .safeHold → coast = false → last < 0 → -ceiling ≤ last → c ≤ last + step)
        ∧ (gov = .drive → coast = false → -ceiling ≤ last → target ≤ ceiling → last < target → last < c ∧ c ≤ target)
        ∧ (gov = .drive → coast = false → last ≤ ceiling → -ceiling ≤ target → target < last → target ≤ c ∧ c < last)
        ∧ (gov = .drive → coast = false → -ceiling ≤ target → target ≤ ceiling → last = target → c = target))
  ∧ ((∀ (rest : Bool) (d tr : Dir),
        nextTravel rest d tr = (if d = tr ∨ rest = true then d else tr, decide (d ≠ tr ∧ rest = false)))
      ∧ (∀ (gov : Gov) (d : Demand) (tr : Dir) (pend : Bool) (rreq limit : Int) (v : Derived),
        propelRequest gov d tr pend rreq limit v =
          (if gov = .drive ∧ pend = false ∧ tr ≠ .neutral ∧ d.brakeApplied = false ∧ rreq ≤ 0 ∧ v.quality.usable = true
            ∧ v.value < limit then (d.propel : Int) else 0))
      ∧ (∀ (gov : Gov) (rreq p : Int), baseTorque gov rreq p =
          (if gov = .halted ∨ gov = .standby then 0 else if 0 < rreq then -rreq else p))
      ∧ (∀ (base y : Int) (out : Bool), yawSplit base y out =
          (base * (if (out = true ∧ 0 < base) ∨ (out = false ∧ base ≤ 0) then 1000 + (y.natAbs : Int)
            else 1000 - (y.natAbs : Int))).tdiv 1000)
      ∧ (∀ base propel retard factor : Int, 0 ≤ propel → 0 ≤ retard → targetOf base propel retard factor =
          ((if 0 < base then min base propel else max base (-retard)) * factor).tdiv 1000)
      ∧ (∀ target propel retard factor : Int, ceilingOf target propel retard factor =
          (if 0 < target then propel else if target < 0 then retard else min propel retard) * factor / 1000)
      ∧ (∀ (gov : Gov) (g : Settings) (p : EpuPosting) (base y last : Int) (w : Wheel),
        (let retard := if p.inverterFaultR then p.env.retardL / 2 else p.env.retardL
         let target := targetOf (yawSplit base y (decide (0 < y))) p.env.propelL retard w.factor
         wheelCommand gov g p true base y last w = commandOf gov p.inverterFaultL last target
           (ceilingOf target p.env.propelL retard w.factor) (10 * g.torqueSlew))
        ∧ (let retard := if p.inverterFaultL then p.env.retardR / 2 else p.env.retardR
           let target := targetOf (yawSplit base y (decide (y ≤ 0))) p.env.propelR retard w.factor
           wheelCommand gov g p false base y last w = commandOf gov p.inverterFaultR last target
             (ceilingOf target p.env.propelR retard w.factor) (10 * g.torqueSlew)))
      ∧ ∀ (gov : Gov) (d : Demand) (p : EpuPosting) (s : State), (∀ q ∈ s.sgs.image, q.flips = []) →
        let t := computeTal gov d p s
        let posted (o : Posted) : Int := if o.frame = none then 0 else o.value
        let tr := nextTravel (atRest s) d.dir s.tal.travel
        let rreq := posted s.out.rreq
        let base := baseTorque gov rreq (propelRequest gov d tr.1 tr.2 rreq p.env.speedLimit s.sgs.vspd)
        t.tal.travel = tr.1 ∧ t.tal.dirPending = tr.2 ∧ t.out = s.out
          ∧ ∃ g, t.tal.staged = some g ∧ g.frame = s.slc.frameNo
            ∧ g.tcL = wheelCommand gov s.hli.force p true base (posted s.out.yaw) (posted s.out.tcL) t.tal.wheelL
            ∧ g.tcR = wheelCommand gov s.hli.force p false base (posted s.out.yaw) (posted s.out.tcR) t.tal.wheelR
            ∧ g.mdL = 16 * dirCode tr.1 + (if 0 < g.tcL then 1 else if g.tcL < 0 then 2 else 0)
            ∧ g.mdR = 16 * dirCode tr.1 + (if 0 < g.tcR then 1 else if g.tcR < 0 then 2 else 0))
  ∧ (∀ (gov : Gov) (d : Demand) (p : EpuPosting) (s : State), (∀ q ∈ s.sgs.image, q.flips = []) →
        let t := computeTal gov d p s
        let rreq := if s.out.rreq.frame = none then 0 else s.out.rreq.value
        let present := decide (gov = .drive ∧ 0 < d.propel ∧ 0 < rreq)
        t.tal.propelRetard = present
          ∧ t = { s with tal := t.tal, hli.flags :=
            if present then s.hli.flags ||| Flag.propelRetard.mask else s.hli.flags }
          ∧ t.tal.cond = s.tal.cond
          ∧ t.tal.staged.map (·.cond) = some ⟨t.tal.wheelL.persist, t.tal.wheelR.persist, t.tal.refLost⟩)

/-- A posting replaces the posted values of its producer's outputs, attaches the frame they were computed for, and
posts the producer's conditions; every other output stays. That outputs are staged at publication and posted by a row
of their own is the model's choice (log 7); with nothing computed and not yet posted it changes nothing (log 2). -/
def Obligations.PostingReplacesTheProducersOutputs : Prop :=
  ∀ s : State, Live s →
    (∀ g, s.tal.staged = some g → exec (.outputPosting .tal) s = .next { s with
        out.tcL := ⟨g.tcL, some g.frame⟩, out.tcR := ⟨g.tcR, some g.frame⟩, out.mdL := ⟨g.mdL, some g.frame⟩
        out.mdR := ⟨g.mdR, some g.frame⟩, out.slipL := ⟨g.slipL, some g.frame⟩, out.slipR := ⟨g.slipR, some g.frame⟩
        tal.cond := some g.cond, tal.staged := none })
      ∧ (∀ g, s.rgv.staged = some g → ∃ t, exec (.outputPosting .rgv) s = .next t
          ∧ t.out = { s.out with
            rreq := ⟨g.rreq, some g.frame⟩, rcap := ⟨g.rcap, some g.frame⟩, cdA := ⟨g.cdA, some g.frame⟩
            cdB := ⟨g.cdB, some g.frame⟩, bfA := ⟨g.bfA, some g.frame⟩, bfB := ⟨g.bfB, some g.frame⟩
            geA := ⟨g.geA, some g.frame⟩, geB := ⟨g.geB, some g.frame⟩ }
          ∧ t.rgv.gridA.usable = g.cond.usableA ∧ t.rgv.gridB.usable = g.cond.usableB ∧ t.rgv.cond = some g.cond
          ∧ t.rgv.staged = none ∧ { t with out := s.out, rgv := s.rgv } = s)
      ∧ (∀ g, s.sgv.staged = some g → exec (.outputPosting .sgv) s = .next { s with
        out.svCmd := ⟨g.svCmd, some g.frame⟩, out.yaw := ⟨g.yaw, some g.frame⟩, sgv.cond := some g.cond
        sgv.staged := none })
      ∧ (s.tal.staged = none → exec (.outputPosting .tal) s = .next s)
      ∧ (s.rgv.staged = none → exec (.outputPosting .rgv) s = .next s)
      ∧ (s.sgv.staged = none → exec (.outputPosting .sgv) s = .next s)

/-! ### Retarding and the grid budget (chapter 7) -/

/-- Descent hold at a computation: ENGAGED or SHORT goes OFF, with integrator, counts and output 0, at hold speed 0,
propel above 0 or a state that is neither DRIVE nor SAFE-HOLD; OFF engages in DRIVE at 3.0 km/h or more of a usable
VSPD with a hold speed, a direction and propel 0, else it stays OFF with output 0; with VSPD not usable a hold keeps
its output, integrator and counts. The hold output with VSPD usable (in 0.1 %, rounded down): the feed-forward term, 10
% per km/h of the excess over the set speed, and the integrator, which in ENGAGED first changes by 2 % per km/h per
second of the excess and stays within 20 %, and in SHORT is frozen; the sum is clamped to 0 to 100 %. Speeds are in 0.1
km/h, the integrator in 0.001 %; that the integrator changes already in the computation that engages the hold is the
model's reading (log 45). -/
def Obligations.DescentHoldEngagesAndGoesOff : Prop :=
  (∀ (gov : Gov) (g : Settings) (ff cap : Int) (d : Demand) (v : Derived) (r : Rgv),
      let n := nextHold gov g ff cap d v r
      let off := d.hold = 0 ∨ 0 < d.propel ∨ (gov ≠ .drive ∧ gov ≠ .safeHold)
      let engage := d.hold ≠ 0 ∧ gov = .drive ∧ d.dir ≠ .neutral ∧ d.propel = 0 ∧ v.quality.usable = true ∧ 30 ≤ v.value
      (r.hold ≠ .off → off →
          n.hold = .off ∧ n.integ = 0 ∧ n.shortCount = 0 ∧ n.engageCount = 0 ∧ n.holdOut = 0)
        ∧ (r.hold = .off → ¬engage → n.hold = .off ∧ n.holdOut = 0)
        ∧ (r.hold = .off → engage → n.hold = .engaged)
        ∧ (r.hold ≠ .off → ¬off → v.quality.usable = false → n = r)
        ∧ (r.hold = .short → ¬off → n.integ = r.integ)
        ∧ (n.hold ≠ .off → v.quality.usable = true → 0 ≤ n.holdOut ∧ n.holdOut ≤ 1000)
        ∧ (r.hold = .engaged → ¬off → v.quality.usable = true → -20000 ≤ n.integ ∧ n.integ ≤ 20000))
  ∧ (∀ (gov : Gov) (g : Settings) (ff cap : Int) (d : Demand) (v : Derived) (r : Rgv), v.quality.usable = true →
      let n := nextHold gov g ff cap d v r
      let e := v.value - (d.hold : Int)
      let sum (i : Int) : Int := max 0 (min 100000 (100 * ff + 1000 * e + i)) / 100
      (r.hold = .engaged → n.hold ≠ .off →
          n.integ = max (-20000) (min 20000 (r.integ + e * g.framePeriod / 5)) ∧ n.holdOut = sum n.integ)
        ∧ (r.hold = .short → n.hold ≠ .off → n.integ = r.integ ∧ n.holdOut = sum r.integ)
        ∧ (r.hold = .off → n.hold ≠ .off →
          n.integ = max (-20000) (min 20000 (e * g.framePeriod / 5)) ∧ n.holdOut = sum n.integ))

/-- Ten computations in a row take ENGAGED to SHORT (output above the capacity torque, VSPD more than 3.0 km/h above
the set speed) and SHORT back to ENGAGED (output at or below the capacity torque); a computation that fails the test
sets the count to 0. The entry to SHORT latches RETARD_SHORT, the return to ENGAGED keeps the integrator; neither
happens in HALTED. That the rows need their count at 9 is the model's choice (log 3). A computation with VSPD usable
counts so for a hold that stays or becomes ENGAGED or SHORT, with its hold output, by the state in which that output
is computed; that the one that engages the hold is counted too is the model's reading (log 65), and so is its
integrator (log 45). A computation that enters SHORT latches RETARD_SHORT, and no other computation latches it. -/
def Obligations.HoldShortComesAndGoesAtTen : Prop :=
  (∀ (cap : Int) (d : Demand) (v : Derived) (r : Rgv),
      let n := holdCounts cap d v r
      let above := cap < r.holdOut ∧ (d.hold : Int) + 30 < v.value
      (r.hold = .engaged → above → r.shortCount < 9 → n = { r with shortCount := r.shortCount + 1 })
        ∧ (r.hold = .engaged → above → r.shortCount = 9 → n = { r with hold := .short, shortCount := 0 })
        ∧ (r.hold = .engaged → ¬above → n = { r with shortCount := 0 })
        ∧ (r.hold = .short → r.holdOut ≤ cap → r.engageCount < 9 → n = { r with engageCount := r.engageCount + 1 })
        ∧ (r.hold = .short → r.holdOut ≤ cap → r.engageCount = 9 → n = { r with hold := .engaged, engageCount := 0 })
        ∧ (r.hold = .short → cap < r.holdOut → n = { r with engageCount := 0 }))
  ∧ (∀ s : State, Live s →
      (s.dsc.gov = .halted → exec .holdShortEntry s = .next s ∧ exec .holdShortExit s = .next s)
        ∧ (s.dsc.gov ≠ .halted → s.rgv.hold = .engaged → s.rgv.shortCount = 9 →
            exec .holdShortEntry s = .next { s with
              rgv.hold := .short, rgv.shortCount := 0, hli.flags := s.hli.flags ||| Flag.retardShort.mask })
        ∧ (s.dsc.gov ≠ .halted → s.rgv.hold = .short → s.rgv.engageCount = 9 →
            exec .holdShortExit s = .next { s with rgv.hold := .engaged, rgv.engageCount := 0 }))
  ∧ ((∀ (gov : Gov) (g : Settings) (ff cap : Int) (d : Demand) (v : Derived) (r : Rgv), v.quality.usable = true →
        let off := d.hold = 0 ∨ 0 < d.propel ∨ (gov ≠ .drive ∧ gov ≠ .safeHold)
        let engage := d.hold ≠ 0 ∧ gov = .drive ∧ d.dir ≠ .neutral ∧ d.propel = 0 ∧ 30 ≤ v.value
        let e := v.value - (d.hold : Int)
        let moved (i : Int) : Int := max (-20000) (min 20000 (i + e * g.framePeriod / 5))
        let sum (i : Int) : Int := max 0 (min 100000 (100 * ff + 1000 * e + i)) / 100
        (r.hold = .engaged → ¬off → nextHold gov g ff cap d v r =
            holdCounts cap d v { r with integ := moved r.integ, holdOut := sum (moved r.integ) })
          ∧ (r.hold = .short → ¬off → nextHold gov g ff cap d v r = holdCounts cap d v { r with holdOut := sum r.integ })
          ∧ (r.hold = .off → engage → nextHold gov g ff cap d v r = holdCounts cap d v { r with
            hold := .engaged, integ := moved 0, shortCount := 0, engageCount := 0, holdOut := sum (moved 0) }))
      ∧ ∀ (gov : Gov) (d : Demand) (p : EpuPosting) (s : State),
        let t := computeRgv gov d p s
        standing .retardShort t = (standing .retardShort s || (t.rgv.hold == .short && s.rgv.hold != .short)))

/-- The retard request is the largest of its four sources, at most the capacity torque, and 0 outside DRIVE and
SAFE-HOLD. The grid budget: a grid's energy stays from 0 to its capacity; a withdrawn grid has retard capacity 0 and
duty ceiling 0; the ceilings of two grids are from 0 to 100 and sum to at most 100. The values behind them: energy
changes by (P - C) times the frame period (of a change between two steps of 0.001 MJ either may stand, log 19) and is
clamped to 0 and the capacity; RCAP is C and the power that fills what is left in 60 s, rounded down, 0 for a withdrawn
grid; the duty ceiling is its share of RCAP, rounded down, 0 for a withdrawn grid or with RCAP 0, and a quotient
outside 0 to 100 is clamped (log 58). With no bit of the image flipped a computation, at rest or not, stages these and
the blowers of each grid from its own inputs, and the request; a grid check not at rest is aborted MOVED. At rest the
grade direction changes ahead of the feed-forward term (log 69). The blower command of a grid: 100 % with its energy
above 20 % of its capacity or power dissipated in it, else 30 %, in every governing state and for a withdrawn grid as
for a usable one. What the sources are made of: the torque for a power and the power for a torque by the speed factor
(R121); the feed-forward term from the gross mass, the speed and the downhill grade in the grade direction, 0 without one;
the grade direction, taken at rest from a demand that is not NEUTRAL (R124); the speed-limit hold (R126); and
retard-to-rest, whose target is set at the first usable speed in SAFE-HOLD, falls by 1.0 km/h each second and is cleared
outside it, and whose output is 0 at rest and kept while the speed is not usable (R127). The density ratio is 0.60 with a
signal not usable, else the quotient of R129 rounded to the nearest 0.01 (of two as near either may stand, log 18) and
clamped to 0.40 to 1.20, at -273 degrees too, where it is free (log 20). -/
def Obligations.RetardRequestAndGridBudget : Prop :=
  (∀ (gov : Gov) (d : Demand) (ff limit cap : Int) (v : Derived) (r : Rgv),
      let q := retardRequest gov d ff limit cap v r
      let l := limitHold gov ff limit v
      (gov = .halted ∨ gov = .standby → q = 0)
        ∧ (gov = .drive ∨ gov = .safeHold →
            q ≤ cap
            ∧ (q = cap ∨ q = d.retard ∨ q = r.holdOut ∨ q = l ∨ q = r.rtrOut)
            ∧ ((d.retard : Int) ≤ q ∨ q = cap) ∧ (r.holdOut ≤ q ∨ q = cap) ∧ (l ≤ q ∨ q = cap) ∧ (r.rtrOut ≤ q ∨ q = cap)))
  ∧ ((∀ (g : Settings) (p c e emax : Int), 0 ≤ emax → 0 ≤ nextEnergy g p c e emax ∧ nextEnergy g p c e emax ≤ emax)
      ∧ ∀ (useA useB : Bool) (cA cB eA eB mA mB : Int), 0 ≤ cA → 0 ≤ cB → eA ≤ mA → eB ≤ mB →
        let kA := rcapOf useA cA eA mA
        let kB := rcapOf useB cB eB mB
        let dA := ceilingDuty useA kA (kA + kB)
        let dB := ceilingDuty useB kB (kA + kB)
        (useA = false → kA = 0 ∧ dA = 0) ∧ (useB = false → kB = 0 ∧ dB = 0)
          ∧ 0 ≤ dA ∧ dA ≤ 100 ∧ 0 ≤ dB ∧ dB ≤ 100 ∧ dA + dB ≤ 100)
  ∧ ((∀ (g : Settings) (p c e emax : Int), 0 ≤ emax →
        let x := (p - c) * g.framePeriod
        ∃ d : Int, x - 1000 < 1000 * d ∧ 1000 * d < x + 1000 ∧ nextEnergy g p c e emax = max 0 (min emax (e + d)))
      ∧ (∀ (use : Bool) (c e emax : Int), rcapOf use c e emax = if use then c + (emax - e) / 60 else 0)
      ∧ (∀ (use : Bool) (k rcap : Int), ceilingDuty use k rcap =
          if use = false ∨ rcap = 0 then 0 else max 0 (min 100 (Int.fdiv (100 * k) rcap)))
      ∧ ∀ (gov : Gov) (d : Demand) (p : EpuPosting) (s : State), (∀ q ∈ s.sgs.image, q.flips = []) →
        let t := computeRgv gov d p s
        let g := s.hli.force
        let v := s.sgs.vspd
        let entry (j : Nat) : ImageEntry := ((s.sgs.image[j - 1]?).map (·.val)).getD .initial
        let posted (o : Posted) : Int := if o.frame = none then 0 else o.value
        let excluded (sig : Nat) : Bool :=
          match boundAddr sig s, s.slc.posting with
          | some a, some c => c.stations.any (fun x => x.1 == a && x.2.2 == .excluded)
          | _, _ => false
        let density := densityRatio (entry 33) (entry 34)
        let cooling (bs : ImageEntry) : Int := if bs.quality.usable then g.gridCool * bs.value * density / 10000 else 0
        let power (gi : ImageEntry) (cd : Posted) : Int :=
          if (entry 15).quality.usable && gi.quality.usable then (entry 15).value * gi.value / 1000
          else powerFor g v (posted s.out.rreq) * posted cd / 100
        let useA := !excluded 44 && decide (6 ≤ s.rgv.gridA.good) && !p.gridOvertempA
        let useB := !excluded 45 && decide (6 ≤ s.rgv.gridB.good) && !p.gridOvertempB
        let mA : Int := 1000 * g.gridEmax * s.rgv.gridA.good / 8
        let mB : Int := 1000 * g.gridEmax * s.rgv.gridB.good / 8
        let pA := power (entry 16) s.out.cdA
        let pB := power (entry 17) s.out.cdB
        let eA := nextEnergy g pA (cooling (entry 22)) s.rgv.gridA.energy mA
        let eB := nextEnergy g pB (cooling (entry 23)) s.rgv.gridB.energy mB
        let kA := rcapOf useA (cooling (entry 22)) eA mA
        let kB := rcapOf useB (cooling (entry 23)) eB mB
        let cap := torqueFor g v (kA + kB) 1
        let grade := nextGrade (atRest s) d.dir s.rgv.grade
        let ff := feedForward g p v (downhill (entry 32) grade)
        let h := nextRtr gov g ff (atRest s) v (nextHold gov g ff cap d v { s.rgv with grade := grade })
        t.rgv.gridA = { s.rgv.gridA with energy := eA, emax := mA } ∧ t.rgv.gridB = { s.rgv.gridB with energy := eB, emax := mB }
          ∧ t.rgv.grade = grade ∧ t.rgv.hold = h.hold ∧ t.rgv.integ = h.integ ∧ t.rgv.holdOut = h.holdOut
          ∧ t.rgv.rtr = h.rtr ∧ t.rgv.rtrOut = h.rtrOut
          ∧ t.rgv.staged = some {
            frame := s.slc.frameNo, rreq := retardRequest gov d ff p.env.speedLimit cap v h, rcap := kA + kB
            cdA := ceilingDuty useA kA (kA + kB), cdB := ceilingDuty useB kB (kA + kB)
            bfA := if 20 * mA < 100 * eA ∨ 0 < pA then 100 else 30
            bfB := if 20 * mB < 100 * eB ∨ 0 < pB then 100 else 30
            geA := eA / 100, geB := eB / 100, cond := ⟨eA, eB, mA, mB, useA, useB⟩ }
          ∧ (atRest s = true → t.rgv.check = s.rgv.check)
          ∧ (∀ r, atRest s = false → s.rgv.check.run = some r → t.rgv.check.run = none ∧ t.rgv.check.last =
              ⟨.aborted, .moved, r.grids, r.start, s.slc.frameNo, r.results.length, none⟩))
  ∧ ((∀ p e emax : Int, blowerOf p e emax = (if 20 * emax < 100 * e ∨ 0 < p then 100 else 30))
      ∧ ∀ (gov : Gov) (d : Demand) (p : EpuPosting) (s : State), atRest s = true →
        ∃ g, (computeRgv gov d p s).rgv.staged = some g
          ∧ (20 * (computeRgv gov d p s).rgv.gridA.emax < 100 * (computeRgv gov d p s).rgv.gridA.energy → g.bfA = 100)
          ∧ (20 * (computeRgv gov d p s).rgv.gridB.emax < 100 * (computeRgv gov d p s).rgv.gridB.energy → g.bfB = 100)
          ∧ (g.bfA = 100 ∨ g.bfA = 30) ∧ (g.bfB = 100 ∨ g.bfB = 30))
  ∧ ((∀ (gov : Gov) (g : Settings) (p : EpuPosting) (v : Derived) (inc : ImageEntry) (ff t num den : Int) (r : Rgv),
      let base : Int := 10 * g.baseSpeed
      let speed : Int := if v.quality.usable = false ∨ base < max 10 v.value then base else max 10 v.value
      let torque (num den : Int) : Int := min 1000 (1000 * num * base / (den * g.ratedRetardPower * speed))
      let gross : Int := 10 * g.emptyMass + (if p.cls = .unknown then 10 * (g.ratedPayload : Int) else p.haul)
      let forward (i : Int) : Int := torque (max 0 (gross * 981 * v.value * (i - 20))) 36000000
      let pull (x : Int) : Int := max 0 (min 100000 (100 * ff + x)) / 100
      torqueFor g v num den = torque num den
        ∧ powerFor g v t = t * g.ratedRetardPower * speed / (1000 * base)
        ∧ feedForward g p v (downhill inc .unset) = 0
        ∧ (inc.quality.usable = false → ∀ d, feedForward g p v (downhill inc d) = 0)
        ∧ (inc.quality.usable = true → feedForward g p v (downhill inc .forward) = forward inc.value
            ∧ feedForward g p v (downhill inc .reverse) = forward (-inc.value))
        ∧ (∀ (rest : Bool) (o : Grade), nextGrade false .forward o = o ∧ nextGrade false .reverse o = o
            ∧ nextGrade rest .neutral o = o ∧ nextGrade true .forward o = .forward ∧ nextGrade true .reverse o = .reverse)
        ∧ (∀ limit : Int, limitHold gov ff limit v =
            if (gov = .drive ∨ gov = .safeHold) ∧ v.quality.usable = true ∧ limit < v.value then
              pull (1000 * (v.value - limit)) else 0)
        ∧ ∀ rest : Bool,
          let n := nextRtr gov g ff rest v r
          { n with rtr := r.rtr, rtrOut := r.rtrOut } = r
            ∧ (gov ≠ .safeHold → n.rtr = none ∧ n.rtrOut = 0)
            ∧ (gov = .safeHold → n.rtr = match r.rtr with
                | some target => some (max 0 (target - g.framePeriod))
                | none => if v.quality.usable then some (100 * v.value) else none)
            ∧ (gov = .safeHold → n.rtr = none ∨ rest = true → n.rtrOut = 0)
            ∧ (∀ target, gov = .safeHold → n.rtr = some target → rest = false →
                n.rtrOut = if v.quality.usable then pull (10 * (100 * v.value - target)) else r.rtrOut))
      ∧ ∀ p t : ImageEntry,
        let k := t.value + 2730
        (p.quality.usable = false ∨ t.quality.usable = false → densityRatio p t = 60)
          ∧ (p.quality.usable = true → t.quality.usable = true → k ≠ 0 →
            ∃ n : Int, 2 * (n * (1013 * k) - p.value * 293000).natAbs ≤ (1013 * k).natAbs
              ∧ densityRatio p t = max 40 (min 120 n))
          ∧ 40 ≤ densityRatio p t ∧ densityRatio p t ≤ 120)

/-! ### The grid element check and the steering supply check (chapters 8 and 9) -/

/-- A string's READ delivers a resistance, with a next string to measure: the tests in their order (R141), against the
nominal in force, give the class; class, resistance and frame number join the run's own results; a string that is not
GOOD joins the run's anomaly entries while fewer than 4 are held and sets MORE otherwise; the run goes on with the next
string's ACT (R140), which joins the queue or is held; the table and the list that the host reads do not change. -/
def Obligations.DeliveredStringIsClassed : Prop :=
  ∀ (r : GridRun) (res : Nat) (g : Grid) (n : Nat) (s : State), s.rgv.check.run = some r → r.step = .read →
    nextString r.grids r.grid r.string = some (g, n) →
    let m := s.hli.force.stringNominal
    let cls : StringClass :=
      if res = 65535 ∨ 2 * m ≤ res then .open
      else if 2 * res ≤ m then .short
      else if m < 10 * (if m ≤ res then res - m else m - res) then .drift
      else .good
    let t := gridOutcome .takenReady res s
    t.rgv.check.run = some { r with
        grid := g, string := n, step := .act
        results := r.results ++ [(r.grid, ⟨res, cls, s.slc.frameNo⟩)]
        anomalies := if cls ≠ .good ∧ r.anomalies.length < 4 then r.anomalies ++ [⟨r.grid, r.string, cls, res⟩]
          else r.anomalies
        more := r.more || decide (cls ≠ .good ∧ 4 ≤ r.anomalies.length) }
      ∧ t.rgv = { s.rgv with check := { s.rgv.check with run := t.rgv.check.run } }
      ∧ { t with rgv := s.rgv, slc := s.slc } = s
      ∧ (s.slc.queue.length < 8 → t.slc = { s.slc with queue := s.slc.queue ++ [gridItem (r.addr g) n .act] })
      ∧ (8 ≤ s.slc.queue.length → t.slc = { s.slc with held := s.slc.held ++ [gridItem (r.addr g) n .act] })

/-- The last string's READ delivers: the run ends DEGRADED with an OPEN or SHORT string among its results, PASSED with
none; the last-run record tells of it, and the PROC notice is made; the eight entries and the good count of each grid
named are replaced, and the anomaly list and its MORE mark whole, by the run's own; a grid that is not named keeps its
entries and its good count. What any outcome handed to the check does before that (R140): an ACT that is taken, ready or
not, goes on to the READ of the same string, a PERSIST item with retry limit 7 at the tail; UNTAKEN, NO_REPLY and CHECK at
either step, and a READ that stays not ready, end the run FAILED_EXCHANGE, naming the string, the step and the outcome,
with the PROC notice; EXCLUDED and LOOP_DOWN end it ABORTED; each of these endings keeps the result table, the anomaly list
and the good counts. The same in a run: the check's item is at the head with its exchange in the slot, and a reply or the
slot's end completes it. A READ not ready goes on while repeats are left; a READ that delivers does as said above; a
failure that takes the station to EXCLUDED ends the run STATION_EXCLUDED instead (R143), and none of the check's items
stays in the queue. -/
def Obligations.LastStringCompletesTheGridCheck : Prop :=
  (∀ (r : GridRun) (res : Nat) (s : State), s.rgv.check.run = some r → r.step = .read →
    nextString r.grids r.grid r.string = none →
    let cls := classString s.hli.force.stringNominal res
    let rs := r.results ++ [(r.grid, (⟨res, cls, s.slc.frameNo⟩ : StringResult))]
    let worst (x : Grid × StringResult) : Bool := x.2.cls == .open || x.2.cls == .short
    let named (g : Grid) : List StringResult := (rs.filter (fun x => x.1 == g)).map (·.2)
    let t := gridOutcome .takenReady res s
    t.rgv.check.run = none
      ∧ t.rgv.check.last =
          ⟨if rs.any worst then .degraded else .passed, .none, r.grids, r.start, s.slc.frameNo, rs.length, none⟩
      ∧ t.rgv.check.named = r.grids
      ∧ t.rgv.check.anomalies = (if cls ≠ .good ∧ r.anomalies.length < 4 then
          r.anomalies ++ [⟨r.grid, r.string, cls, res⟩] else r.anomalies)
      ∧ t.rgv.check.more = (r.more || decide (cls ≠ .good ∧ 4 ≤ r.anomalies.length))
      ∧ t.hli = (notify (.proc 1 (if rs.any worst then 2 else 1) .none s.slc.frameNo) s).hli
      ∧ (r.grids = .a → t.rgv.check.results = named .a ++ s.rgv.check.results.drop 8
          ∧ t.rgv.gridA.good = (named .a).countP (fun x => !(x.cls == .open || x.cls == .short))
          ∧ t.rgv.gridB = s.rgv.gridB)
      ∧ (r.grids = .b → t.rgv.check.results = s.rgv.check.results.take 8 ++ named .b
          ∧ t.rgv.gridB.good = (named .b).countP (fun x => !(x.cls == .open || x.cls == .short))
          ∧ t.rgv.gridA = s.rgv.gridA)
      ∧ (r.grids = .both → t.rgv.check.results = named .a ++ named .b
          ∧ t.rgv.gridA.good = (named .a).countP (fun x => !(x.cls == .open || x.cls == .short))
          ∧ t.rgv.gridB.good = (named .b).countP (fun x => !(x.cls == .open || x.cls == .short)))
      ∧ t.slc = s.slc ∧ t.dsc = s.dsc ∧ t.sgv = s.sgv ∧ t.epu = s.epu)
  ∧ ((∀ (r : GridRun) (data : Nat) (s : State), s.rgv.check.run = some r →
        let read : Item := ⟨.gridCheck, r.addr r.grid, 6, .read, false, 0, some 7, false, 0, false⟩
        let ended (o : GridOutcome) (c : ProcCause) (w : Option (Grid × Nat × GridStep × FailedWith)) : Rgv :=
          { s.rgv with check := { s.rgv.check with
            run := none, last := ⟨o, c, r.grids, r.start, s.slc.frameNo, r.results.length, w⟩ } }
        let fails (x : ExOutcome) (w : FailedWith) : Prop := gridOutcome x data s = notify (.proc 1 4 .none s.slc.frameNo)
          { s with rgv := ended .failedExchange .none (some (r.grid, r.string, r.step, w)) }
        (∀ x, r.step = .act → x = .takenReady ∨ x = .takenNotReady →
            gridOutcome x data s = joinItem read { s with rgv.check.run := some { r with step := .read } })
          ∧ (r.step = .read → fails .takenNotReady .notReady)
          ∧ fails .untaken .untaken ∧ fails .noReply .noReply ∧ fails .check .check
          ∧ (gridOutcome .excluded data s).rgv = ended .aborted .stationExcluded none
          ∧ (gridOutcome .loopDown data s).rgv = ended .aborted .loopDown none)
      ∧ ∀ (c : Instr) (h : Heard) (it : Item) (its : List Item) (x : SlotEx) (r : GridRun) (s : State), Live s →
        s.slc.slot = some x → x.claim = .service → x.afterReset = false → x.tolerate = false → s.slc.queue = it :: its →
        it.claimant = .gridCheck → it.discard = false → it.retry = (if r.step = .read then some 7 else none) →
        s.slc.held = [] → s.rgv.check.run = some r →
        (c = .slotTimeout ∧ h = ⟨.noReply, false, 0⟩ ∨ ∃ ws, c = .exchangeComplete ws ∧ heardReply x ws = some h) →
        let read : Item := ⟨.gridCheck, r.addr r.grid, 6, .read, false, 0, some 7, false, 0, false⟩
        let ended (o : GridOutcome) (c : ProcCause) (w : Option (Grid × Nat × GridStep × FailedWith)) : Rgv :=
          { s.rgv with check := { s.rgv.check with
            run := none, last := ⟨o, c, r.grids, r.start, s.slc.frameNo, r.results.length, w⟩ } }
        let failed (w : FailedWith) : Rgv := ended .failedExchange .none (some (r.grid, r.string, r.step, w))
        let stays : Prop := ∀ st, stationAt x.addr s = some st →
          st.state = .excluded ∨ st.streak + 1 < s.hli.force.streakExclude
        ∃ t, exec c s = .next t ∧ t.slc.slot = none
          ∧ (r.step = .act → h.outcome = .takenReady ∨ h.outcome = .takenNotReady → its.length < 8 →
              t.slc.queue = its ++ [read] ∧ t.rgv = { s.rgv with check.run := some { r with step := .read } })
          ∧ (r.step = .read → h.outcome = .takenReady → t.rgv = (gridOutcome .takenReady h.data s).rgv)
          ∧ (r.step = .read → h.outcome = .takenNotReady → it.used < 7 → t.slc.queue = it :: its ∧ t.rgv = s.rgv)
          ∧ (r.step = .read → h.outcome = .takenNotReady → 7 ≤ it.used → t.slc.queue = its ∧ t.rgv = failed .notReady)
          ∧ (stays → (h.outcome = .untaken → t.slc.queue = its ∧ t.rgv = failed .untaken)
              ∧ (h.outcome = .noReply → t.slc.queue = its ∧ t.rgv = failed .noReply)
              ∧ (h.outcome = .check → t.slc.queue = its ∧ t.rgv = failed .check))
          ∧ (∀ st, h.outcome = .untaken ∨ h.outcome = .noReply ∨ h.outcome = .check → stationAt x.addr s = some st →
              st.state ≠ .excluded → s.hli.force.streakExclude ≤ st.streak + 1 → st.streak < 255 →
              x.addr = r.addr r.grid → r.grids = .both ∨ (r.grids = .a ∧ r.grid = .a) ∨ (r.grids = .b ∧ r.grid = .b) →
              t.rgv = ended .aborted .stationExcluded none ∧ ∀ j ∈ t.slc.queue, j.claimant ≠ .gridCheck))

/-- GRID-CHECK-START makes its eight checks in order, then the run starts at the first string of the grids named, its
ACT item joins the service queue, or is held for room, and the reply is DONE. That of two EXCLUDED chopper stations
grid A's is the one named is the model's choice (log 52). GRID-CHECK-STOP ends a running check ABORTED with cause
REQUESTED, in every governing state: its waiting item leaves the queue, its results are discarded, the DONE reply is
queued last; a service pass between two slots whose queue it leaves empty ends. With no check running it is refused and
nothing changes. -/
def Obligations.GridCheckStartsAndStops : Prop :=
  (∀ (tag grid : Byte) (s : State), CanTake s → tag ≠ 0#8 →
      let no (c : RClass) (d : Detail) (q : Nat) : Host.Outcome State Fault Refusal := .next (s.turnedAway 0x90 tag c d q)
      let begun (gs : Grids) (first : Grid) (addr : Nat) : Host.Outcome State Fault Refusal :=
        .next ((joinItem ⟨.gridCheck, addr, 5, .act, false, 0, none, false, 0, false⟩
          { s with rgv.check.run := some ⟨gs, if gs = .b then 0 else chopperOf .a s, if gs = .a then 0 else chopperOf .b s,
              first, 0, .act, s.slc.frameNo, [], [], false⟩ }).answered 0x90 tag [])
      exec (.gridCheckStart tag grid) s =
        if grid ≠ 1#8 ∧ grid ≠ 2#8 ∧ grid ≠ 3#8 then no .range .field 1
        else if s.dsc.gov ≠ .standby then no .state .notStandby (govCode s.dsc.gov)
        else if atRest s = false then no .state .notAtRest 0
        else if s.dsc.stopLine then no .state .stopAsserted 0
        else if s.rgv.check.run.isSome then no .state .procRunning 1
        else if s.hli.force.serviceBudget = 0 then no .state .noServiceBudget 5
        else if s.slc.loopState ≠ .up then no .state .loopNotUp (loopCode s.slc.loopState)
        else if grid ≠ 2#8 ∧ isExcluded (chopperOf .a s) s = true then no .state .stationExcluded (chopperOf .a s)
        else if grid ≠ 1#8 ∧ isExcluded (chopperOf .b s) s = true then no .state .stationExcluded (chopperOf .b s)
        else if grid = 1#8 then begun .a .a (chopperOf .a s)
        else if grid = 2#8 then begun .b .b (chopperOf .b s)
        else begun .both .a (chopperOf .a s))
  ∧ (∀ (tag : Byte) (s : State), CanTake s → tag ≠ 0#8 →
      (s.rgv.check.run = none →
          exec (.gridCheckStop tag) s = .next (s.turnedAway 0x91 tag .state .notRunning 0))
        ∧ ∀ r, s.rgv.check.run = some r →
          ∃ t, exec (.gridCheckStop tag) s = .next t
            ∧ t.rgv = { s.rgv with check := { s.rgv.check with
                run := none
                last := ⟨.aborted, .requested, r.grids, r.start, s.slc.frameNo, r.results.length, none⟩ } }
            ∧ t.hli.tx.getLast? = some (.reply false 0x91 tag (.done []))
            ∧ (∀ it ∈ t.slc.held, it.claimant ≠ .gridCheck)
            ∧ (s.slc.slot = none → ∀ it ∈ t.slc.queue, it.claimant ≠ .gridCheck)
            ∧ (s.slc.phase = .service → s.slc.slot = none → s.slc.slots < s.hli.force.serviceBudget →
                t.slc.phase = if t.slc.queue = [] then .done else .service)
            ∧ (s.slc.phase ≠ .service ∨ s.slc.slot ≠ none → t.slc.phase = s.slc.phase)
            ∧ { t with rgv := s.rgv, hli := s.hli, slc.queue := s.slc.queue, slc.held := s.slc.held
                       slc.phase := s.slc.phase } = s)

/-- STEER-CHECK-START makes its seven checks in order, then the run starts in phase ISOLATE with the station bound to
the valve command, the isolate ACT joins the service queue, or is held for room, and the reply is DONE. ISOLATE ends
at its ACT's outcome: taken, SETTLE; UNTAKEN, NO_REPLY or CHECK, ABORTED with cause EXCHANGE, and told EXCLUDED or
LOOP_DOWN, with that cause. At a computation at rest, SETTLE takes a FRESH pressure as the initial one and goes to
WATCH, and WATCH counts a FRESH image, the twentieth fixing the outcome; one not FRESH in either phase aborts with
ACC_NOT_FRESH, and is not counted (log 64). Not at rest, a run in any phase is aborted with MOVED, also where the
pressure is not FRESH (log 60). An abort ahead of RELEASE takes the isolate ACT out and the release ACT joins last; in
RELEASE it replaces a watched outcome and none joins. The result record and the isolation mark stay. The twentieth
watched image, with a sound and FRESH accumulator pressure, fixes the outcome: PASS when the initial pressure is at or
above ACC_MIN (in MPa, here in 0.01 MPa) and the drop is at most ACC_DROP_MAX (in 0.1 MPa), else FAIL; the release ACT
joins, phase RELEASE; the result record and the isolation mark stay. That the row needs 19 images watched is the
model's choice (log 3). The release ACT's outcome ends the run: taken, the isolation mark clears and the pending
outcome is written; any other outcome keeps the mark, sets RELEASE_UNCONFIRMED and writes a pending PASS as FAIL;
EXCLUDED is an abort besides, so that a pending PASS or FAIL is written ABORTED with cause STATION_EXCLUDED. The
record is written whole, and the PROC notice made. The same in a run, the ACT at the head completed by a reply or its
slot's end: it leaves the queue; a failed isolate ACT leaves the release ACT at the tail, in place of any other
steering item; and a failure that takes the station to EXCLUDED, no grid check running, aborts with STATION_EXCLUDED
first. -/
def Obligations.SteeringCheckStartsWatchesAndReleases : Prop :=
  (∀ (tag : Byte) (s : State), CanTake s → tag ≠ 0#8 →
      let no (d : Detail) (q : Nat) : Host.Outcome State Fault Refusal := .next (s.turnedAway 0x92 tag .state d q)
      let a := steerStation s
      exec (.steerCheckStart tag) s =
        if s.dsc.gov ≠ .standby then no .notStandby (govCode s.dsc.gov)
        else if atRest s = false then no .notAtRest 0
        else if s.dsc.stopLine then no .stopAsserted 0
        else if s.sgv.run.isSome then no .procRunning 2
        else if s.hli.force.serviceBudget = 0 then no .noServiceBudget 5
        else if s.slc.loopState ≠ .up then no .loopNotUp (loopCode s.slc.loopState)
        else if isExcluded a s = true then no .stationExcluded a
        else .next ((joinItem ⟨.steerCheck, a, 6, .act, false, 1, none, false, 0, false⟩
          { s with sgv.run := some ⟨.isolate, a, s.slc.frameNo, none, none, 0, none⟩ }).answered 0x92 tag []))
  ∧ (let aborted (c : ProcCause) (p : Option (SteerOutcome × ProcCause)) : Option (SteerOutcome × ProcCause) :=
      match p with
      | some (.aborted, c) => some (.aborted, c)
      | some (.none, c) => some (.none, c)
      | _ => some (.aborted, c)
    let joinsLast (r : SteerRun) (s t : State) : Prop :=
      let release : Item := ⟨.steerCheck, r.addr, 6, .act, false, 0, none, false, 0, false⟩
      (t.slc.queue ++ t.slc.held).getLast? = some release
        ∧ (s.slc.slot = none → (t.slc.queue ++ t.slc.held).filter (·.claimant == .steerCheck) = [release])
        ∧ (t.slc.queue ++ t.slc.held).filter (·.claimant != .steerCheck) =
            (s.slc.queue ++ s.slc.held).filter (·.claimant != .steerCheck)
    let releases (r : SteerRun) (c : ProcCause) (s t : State) : Prop :=
      t.sgv.run = some { r with phase := .release, pending := aborted c r.pending }
        ∧ (r.phase = .release → t.slc.queue = s.slc.queue ∧ t.slc.held = s.slc.held)
        ∧ (r.phase ≠ .release → joinsLast r s t)
    (∀ (r : SteerRun) (x : ExOutcome) (s : State), s.sgv.run = some r → r.phase = .isolate →
        let t := steerOutcome x s
        (x = .takenReady ∨ x = .takenNotReady → t = { s with sgv.run := some { r with phase := .settle } })
          ∧ (x = .untaken ∨ x = .noReply ∨ x = .check → releases r .exchange s t)
          ∧ (x = .excluded → releases r .stationExcluded s t) ∧ (x = .loopDown → releases r .loopDown s t)
          ∧ t.sgv.result = s.sgv.result ∧ t.sgv.isolation = s.sgv.isolation)
      ∧ ∀ (gov : Gov) (target rate : Int) (r : SteerRun) (s : State), s.sgv.run = some r →
        (∀ q ∈ s.sgs.image, q.flips = []) →
        let t := computeSgv gov target rate s
        let e : ImageEntry := ((s.sgs.image[29]?).map (·.val)).getD .initial
        let keeps (r' : SteerRun) : Prop := t.sgv.run = some r' ∧ t.slc = s.slc
        (atRest s = true → r.phase = .settle → e.quality = .fresh →
            keeps { r with phase := .watch, init := some e.value, watched := 0 })
          ∧ (atRest s = true → r.phase = .watch → e.quality = .fresh → r.watched < 19 →
            keeps { r with watched := r.watched + 1 })
          ∧ (∀ init, atRest s = true → r.phase = .watch → e.quality = .fresh → r.watched = 19 → r.init = some init →
            t.sgv.run = some { r with
              phase := .release, watched := 20, final := some e.value
              pending := some (if (s.hli.force.accMin : Int) * 100 ≤ init ∧ init - e.value ≤ s.hli.force.accDropMax * 10
                then .pass else .fail, .none) }
            ∧ joinsLast r s t)
          ∧ (atRest s = true → r.phase = .settle ∨ r.phase = .watch → e.quality ≠ .fresh → releases r .accNotFresh s t)
          ∧ (atRest s = true → r.phase = .isolate ∨ r.phase = .release → keeps r)
          ∧ (atRest s = false → releases r .moved s t)
          ∧ t.sgv.result = s.sgv.result ∧ t.sgv.isolation = s.sgv.isolation)
  ∧ (∀ (r : SteerRun) (init : Int) (e : ImageEntry) (s : State), Live s → s.sgv.run = some r → r.phase = .watch →
      r.watched = 19 → r.init = some init → s.sgs.image[29]? = some ⟨e, []⟩ → e.quality = .fresh →
      (∀ it ∈ s.slc.queue, it.claimant ≠ .steerCheck) → (∀ it ∈ s.slc.held, it.claimant ≠ .steerCheck) →
      s.slc.queue.length < 8 → s.slc.held = [] →
      exec .steerCheckWatchEnd s = .next { s with
        sgv.run := some { r with
          phase := .release, watched := 20, final := some e.value
          pending := some (if (s.hli.force.accMin : Int) * 100 ≤ init ∧ init - e.value ≤ s.hli.force.accDropMax * 10
            then .pass else .fail, .none) }
        slc.queue := s.slc.queue ++ [⟨.steerCheck, r.addr, 6, .act, false, 0, none, false, 0, false⟩] })
  ∧ (∀ (r : SteerRun) (o : SteerOutcome) (c : ProcCause) (x : ExOutcome) (s : State), s.sgv.run = some r →
      r.phase = .release → r.pending = some (o, c) →
      (x = .takenReady ∨ x = .takenNotReady → steerOutcome x s =
          notify (.proc 2 (steerOutcomeCode o) c s.slc.frameNo) { s with
            sgv.run := none, sgv.isolation := false, sgv.result := ⟨o, c, r.init, r.final, s.slc.frameNo, false⟩ })
        ∧ (x = .untaken ∨ x = .noReply ∨ x = .check ∨ x = .loopDown →
          let w : SteerOutcome := if o = .pass then .fail else o
          steerOutcome x s = notify (.proc 2 (steerOutcomeCode w) c s.slc.frameNo) { s with
            sgv.run := none, sgv.result := ⟨w, c, r.init, r.final, s.slc.frameNo, true⟩ })
        ∧ (x = .excluded → o = .pass ∨ o = .fail → steerOutcome x s =
          notify (.proc 2 (steerOutcomeCode .aborted) .stationExcluded s.slc.frameNo) { s with
            sgv.run := none, sgv.result := ⟨.aborted, .stationExcluded, r.init, r.final, s.slc.frameNo, true⟩ })
        ∧ (x = .excluded → o = .aborted ∨ o = .none → steerOutcome x s =
          notify (.proc 2 (steerOutcomeCode o) c s.slc.frameNo) { s with
            sgv.run := none, sgv.result := ⟨o, c, r.init, r.final, s.slc.frameNo, true⟩ }))
  ∧ (∀ (c : Instr) (h : Heard) (it : Item) (its : List Item) (x : SlotEx) (r : SteerRun) (s : State), Live s →
      s.slc.slot = some x → x.claim = .service → x.afterReset = false → x.tolerate = false → s.slc.queue = it :: its →
      it.claimant = .steerCheck → it.discard = false → it.retry = none → its.length < 8 → s.slc.held = [] →
      s.sgv.run = some r → r.phase = .isolate ∨ r.phase = .release →
      (c = .slotTimeout ∧ h = ⟨.noReply, false, 0⟩ ∨ ∃ ws, c = .exchangeComplete ws ∧ heardReply x ws = some h) →
      let release : Item := ⟨.steerCheck, r.addr, 6, .act, false, 0, none, false, 0, false⟩
      let taken := h.outcome = .takenReady ∨ h.outcome = .takenNotReady
      let failed := h.outcome = .untaken ∨ h.outcome = .noReply ∨ h.outcome = .check
      let others := its.filter (·.claimant != .steerCheck)
      ∃ t, exec c s = .next t ∧ t.slc.slot = none
        ∧ (taken → t.slc.queue = its ∧ t.sgv = (steerOutcome h.outcome s).sgv)
        ∧ (failed → (∀ st, stationAt x.addr s = some st →
            st.state = .excluded ∨ st.streak + 1 < s.hli.force.streakExclude) →
          t.sgv = (steerOutcome h.outcome s).sgv
            ∧ t.slc.queue = (if r.phase = .isolate then others ++ [release] else its))
        ∧ ∀ st, failed → stationAt x.addr s = some st → st.state ≠ .excluded →
          s.hli.force.streakExclude ≤ st.streak + 1 → st.streak < 255 → x.addr = r.addr → s.rgv.check.run = none →
          let pending : Option (SteerOutcome × ProcCause) := match r.pending with
            | some (.aborted, c) => some (.aborted, c)
            | some (.none, c) => some (.none, c)
            | _ => some (.aborted, .stationExcluded)
          (r.phase = .isolate → t.slc.queue = others ++ [release]
              ∧ t.sgv = { s.sgv with run := some { r with phase := .release, pending := pending } })
            ∧ (r.phase = .release → t.slc.queue = its
              ∧ t.sgv = (steerOutcome h.outcome { s with sgv.run := some { r with pending := pending } }).sgv))

/-- The steering governor's counts reaching their numbers while governing: STEER_TRACK arises at a wide count of 10 and
goes at a narrow count of 10, STEER_SUPPLY becomes present at a supply count of 3 and ACC_LOW at an accumulator count
of 3; in HALTED nothing happens. That the rows need a count one short is the model's choice (log 3). The first
commanded angle is ST_ANG as it stands, outside -40 to 40 degrees too, which is the model's choice (log 51); from there
it moves toward the demand by at most the rate's step and stays between old angle and target; with a run in progress it
is held; the valve command is half the gap in 0.01 degrees, from -1000 to 1000, and 0 with a run in progress, with an
angle that is not usable or not commanded. The yaw bias is YAW_GAIN times the commanded angle over 40 degrees, toward its
sign and rounded toward zero, in DRIVE and SAFE-HOLD with the angle above 3.00 degrees and a usable speed from 5.0 to 40.0
km/h, else 0 (R152). With no bit of the image flipped, a computation sets the commanded angle, takes the tracking counts
and STEER_TRACK from the gap (R151), the supply count and STEER_SUPPLY from ST_PRS (R153), the accumulator count and
ACC_LOW from ST_ACC (R154), and stages the valve command, the yaw bias and the three conditions for its frame (R148);
nothing else changes but the steering supply check's run and its items. -/
def Obligations.SteeringCountsAnglesAndValve : Prop :=
  (∀ s : State, Live s →
      (s.dsc.gov = .halted → exec .steerTrackArise s = .next s ∧ exec .steerTrackGo s = .next s
          ∧ exec .steerSupplyArise s = .next s ∧ exec .accLowArise s = .next s)
        ∧ (s.dsc.gov ≠ .halted → s.sgv.wide = 9 → s.sgv.track = false →
            exec .steerTrackArise s = .next { s with sgv.wide := 10, sgv.narrow := 0, sgv.track := true })
        ∧ (s.dsc.gov ≠ .halted → s.sgv.narrow = 9 → s.sgv.track = true →
            exec .steerTrackGo s = .next { s with sgv.narrow := 10, sgv.wide := 0, sgv.track := false })
        ∧ (s.dsc.gov ≠ .halted → s.sgv.supplyCount = 2 → s.sgv.supply = false →
            exec .steerSupplyArise s = .next { s with sgv.supplyCount := 3, sgv.supply := true })
        ∧ (s.dsc.gov ≠ .halted → s.sgv.accCount = 2 → s.sgv.accLow = false →
            exec .accLowArise s = .next { s with sgv.accCount := 3, sgv.accLow := true }))
  ∧ ((∀ (g : Settings) (rate target a : Int) (ang : ImageEntry), 0 ≤ rate →
        let step := rate * g.framePeriod / 100
        nextAngle true g rate target ang (some a) = some a
          ∧ nextAngle true g rate target ang none = none
          ∧ nextAngle false g rate target ang none = (if ang.quality.usable then some ang.value else none)
          ∧ ∃ b, nextAngle false g rate target ang (some a) = some b
            ∧ (a ≤ target → a ≤ b ∧ b ≤ target ∧ b ≤ a + step ∧ (b < target → b = a + step))
            ∧ (target ≤ a → target ≤ b ∧ b ≤ a ∧ a - step ≤ b ∧ (target < b → b = a - step)))
      ∧ ∀ (ang : ImageEntry) (ac : Option Int) (running : Bool),
        -1000 ≤ valveCommand running ang ac ∧ valveCommand running ang ac ≤ 1000
          ∧ (running = true ∨ ang.quality.usable = false ∨ ac = none → valveCommand running ang ac = 0)
          ∧ ∀ a, ac = some a → running = false → ang.quality.usable = true →
            (2000 ≤ a - ang.value → valveCommand running ang ac = 1000)
            ∧ (a - ang.value ≤ -2000 → valveCommand running ang ac = -1000)
            ∧ (-2000 < a - ang.value → a - ang.value < 2000 → valveCommand running ang ac = (a - ang.value).tdiv 2))
  ∧ ((∀ (gov : Gov) (g : Settings) (v : Derived),
        yawBias gov g v none = 0 ∧ ∀ a : Int, yawBias gov g v (some a) =
          if (gov = .drive ∨ gov = .safeHold) ∧ 300 < a.natAbs ∧ v.quality.usable = true ∧ 50 ≤ v.value ∧ v.value ≤ 400 then
            if 0 < a then g.yawGain * a / 400 else -(g.yawGain * (-a) / 400)
          else 0)
      ∧ ∀ (gov : Gov) (target rate : Int) (s : State), (∀ q ∈ s.sgs.image, q.flips = []) →
        let t := computeSgv gov target rate s
        let g := s.hli.force
        let entry (j : Nat) : ImageEntry := ((s.sgs.image[j - 1]?).map (·.val)).getD .initial
        let ang := entry 28
        let prs := entry 29
        let acc := entry 30
        let running := s.sgv.run.isSome
        let ac := nextAngle running g rate target ang s.sgv.ac
        let counts (v : Sgv) : Nat × Nat × Bool := (v.wide, v.narrow, v.track)
        t.sgv.ac = ac
          ∧ (ac = none ∨ ang.quality.usable = false ∨ running = true → counts t.sgv = counts s.sgv)
          ∧ (∀ a, ac = some a → ang.quality.usable = true → running = false →
            let gap := (a - ang.value).natAbs
            counts t.sgv =
              if 500 < gap then (s.sgv.wide + 1, 0, s.sgv.track || decide (10 ≤ s.sgv.wide + 1))
              else if 200 < gap then (0, 0, s.sgv.track)
              else (0, s.sgv.narrow + 1, s.sgv.track && decide (s.sgv.narrow + 1 < 10)))
          ∧ (t.sgv.supplyCount, t.sgv.supply) =
              (if prs.quality = .bad then (s.sgv.supplyCount, true)
              else if prs.quality.usable = false then (s.sgv.supplyCount, s.sgv.supply)
              else if prs.value < 1200 then (s.sgv.supplyCount + 1, s.sgv.supply || decide (3 ≤ s.sgv.supplyCount + 1))
              else (0, false))
          ∧ (t.sgv.accCount, t.sgv.accLow) =
              (if acc.quality.usable = false then (s.sgv.accCount, s.sgv.accLow)
              else if acc.value < 100 * g.accMin then (s.sgv.accCount + 1, s.sgv.accLow || decide (3 ≤ s.sgv.accCount + 1))
              else (0, s.sgv.accLow && decide (acc.value < 100 * g.accMin + 50)))
          ∧ t.sgv.staged = some ⟨s.slc.frameNo, valveCommand running ang ac, yawBias gov g s.sgs.vspd ac,
              ⟨t.sgv.track, t.sgv.accLow, t.sgv.supply⟩⟩
          ∧ t.sgv.cond = s.sgv.cond ∧ { t with sgv := s.sgv, slc.queue := s.slc.queue, slc.held := s.slc.held } = s)

/-! ### The trip recorder (chapter 10) -/

/-- RECORD-START makes its three checks in order; taken, it empties the ring with its counts, cursor and trip marks,
takes the run parameters from the settings stored, and the recorder is RUNNING. RECORD-STOP in RUNNING or POST enters
IDLE and keeps the ring and the trip marks; in CAPTURE mode the cursor goes to 0; a read that waits is answered with
every record still unread and the END mark, ahead of the DONE reply (that order is the model's, log 43); in IDLE and
FROZEN it is refused. RECORD-STATUS reports in every state the values of R173, in the model's order (log 22), and
changes nothing: that it gives the oldest and the newest frame number as stored, with no integrity check made and no
flipped bit met, is the model's reading (log 14). -/
def Obligations.RecorderStartsStopsAndReports : Prop :=
  (∀ (tag : Byte) (s : State), CanTake s → tag ≠ 0#8 →
      let g := s.hli.stored
      exec (.recordStart tag) s =
        if s.trc.st = .running ∨ s.trc.st = .post then .next (s.turnedAway 0x94 tag .state .recorderRunning 0)
        else if s.trc.find.isSome then .next (s.turnedAway 0x94 tag .state .findRunning 0)
        else if (∀ e ∈ s.trc.recset, e = none) then .next (s.turnedAway 0x94 tag .state .noRecordSet 0)
        else .next ({ s with
          trc.ring := [], trc.nextSlot := 0, trc.unread := 0, trc.cursor := 0, trc.marks := [], trc.missed := 0
          trc.announced := false, trc.st := .running
          trc.params := ⟨g.recordMode == 1, g.recordBlock, g.recordPost, g.recordTrigger == 1⟩ }.answered 0x94 tag []))
  ∧ (∀ (tag : Byte) (s : State), CanTake s → tag ≠ 0#8 →
      let stopped : State := { s with
        trc.st := .idle, trc.cursor := if s.trc.params.capture then 0 else s.trc.cursor }
      (s.trc.st = .idle ∨ s.trc.st = .frozen →
          exec (.recordStop tag) s = .next (s.turnedAway 0x95 tag .state .notRunning 0))
        ∧ (s.trc.st = .running ∨ s.trc.st = .post → (∀ d, s.hli.deferred = some d → d.kind ≠ .recordRead) →
            exec (.recordStop tag) s = .next (stopped.answered 0x95 tag []))
        ∧ (∀ w, s.trc.st = .running ∨ s.trc.st = .post → s.hli.deferred = some ⟨.recordRead, w⟩ →
            let q := takeUnread s.trc.unread stopped
            let rs := q.1
            let t := q.2
            exec (.recordStop tag) s = .next ({ t with
              hli.deferred := none
              hli.tx := s.hli.tx ++ [Msg.reply true 0x97 w (.done (streamBytes rs t true))] }.answered 0x95 tag [])
              ∧ t.trc.unread = 0)
        ∧ (let p := s.trc.params
          let stamp (r : RingRecord) : Option Nat := r.words.head?.map (·.val.toNat)
          exec (.recordStatus tag) s = .next (s.answered 0x96 tag
            (vEnum (recStateCode s.trc.st) ++ vMark p.capture ++ vCount p.block ++ vCount p.post ++ vMark p.severeOnly
              ++ vCount (recK s) ++ vCount (16384 / (recK s + 3)) ++ vCount s.trc.ring.length ++ vCount s.trc.unread
              ++ vCount s.trc.cursor ++ vOpt vFrame 0 (s.trc.ring.head?.bind stamp)
              ++ vOpt vFrame 0 (s.trc.ring.getLast?.bind stamp)
              ++ vOpt vCount 0 (if s.trc.st = .post then some s.trc.postCount else none)
              ++ vList (fun m => vFrame m.1 ++ vEnum (tripCode m.2)) s.trc.marks ++ vCount s.trc.missed
              ++ vMark s.trc.find.isSome))))

/-- RECORD-READ. STREAM: in RUNNING with a whole block unread the oldest block is carried and leaves the unread count;
with less it is refused without the wait flag, and takes the free deferred slot with it (it waits behind the unsent
reply of an earlier deferred request, log 57); in the other states what is unread is carried, up to a block. CAPTURE:
refused in RUNNING and POST; else the records from the cursor on, up to a block, and the cursor advances by the number
carried. The records are carried as read through the integrity monitor, in the model's order (log 22); they keep their
words, and a ring with no bit flipped is carried as it stands and does not change. RECORD-FIND makes its checks in
order, then holds the deferred slot while its scan runs. In a ring with no bit flipped the scan finds the first record
from its start on whose value at the position meets the test (AT_LEAST and AT_MOST need a mark of FRESH, KEPT or HELD;
NOT_FRESH any mark but FRESH), or none, and skips none. The end of the scan replies on the deferred slot: FOUND places
the cursor at the record found, NOT_FOUND leaves it. That the scan's result is fixed at the request is the model's
reading (log 17); the reply's bytes are in its order (log 22); a FIND that would be deferred waits while the reply to
an earlier deferred request is unsent (log 57). -/
def Obligations.RecordsAreReadAndFound : Prop :=
  (∀ (tag flags : Byte) (s : State), CanTake s → tag ≠ 0#8 →
      let b := s.trc.params.block
      let wait := flags.getLsbD 0
      let words (t : State) : List (Nat × List RingWord) := t.trc.ring.map (fun r => (r.base, r.words.map (·.val)))
      let sound : Prop := ∀ r ∈ s.trc.ring, r.words.length = recK s + 3 ∧ ∀ w ∈ r.words, w.flips = []
      let carried (c n : Nat) : List (List Byte) :=
        ((s.trc.ring.drop c).take n).map (fun r => recordBytes (r.words.map (·.val)) false)
      (s.trc.params.capture = false → s.trc.st = .running → s.trc.unread < b → wait = false →
          exec (.recordRead tag flags) s = .next (s.turnedAway 0x97 tag .resource .notReady 0))
        ∧ (s.trc.params.capture = false → s.trc.st = .running → s.trc.unread < b → wait = true →
            (deferredUnsent s = false ∨ asksSlot (.recordRead tag flags) s = false) → exec (.recordRead tag flags) s = .next
              (if s.hli.deferred.isSome then s.turnedAway 0x97 tag .resource .deferBusy 0
              else { s with hli.deferred := some ⟨.recordRead, tag⟩ }))
        ∧ (s.trc.params.capture = false → (s.trc.st = .running → b ≤ s.trc.unread) →
            let n := min b s.trc.unread
            let q := takeUnread n s
            let rs := q.1
            let t := q.2
            let ended := decide (s.trc.unread < b)
            exec (.recordRead tag flags) s = .next (t.answered 0x97 tag (streamBytes rs t ended))
              ∧ t.trc.unread = s.trc.unread - n ∧ words t = words s ∧ t.trc.cursor = s.trc.cursor
              ∧ t.trc.st = s.trc.st ∧ t.slc = s.slc ∧ t.sgs = s.sgs ∧ t.dsc = s.dsc
              ∧ (sound → s.trc.unread ≤ s.trc.ring.length →
                rs = carried (s.trc.ring.length - s.trc.unread) n ∧ t.trc.ring = s.trc.ring ∧ t.imn = s.imn
                  ∧ streamBytes rs t ended = vList id rs ++ vCount (s.trc.unread - n) ++ vMark ended))
        ∧ (s.trc.params.capture = true → s.trc.st = .running ∨ s.trc.st = .post →
            exec (.recordRead tag flags) s = .next (s.turnedAway 0x97 tag .state .recorderRunning 0))
        ∧ (s.trc.params.capture = true → s.trc.st = .idle ∨ s.trc.st = .frozen →
            let c := if flags.getLsbD 1 then 0 else s.trc.cursor
            let n := min b (s.trc.ring.length - c)
            let q := readRecords ((List.range n).map (c + ·)) s
            let rs := q.1
            let t := q.2
            exec (.recordRead tag flags) s = .next ({ t with trc.cursor := c + n }.answered 0x97 tag
                (vList id rs ++ vCount c ++ vMark (decide (s.trc.ring.length - c < b))))
              ∧ words t = words s ∧ t.trc.unread = s.trc.unread ∧ t.trc.st = s.trc.st ∧ t.slc = s.slc
              ∧ t.sgs = s.sgs ∧ t.dsc = s.dsc
              ∧ (sound → rs = carried c n ∧ t = s)))
  ∧ ((∀ (tag pos cmp start res : Byte) (value : BitVec 32) (s : State), CanTake s →
      (deferredUnsent s = false ∨ asksSlot (.recordFind tag pos cmp start res value) s = false) → tag ≠ 0#8 →
        let no (c : RClass) (d : Detail) (q : Nat) : Host.Outcome State Fault Refusal := .next (s.turnedAway 0x98 tag c d q)
        let captured : Prop := s.trc.st = .frozen ∨ s.trc.st = .idle ∧ s.trc.params.capture = true
        (recK s ≤ pos.toNat → exec (.recordFind tag pos cmp start res value) s = no .range .field 1)
          ∧ (pos.toNat < recK s → 2 < cmp.toNat → exec (.recordFind tag pos cmp start res value) s = no .range .field 2)
          ∧ (pos.toNat < recK s → cmp.toNat ≤ 2 → 1 < start.toNat →
              exec (.recordFind tag pos cmp start res value) s = no .range .field 3)
          ∧ (pos.toNat < recK s → cmp.toNat ≤ 2 → start.toNat ≤ 1 → ¬captured →
              exec (.recordFind tag pos cmp start res value) s = no .state .notCaptured (recStateCode s.trc.st))
          ∧ (pos.toNat < recK s → cmp.toNat ≤ 2 → start.toNat ≤ 1 → captured → s.hli.deferred.isSome = true →
              exec (.recordFind tag pos cmp start res value) s = no .resource .deferBusy 0)
          ∧ (pos.toNat < recK s → cmp.toNat ≤ 2 → start.toNat ≤ 1 → captured → s.hli.deferred = none →
              let c := if start = 0#8 then 0 else s.trc.cursor
              let word (p w : Nat) : RingWord := (((s.trc.ring[p]?).bind (·.words[w]?)).map (·.val)).getD 0
              let v (p : Nat) : Int := (word p (3 + pos.toNat)).toInt
              let mark (p : Nat) : Nat := (word p 2).toNat / 4 ^ pos.toNat % 4
              let hit (p : Nat) : Prop := if cmp = 0#8 then mark p ≠ 0 ∧ value.toInt ≤ v p
                else if cmp = 1#8 then mark p ≠ 0 ∧ v p ≤ value.toInt else mark p ≠ 3
              let q := findScan pos.toNat cmp.toNat value.toInt ((List.range s.trc.ring.length).drop c) 0 s
              let r := q.1
              let u := q.2
              exec (.recordFind tag pos cmp start res value) s =
                  .next { u with trc.find := some r, hli.deferred := some ⟨.recordFind, tag⟩ }
                ∧ u.trc.cursor = s.trc.cursor ∧ u.hli.tx = s.hli.tx
                ∧ u.trc.ring.map (fun r => (r.base, r.words.map (·.val))) =
                    s.trc.ring.map (fun r => (r.base, r.words.map (·.val)))
                ∧ (∀ p f, r.found = some (p, f) → c ≤ p ∧ p < s.trc.ring.length)
                ∧ ((∀ r ∈ s.trc.ring, r.words.length = recK s + 3 ∧ ∀ w ∈ r.words, w.flips = []) →
                  u = s
                  ∧ (∀ p, c ≤ p → p < s.trc.ring.length → hit p → (∀ q, c ≤ q → q < p → ¬hit q) →
                      r = ⟨some (p, (word p 0).toNat), 0⟩)
                  ∧ ((∀ p, c ≤ p → p < s.trc.ring.length → ¬hit p) → r = ⟨none, 0⟩))))
      ∧ ∀ (tag : Byte) (r : FindResult) (s : State), Live s → s.trc.find = some r →
        s.hli.deferred = some ⟨.recordFind, tag⟩ →
        (∀ p f, r.found = some (p, f) → exec .recordFindComplete s = .next { s with
            trc.find := none, trc.cursor := p, hli.deferred := none
            hli.tx := s.hli.tx ++ [.reply true 0x98 tag (.done (vEnum 0 ++ vFrame f ++ vCount p ++ vCount r.skipped))] })
          ∧ (r.found = none → exec .recordFindComplete s = .next { s with
            trc.find := none, hli.deferred := none
            hli.tx := s.hli.tx ++ [.reply true 0x98 tag (.done (vEnum 1 ++ vCount r.skipped))] }))

/-- The recorder's own events: an unread count at the block size that has not been announced makes its BLOCK_READY
notice, and then answers a waiting read with the block, read through the integrity monitor, in the model's order (log
22); a post count of 1 or 0 in POST freezes the recorder, with the cursor at 0 and the FROZEN notice of the first trip
mark. Outside these states the rows change nothing (log 2, log 3). The words of the record of frame n (R163), with no
bit of the image flipped: the frame number; the status word of the governing state, the number of trip records,
whether a SEVERE one is held, and the flags; the mark word with two bits per position; and the K values, each of the
signal at its position: an input as the image has it, VSPD and PAYLOAD_NOW, an output or other derived signal as
posted, its mark FRESH when posted for n. A recording event in RUNNING stores them as the newest record; in IDLE and
FROZEN there is none. A record joins the ring as the newest, at the next slot of the ring's words; that slot n begins
at word n × (K+3), and that the slots are taken in turn, from 0 again after the last, is the model's choice (log 16);
at capacity it replaces the oldest; a record made in STREAM mode at an unread count of capacity is counted lost and
latched; below it the unread count rises by one, and where that reaches the block size the BLOCK_READY notice is made,
and a waiting read is answered with the block. A pending injection flips bits of its frame number word, which ones is
free (log 13), and is then cleared (R181). In POST with CAPTURE a record joins and the post count falls by one, the
record of the last one freezing the recorder. -/
def Obligations.RecordsJoinAndTheRecorderFreezes : Prop :=
  (∀ s : State, Live s →
      let announced : State := notify .blockReady { s with trc.announced := true }
      (s.trc.st ≠ .running → exec .streamBlockReady s = .next s)
        ∧ (s.trc.st = .running → s.trc.params.capture = false → s.trc.unread = s.trc.params.block →
            s.trc.announced = false → s.hli.deferred = none → exec .streamBlockReady s = .next announced)
        ∧ (∀ tag, s.trc.st = .running → s.trc.params.capture = false → s.trc.unread = s.trc.params.block →
            s.trc.announced = false → s.hli.deferred = some ⟨.recordRead, tag⟩ →
            let q := takeUnread s.trc.params.block announced
            let rs := q.1
            let t := q.2
            exec .streamBlockReady s = .next { t with
              hli.deferred := none
              hli.tx := announced.hli.tx ++ [Msg.reply true 0x97 tag (.done (vList id rs ++ vCount 0 ++ vMark false))] }
              ∧ t.trc.unread = 0
              ∧ ((∀ r ∈ s.trc.ring, r.words.length = recK s + 3 ∧ ∀ w ∈ r.words, w.flips = []) →
                s.trc.unread ≤ s.trc.ring.length →
                rs = (s.trc.ring.drop (s.trc.ring.length - s.trc.unread)).map
                  (fun r => recordBytes (r.words.map (·.val)) false)))
        ∧ (s.trc.st ≠ .post → exec .recorderFrozen s = .next s)
        ∧ (∀ f c ms, s.trc.st = .post → s.trc.postCount ≤ 1 → s.trc.marks = (f, c) :: ms →
            exec .recorderFrozen s = .next
              (notify (.frozen f c) { s with trc.st := .frozen, trc.postCount := 0, trc.cursor := 0 })))
  ∧ (∀ (n : Nat) (s : State), s.trc.recset.length = 12 → (∀ q ∈ s.sgs.image, q.flips = []) →
      let ids : List Nat := s.trc.recset.filterMap id
      let ws := (recordWords n s).1
      let entry (j : Nat) : ImageEntry := ((s.sgs.image[j - 1]?).map (·.val)).getD .initial
      let value (j : Nat) : Int :=
        if 1 ≤ j ∧ j ≤ 34 then (entry j).value else if j = 60 then s.sgs.vspd.value
        else if j = 61 then s.sgs.payload.value else (s.out.get j).value
      let graded (q : Quality) : Nat :=
        if q = .fresh then 3 else if q = .kept ∨ q = .subst then 2 else if q = .held then 1 else 0
      let mark (j : Nat) : Nat :=
        if 1 ≤ j ∧ j ≤ 34 then graded (entry j).quality else if j = 60 then graded s.sgs.vspd.quality
        else if j = 61 then graded s.sgs.payload.quality else if (s.out.get j).frame = some n then 3 else 0
      (recordWords n s).2 = s ∧ ws.length = ids.length + 3 ∧ ws[0]? = some (BitVec.ofNat 48 n)
        ∧ ws[1]? = some (BitVec.ofNat 48 (govCode s.dsc.gov + 4 * s.epu.trips.length
            + (if s.epu.trips.any (·.severe) then 64 else 0) + 65536 * s.hli.flags.toNat))
        ∧ (∀ p j, ids[p]? = some j → (∃ m, ws[2]? = some m ∧ m.toNat / 4 ^ p % 4 = mark j)
            ∧ ws[3 + p]? = some (BitVec.ofInt 48 (value j)))
        ∧ (n = s.slc.frameNo →
            (s.trc.st = .running → s.trc.params.capture = true → recordFrame s = joinRecord ws s)
              ∧ (s.trc.st = .running → s.trc.params.capture = false → recordFrame s = streamRecord ws s)
              ∧ (s.trc.st = .idle ∨ s.trc.st = .frozen → recordFrame s = s)))
  ∧ ((∀ (ws : List RingWord) (s : State),
      let t := joinRecord ws s
      ∃ (fs : List Nat) (n : Nat), Struck s.imn.record.inject fs ∧ (s.imn.record.inject = .none → n = s.imn.freeCount)
        ∧ (let r : RingRecord := ⟨s.trc.nextSlot * (recK s + 3), ws.mapIdx (fun i w => ⟨w, if i = 0 then fs else []⟩)⟩
          (s.trc.ring.length < capacity s → t.trc.ring = s.trc.ring ++ [r])
          ∧ (∀ o os, s.trc.ring = o :: os → s.trc.ring.length = capacity s → t.trc.ring = os ++ [r]))
        ∧ t.trc.nextSlot = (s.trc.nextSlot + 1) % capacity s
        ∧ t = { s with trc.ring := t.trc.ring, trc.nextSlot := t.trc.nextSlot, imn.record.inject := .none, imn.freeCount := n }
        ∧ (s.trc.unread = capacity s →
            (streamRecord ws s).hli.counters.recLost = s.hli.counters.recLost.rise
              ∧ standing .recLost (streamRecord ws s) = true ∧ (streamRecord ws s).trc.unread = s.trc.unread))
      ∧ ∀ s : State, s.trc.st = .post → s.trc.params.capture = true →
        let q := recordWords s.slc.frameNo s
        let t := joinRecord q.1 q.2
        (1 < s.trc.postCount → recordFrame s = { t with trc.postCount := s.trc.postCount - 1 })
          ∧ (∀ f c ms, s.trc.postCount ≤ 1 → s.trc.marks = (f, c) :: ms →
            recordFrame s = notify (.frozen f c) { t with trc.st := .frozen, trc.postCount := 0, trc.cursor := 0 }))
  ∧ (∀ (ws : List RingWord) (s : State), s.trc.unread < capacity s →
        let u : State := { joinRecord ws s with trc.unread := s.trc.unread + 1 }
        let announced : State := notify .blockReady { u with trc.announced := true }
        (s.trc.unread + 1 ≠ s.trc.params.block → streamRecord ws s = u)
          ∧ (s.trc.unread + 1 = s.trc.params.block → (∀ tag, s.hli.deferred ≠ some ⟨.recordRead, tag⟩) →
              streamRecord ws s = announced)
          ∧ ∀ tag, s.trc.unread + 1 = s.trc.params.block → s.hli.deferred = some ⟨.recordRead, tag⟩ →
            let q := takeUnread s.trc.params.block announced
            streamRecord ws s = { q.2 with
              hli.deferred := none
              hli.tx := announced.hli.tx ++ [Msg.reply true 0x97 tag (.done (vList id q.1 ++ vCount 0 ++ vMark false))] }
              ∧ (streamRecord ws s).trc.unread = 0)

/-! ### What every step keeps -/

/-- The tables keep their sizes: 64 acquisition entries, 96 screening entries, 34 image entries, 12 places of the
record set. -/
def Obligations.EveryStepKeepsTheTablesWhole : Prop :=
  ∀ s t : State, TablesWhole s → step s = .next t → TablesWhole t

/-- In DRIVE no SEVERE record is held, the steering supply check result is PASS and no steering supply check runs,
whatever command is taken next. -/
def Obligations.EveryStepKeepsDriveSafe : Prop :=
  ∀ s t : State, DriveSafe s → step s = .next t → DriveSafe t

/-- Both invariants hold after a full reset. -/
def Obligations.InvariantsHoldAtReset : Prop :=  TablesWhole State.reset ∧ DriveSafe State.reset

/-! ### The derived signals (chapter 4) -/

/-- VSPD: with a front wheel speed usable, the magnitude of the mean of the usable ones (log 54), in km/h from rpm by
the wheel radius, to the nearest 0.1 km/h, with the lowest of their qualities; else from the magnitudes of the usable
wheel motor speeds and the gear ratio, with quality SUBST; else the last value computed, BAD (log 55). PI is a rational
approximation (log 21). PAYLOAD_NOW: with the four strut pressures usable, their sum less STRUT_TARE by PAYLOAD_GAIN,
to the nearest 0.1 t, at least 0 (between two steps either may stand, log 18), with the lowest of their qualities; else
the last value computed, BAD (log 55). A publication draws VSPD and PAYLOAD_NOW from the image it publishes, under the
settings that come into force at it, ahead of this computation, which is the model's reading (log 29) (with no
injection pending for the image, so that it is read back as published); entry to HALTED sets both ABSENT with value 0.
-/
def Obligations.DerivedSignalsAreDrawnFromTheImage : Prop :=
  (∀ (g : Settings) (es : List ImageEntry) (old : Derived),
      let front : List ImageEntry := [es.getD 2 .initial, es.getD 3 .initial].filter (·.quality.usable)
      let motor : List ImageEntry := [es.getD 0 .initial, es.getD 1 .initial].filter (·.quality.usable)
      let near (num den v : Int) : Prop := -den ≤ 2 * num - 2 * v * den ∧ 2 * num - 2 * v * den ≤ den
      let v := vspdOf g es old
      (front ≠ [] → near ((((front.map (fun e : ImageEntry => e.value)).sum : Int).natAbs : Int) * g.wheelRadius * 120 * piNum)
            (front.length * 1000000 * piDen) v.value ∧ 0 ≤ v.value
          ∧ (v.quality = .fresh ∨ v.quality = .kept ∨ v.quality = .subst)
          ∧ (v.quality = .subst ↔ ∃ e ∈ front, e.quality = .subst)
          ∧ (v.quality = .fresh ↔ ∀ e ∈ front, e.quality = .fresh))
        ∧ (front = [] → motor ≠ [] → v.quality = .subst ∧ (0 < g.gearRatio →
            near ((motor.map (fun e : ImageEntry => (e.value.natAbs : Int))).sum * g.wheelRadius * 12000 * piNum)
              (motor.length * g.gearRatio * 1000000 * piDen) v.value))
        ∧ (front = [] → motor = [] → v = ⟨old.value, .bad⟩))
  ∧ (∀ (g : Settings) (es : List ImageEntry) (old : Derived),
      let struts : List ImageEntry :=
        [es.getD 23 .initial, es.getD 24 .initial, es.getD 25 .initial, es.getD 26 .initial]
      let n : Int := ((struts.map (·.value)).sum - g.strutTare) * g.payloadGain
      let v := payloadOf g es old
      ((∀ e ∈ struts, e.quality.usable = true) →
          0 ≤ v.value ∧ (n ≤ 0 → v.value = 0) ∧ (0 ≤ n → -100 ≤ 2 * n - 200 * v.value ∧ 2 * n - 200 * v.value ≤ 100)
          ∧ (v.quality = .fresh ∨ v.quality = .kept ∨ v.quality = .subst)
          ∧ (v.quality = .subst ↔ ∃ e ∈ struts, e.quality = .subst)
          ∧ (v.quality = .fresh ↔ ∀ e ∈ struts, e.quality = .fresh))
        ∧ ((∃ e ∈ struts, e.quality.usable = false) → v = ⟨old.value, .bad⟩))
  ∧ ((∀ s : State, Live s → s.slc.phase = .acqEnded → s.imn.image.inject = .none →
        ∃ t, exec .publication s = .next t
          ∧ t.sgs.vspd = vspdOf s.hli.stored (t.sgs.image.map (·.val)) s.sgs.vspd
          ∧ t.sgs.payload = payloadOf s.hli.stored (t.sgs.image.map (·.val)) s.sgs.payload)
      ∧ ∀ (tag : Byte) (s : State), CanTake s → tag ≠ 0#8 → s.dsc.gov = .standby →
        ∃ t, exec (.modeRequest tag 0) s = .next t ∧ t.sgs.vspd = ⟨0, .absent⟩ ∧ t.sgs.payload = ⟨0, .absent⟩)
end

