-- ==== Sys2Proof/Laws/State.lean ====
section
/-! SUPPORT. What an update of State leaves as it was: one frame lemma for each field of State, and the frame predicates
that the lemmas about the operations are stated with. -/

namespace Sys2Proof.Machine

/-! ### Frames: the two states agree on every field but the ones named -/

/-- Only `dsc` may differ. -/
@[simp] abbrev OnlyDsc (t s : State) : Prop :=
  t.pins = s.pins ∧ t.slc = s.slc ∧ t.out = s.out ∧ t.sgs = s.sgs ∧ t.epu = s.epu ∧ t.tal = s.tal
    ∧ t.rgv = s.rgv ∧ t.sgv = s.sgv ∧ t.trc = s.trc ∧ t.imn = s.imn ∧ t.hli = s.hli ∧ t.pending = s.pending

/-- Only `pins` may differ. -/
@[simp] abbrev OnlyPins (t s : State) : Prop :=
  t.dsc = s.dsc ∧ t.slc = s.slc ∧ t.out = s.out ∧ t.sgs = s.sgs ∧ t.epu = s.epu ∧ t.tal = s.tal
    ∧ t.rgv = s.rgv ∧ t.sgv = s.sgv ∧ t.trc = s.trc ∧ t.imn = s.imn ∧ t.hli = s.hli ∧ t.pending = s.pending

/-- Only `slc` may differ. -/
@[simp] abbrev OnlySlc (t s : State) : Prop :=
  t.dsc = s.dsc ∧ t.pins = s.pins ∧ t.out = s.out ∧ t.sgs = s.sgs ∧ t.epu = s.epu ∧ t.tal = s.tal
    ∧ t.rgv = s.rgv ∧ t.sgv = s.sgv ∧ t.trc = s.trc ∧ t.imn = s.imn ∧ t.hli = s.hli ∧ t.pending = s.pending

/-- Only `out` may differ. -/
@[simp] abbrev OnlyOut (t s : State) : Prop :=
  t.dsc = s.dsc ∧ t.pins = s.pins ∧ t.slc = s.slc ∧ t.sgs = s.sgs ∧ t.epu = s.epu ∧ t.tal = s.tal
    ∧ t.rgv = s.rgv ∧ t.sgv = s.sgv ∧ t.trc = s.trc ∧ t.imn = s.imn ∧ t.hli = s.hli ∧ t.pending = s.pending

/-- Only `sgs` may differ. -/
@[simp] abbrev OnlySgs (t s : State) : Prop :=
  t.dsc = s.dsc ∧ t.pins = s.pins ∧ t.slc = s.slc ∧ t.out = s.out ∧ t.epu = s.epu ∧ t.tal = s.tal
    ∧ t.rgv = s.rgv ∧ t.sgv = s.sgv ∧ t.trc = s.trc ∧ t.imn = s.imn ∧ t.hli = s.hli ∧ t.pending = s.pending

/-- Only `epu` may differ. -/
@[simp] abbrev OnlyEpu (t s : State) : Prop :=
  t.dsc = s.dsc ∧ t.pins = s.pins ∧ t.slc = s.slc ∧ t.out = s.out ∧ t.sgs = s.sgs ∧ t.tal = s.tal
    ∧ t.rgv = s.rgv ∧ t.sgv = s.sgv ∧ t.trc = s.trc ∧ t.imn = s.imn ∧ t.hli = s.hli ∧ t.pending = s.pending

/-- Only `tal` may differ. -/
@[simp] abbrev OnlyTal (t s : State) : Prop :=
  t.dsc = s.dsc ∧ t.pins = s.pins ∧ t.slc = s.slc ∧ t.out = s.out ∧ t.sgs = s.sgs ∧ t.epu = s.epu
    ∧ t.rgv = s.rgv ∧ t.sgv = s.sgv ∧ t.trc = s.trc ∧ t.imn = s.imn ∧ t.hli = s.hli ∧ t.pending = s.pending

/-- Only `rgv` may differ. -/
@[simp] abbrev OnlyRgv (t s : State) : Prop :=
  t.dsc = s.dsc ∧ t.pins = s.pins ∧ t.slc = s.slc ∧ t.out = s.out ∧ t.sgs = s.sgs ∧ t.epu = s.epu
    ∧ t.tal = s.tal ∧ t.sgv = s.sgv ∧ t.trc = s.trc ∧ t.imn = s.imn ∧ t.hli = s.hli ∧ t.pending = s.pending

/-- Only `sgv` may differ. -/
@[simp] abbrev OnlySgv (t s : State) : Prop :=
  t.dsc = s.dsc ∧ t.pins = s.pins ∧ t.slc = s.slc ∧ t.out = s.out ∧ t.sgs = s.sgs ∧ t.epu = s.epu
    ∧ t.tal = s.tal ∧ t.rgv = s.rgv ∧ t.trc = s.trc ∧ t.imn = s.imn ∧ t.hli = s.hli ∧ t.pending = s.pending

/-- Only `trc` may differ. -/
@[simp] abbrev OnlyTrc (t s : State) : Prop :=
  t.dsc = s.dsc ∧ t.pins = s.pins ∧ t.slc = s.slc ∧ t.out = s.out ∧ t.sgs = s.sgs ∧ t.epu = s.epu
    ∧ t.tal = s.tal ∧ t.rgv = s.rgv ∧ t.sgv = s.sgv ∧ t.imn = s.imn ∧ t.hli = s.hli ∧ t.pending = s.pending

/-- Only `imn` may differ. -/
@[simp] abbrev OnlyImn (t s : State) : Prop :=
  t.dsc = s.dsc ∧ t.pins = s.pins ∧ t.slc = s.slc ∧ t.out = s.out ∧ t.sgs = s.sgs ∧ t.epu = s.epu
    ∧ t.tal = s.tal ∧ t.rgv = s.rgv ∧ t.sgv = s.sgv ∧ t.trc = s.trc ∧ t.hli = s.hli ∧ t.pending = s.pending

/-- Only `hli` may differ. -/
@[simp] abbrev OnlyHli (t s : State) : Prop :=
  t.dsc = s.dsc ∧ t.pins = s.pins ∧ t.slc = s.slc ∧ t.out = s.out ∧ t.sgs = s.sgs ∧ t.epu = s.epu
    ∧ t.tal = s.tal ∧ t.rgv = s.rgv ∧ t.sgv = s.sgv ∧ t.trc = s.trc ∧ t.imn = s.imn ∧ t.pending = s.pending

/-- Only `pending` may differ. -/
@[simp] abbrev OnlyPending (t s : State) : Prop :=
  t.dsc = s.dsc ∧ t.pins = s.pins ∧ t.slc = s.slc ∧ t.out = s.out ∧ t.sgs = s.sgs ∧ t.epu = s.epu
    ∧ t.tal = s.tal ∧ t.rgv = s.rgv ∧ t.sgv = s.sgv ∧ t.trc = s.trc ∧ t.imn = s.imn ∧ t.hli = s.hli

/-- Only `slc`, `imn` and `hli` may differ. -/
@[simp] abbrev OnlySlcImnHli (t s : State) : Prop :=
  t.dsc = s.dsc ∧ t.pins = s.pins ∧ t.out = s.out ∧ t.sgs = s.sgs ∧ t.epu = s.epu ∧ t.tal = s.tal
    ∧ t.rgv = s.rgv ∧ t.sgv = s.sgv ∧ t.trc = s.trc ∧ t.pending = s.pending

/-- Only `sgs`, `imn` and `hli` may differ. -/
@[simp] abbrev OnlySgsImnHli (t s : State) : Prop :=
  t.dsc = s.dsc ∧ t.pins = s.pins ∧ t.slc = s.slc ∧ t.out = s.out ∧ t.epu = s.epu ∧ t.tal = s.tal
    ∧ t.rgv = s.rgv ∧ t.sgv = s.sgv ∧ t.trc = s.trc ∧ t.pending = s.pending

/-- Only `trc`, `imn` and `hli` may differ. -/
@[simp] abbrev OnlyTrcImnHli (t s : State) : Prop :=
  t.dsc = s.dsc ∧ t.pins = s.pins ∧ t.slc = s.slc ∧ t.out = s.out ∧ t.sgs = s.sgs ∧ t.epu = s.epu
    ∧ t.tal = s.tal ∧ t.rgv = s.rgv ∧ t.sgv = s.sgv ∧ t.pending = s.pending

/-- Only `imn` and `hli` may differ. -/
@[simp] abbrev OnlyImnHli (t s : State) : Prop :=
  t.dsc = s.dsc ∧ t.pins = s.pins ∧ t.slc = s.slc ∧ t.out = s.out ∧ t.sgs = s.sgs ∧ t.epu = s.epu
    ∧ t.tal = s.tal ∧ t.rgv = s.rgv ∧ t.sgv = s.sgv ∧ t.trc = s.trc ∧ t.pending = s.pending

/-- Only `sgs` and `imn` may differ. -/
@[simp] abbrev OnlySgsImn (t s : State) : Prop :=
  t.dsc = s.dsc ∧ t.pins = s.pins ∧ t.slc = s.slc ∧ t.out = s.out ∧ t.epu = s.epu ∧ t.tal = s.tal
    ∧ t.rgv = s.rgv ∧ t.sgv = s.sgv ∧ t.trc = s.trc ∧ t.hli = s.hli ∧ t.pending = s.pending

/-- Only `slc` and `hli` may differ. -/
@[simp] abbrev OnlySlcHli (t s : State) : Prop :=
  t.dsc = s.dsc ∧ t.pins = s.pins ∧ t.out = s.out ∧ t.sgs = s.sgs ∧ t.epu = s.epu ∧ t.tal = s.tal
    ∧ t.rgv = s.rgv ∧ t.sgv = s.sgv ∧ t.trc = s.trc ∧ t.imn = s.imn ∧ t.pending = s.pending

/-- Only `dsc` and `hli` may differ. -/
@[simp] abbrev OnlyDscHli (t s : State) : Prop :=
  t.pins = s.pins ∧ t.slc = s.slc ∧ t.out = s.out ∧ t.sgs = s.sgs ∧ t.epu = s.epu ∧ t.tal = s.tal
    ∧ t.rgv = s.rgv ∧ t.sgv = s.sgv ∧ t.trc = s.trc ∧ t.imn = s.imn ∧ t.pending = s.pending

/-- Only `slc`, `rgv` and `hli` may differ. -/
@[simp] abbrev OnlySlcRgvHli (t s : State) : Prop :=
  t.dsc = s.dsc ∧ t.pins = s.pins ∧ t.out = s.out ∧ t.sgs = s.sgs ∧ t.epu = s.epu ∧ t.tal = s.tal
    ∧ t.sgv = s.sgv ∧ t.trc = s.trc ∧ t.imn = s.imn ∧ t.pending = s.pending

/-- Only `slc`, `sgv` and `hli` may differ. -/
@[simp] abbrev OnlySlcSgvHli (t s : State) : Prop :=
  t.dsc = s.dsc ∧ t.pins = s.pins ∧ t.out = s.out ∧ t.sgs = s.sgs ∧ t.epu = s.epu ∧ t.tal = s.tal
    ∧ t.rgv = s.rgv ∧ t.trc = s.trc ∧ t.imn = s.imn ∧ t.pending = s.pending

/-- Only `rgv` and `hli` may differ. -/
@[simp] abbrev OnlyRgvHli (t s : State) : Prop :=
  t.dsc = s.dsc ∧ t.pins = s.pins ∧ t.slc = s.slc ∧ t.out = s.out ∧ t.sgs = s.sgs ∧ t.epu = s.epu
    ∧ t.tal = s.tal ∧ t.sgv = s.sgv ∧ t.trc = s.trc ∧ t.imn = s.imn ∧ t.pending = s.pending

/-- Only `trc` and `hli` may differ. -/
@[simp] abbrev OnlyTrcHli (t s : State) : Prop :=
  t.dsc = s.dsc ∧ t.pins = s.pins ∧ t.slc = s.slc ∧ t.out = s.out ∧ t.sgs = s.sgs ∧ t.epu = s.epu
    ∧ t.tal = s.tal ∧ t.rgv = s.rgv ∧ t.sgv = s.sgv ∧ t.imn = s.imn ∧ t.pending = s.pending

/-- The tables have the same sizes. -/
@[simp] abbrev SameSizes (t s : State) : Prop :=
  t.slc.acq.length = s.slc.acq.length ∧ t.sgs.screen.length = s.sgs.screen.length
    ∧ t.sgs.image.length = s.sgs.image.length ∧ t.trc.recset.length = s.trc.recset.length

/-- What the DRIVE invariant reads is the same. -/
@[simp] abbrev SameGuard (t s : State) : Prop :=
  t.dsc.gov = s.dsc.gov ∧ t.epu.trips = s.epu.trips ∧ t.sgv.result = s.sgv.result ∧ t.sgv.run = s.sgv.run

/-! ### One lemma per field: an update of that field leaves the others -/

@[simp] theorem State.with_dsc (s : State) (x : Dsc) : OnlyDsc { s with dsc := x } s ∧ { s with dsc := x }.dsc = x := by
  simp

@[simp] theorem State.with_pins (s : State) (x : Pins) : OnlyPins { s with pins := x } s ∧ { s with pins := x }.pins = x := by
  simp

@[simp] theorem State.with_slc (s : State) (x : Slc) : OnlySlc { s with slc := x } s ∧ { s with slc := x }.slc = x := by
  simp

@[simp] theorem State.with_out (s : State) (x : Outputs) : OnlyOut { s with out := x } s ∧ { s with out := x }.out = x := by
  simp

@[simp] theorem State.with_sgs (s : State) (x : Sgs) : OnlySgs { s with sgs := x } s ∧ { s with sgs := x }.sgs = x := by
  simp

@[simp] theorem State.with_epu (s : State) (x : Epu) : OnlyEpu { s with epu := x } s ∧ { s with epu := x }.epu = x := by
  simp

@[simp] theorem State.with_tal (s : State) (x : Tal) : OnlyTal { s with tal := x } s ∧ { s with tal := x }.tal = x := by
  simp

@[simp] theorem State.with_rgv (s : State) (x : Rgv) : OnlyRgv { s with rgv := x } s ∧ { s with rgv := x }.rgv = x := by
  simp

@[simp] theorem State.with_sgv (s : State) (x : Sgv) : OnlySgv { s with sgv := x } s ∧ { s with sgv := x }.sgv = x := by
  simp

@[simp] theorem State.with_trc (s : State) (x : Trc) : OnlyTrc { s with trc := x } s ∧ { s with trc := x }.trc = x := by
  simp

@[simp] theorem State.with_imn (s : State) (x : Imn) : OnlyImn { s with imn := x } s ∧ { s with imn := x }.imn = x := by
  simp

@[simp] theorem State.with_hli (s : State) (x : Hli) : OnlyHli { s with hli := x } s ∧ { s with hli := x }.hli = x := by
  simp

@[simp] theorem State.with_pending (s : State) (x : List Instr) : OnlyPending { s with pending := x } s ∧ { s with pending := x }.pending = x := by
  simp

end Sys2Proof.Machine
end

