-- ==== Sys2Proof/Laws/Ops.lean ====
section
/-! SUPPORT. One frame lemma for each shared operation (Flags, Ops): what it can change, and the sizes it keeps. -/

namespace Sys2Proof.Machine

/-! ### Flags and counters -/

@[simp] theorem latch_frame (f : Flag) (s : State) :
    OnlyHli (latch f s) s := by
  simp [latch]

@[simp] theorem bump_frame (c : CounterId) (s : State) :
    OnlyHli (bump c s) s := by
  simp [bump]

@[simp] theorem latchIf_frame (b : Bool) (f : Flag) (s : State) :
    OnlyHli (latchIf b f s) s := by
  unfold latchIf
  (repeat' split) <;> simp

@[simp] theorem bump_hli (c : CounterId) (s : State) :
    (bump c s).hli = { s.hli with counters := s.hli.counters.rise c } := by
  simp [bump]

@[simp] theorem latch_hli (f : Flag) (s : State) :
    (latch f s).hli = { s.hli with flags := s.hli.flags ||| f.mask } := by
  simp [latch]

/-! ### Messages -/

@[simp] theorem send_frame (m : Msg) (s : State) :
    OnlyHli (send m s) s := by
  simp [send]

@[simp] theorem send_hli (m : Msg) (s : State) :
    (send m s).hli = { s.hli with tx := s.hli.tx ++ [m] } := by
  simp [send]

@[simp] theorem notify_frame (n : Notice) (s : State) :
    OnlyHli (notify n s) s := by
  unfold notify
  (repeat' split) <;> simp

/-- Everything a notice can do to the host link: nothing, a message at the tail, or a drop counted. -/
theorem notify_hli (n : Notice) (s : State) :
    (notify n s).hli = s.hli ∨ (notify n s).hli = { s.hli with tx := s.hli.tx ++ [.notice n] }
      ∨ (notify n s).hli = { s.hli with
          flags := s.hli.flags ||| Flag.noticesDropped.mask
          counters := s.hli.counters.rise .noticesDropped } := by
  unfold notify
  (repeat' split) <;> simp [bump]

/-- A notice leaves the settings, the deferred slot and the receiver. -/
@[simp] theorem notify_keeps (n : Notice) (s : State) :
    (notify n s).hli.stored = s.hli.stored ∧ (notify n s).hli.force = s.hli.force
      ∧ (notify n s).hli.deferred = s.hli.deferred ∧ (notify n s).hli.rx = s.hli.rx
      ∧ (notify n s).hli.cursor = s.hli.cursor ∧ (notify n s).hli.fullReset = s.hli.fullReset
      ∧ (notify n s).hli.rxBuf = s.hli.rxBuf ∧ (notify n s).hli.firstSkipped = s.hli.firstSkipped := by
  rcases notify_hli n s with h | h | h <;> simp [h, Counters.rise]

@[simp] theorem reply_frame (k t : Byte) (b : Body) (s : State) :
    OnlyHli (reply k t b s) s := by
  simp [reply]

@[simp] theorem done_frame (k t : Byte) (d : List Byte) (s : State) :
    OnlyHli (done k t d s) s := by
  simp [done]

@[simp] theorem refuse_frame (k t : Byte) (c : RClass) (d : Detail) (q : Nat) (s : State) :
    OnlyHli (refuse k t c d q s) s := by
  simp [refuse]

@[simp] theorem takeSlot_frame (k : DeferKind) (t : Byte) (s : State) :
    OnlyHli (takeSlot k t s) s := by
  simp [takeSlot]

@[simp] theorem deferredReply_frame (b : Body) (s : State) :
    OnlyHli (deferredReply b s) s := by
  unfold deferredReply
  (repeat' split) <;> simp

@[simp] theorem deferredReplyOf_frame (k : DeferKind) (b : Body) (s : State) :
    OnlyHli (deferredReplyOf k b s) s := by
  unfold deferredReplyOf
  (repeat' split) <;> simp

/-- A DONE reply to a request kind is the message at the tail. -/
theorem done_eq {k : Byte} (h : k.toNat < 0x80) (t : Byte) (d : List Byte) (s : State) :
    done k t d s = s.answered (k + 0x80#8) t d := by
  simp [done, reply, replyKind, h, send, State.answered, State.replied]

/-- A REFUSED reply to a request kind is the message at the tail. -/
theorem refuse_eq {k : Byte} (h : k.toNat < 0x80) (t : Byte) (c : RClass) (d : Detail) (q : Nat) (s : State) :
    refuse k t c d q s = s.turnedAway (k + 0x80#8) t c d q := by
  simp [refuse, reply, replyKind, h, send, State.turnedAway, State.replied]

/-- The outstanding deferred request is answered and its slot freed. -/
theorem deferredReply_of_some {d : Deferred} {s : State} (h : s.hli.deferred = some d) (b : Body) :
    deferredReply b s =
      { s with hli.tx := s.hli.tx ++ [.reply true (replyKind d.kind.code) d.tag b], hli.deferred := none } := by
  simp [deferredReply, h, send]

/-! ### The protected memories -/

@[simp] theorem updGuard_frame (m : Mem) (f : MemGuard → MemGuard) (s : State) :
    OnlyImn (updGuard m f s) s := by
  simp [updGuard]

@[simp] theorem noteCorrected_frame (m : Mem) (a : Nat) (s : State) :
    OnlyImnHli (noteCorrected m a s) s := by
  simp [noteCorrected]

@[simp] theorem noteUncorrectable_frame (m : Mem) (a : Nat) (s : State) :
    OnlyImnHli (noteUncorrectable m a s) s := by
  simp [noteUncorrectable]

@[simp] theorem readAcq_frame (i : Nat) (s : State) :
    OnlySlcImnHli (readAcq i s).2 s := by
  unfold readAcq
  (repeat' split) <;> simp

theorem readAcq_slc (i : Nat) (s : State) :
    (readAcq i s).2.slc = { s.slc with acq := (readAcq i s).2.slc.acq } := by
  unfold readAcq
  (repeat' split) <;> simp

@[simp] theorem readAcq_length (i : Nat) (s : State) :
    (readAcq i s).2.slc.acq.length = s.slc.acq.length := by
  unfold readAcq
  (repeat' split) <;> simp

@[simp] theorem readScreen_frame (i : Nat) (s : State) :
    OnlySgsImnHli (readScreen i s).2 s := by
  unfold readScreen
  (repeat' split) <;> simp

@[simp] theorem readScreen_sizes (i : Nat) (s : State) :
    SameSizes (readScreen i s).2 s := by
  unfold readScreen
  (repeat' split) <;> simp

@[simp] theorem readImage_frame (id : Nat) (s : State) :
    OnlySgsImnHli (readImage id s).2 s := by
  unfold readImage
  (repeat' split) <;> simp

@[simp] theorem readImage_sizes (id : Nat) (s : State) :
    SameSizes (readImage id s).2 s := by
  unfold readImage
  (repeat' split) <;> simp

/-- With no bit of the image flipped a read hands on the entry, or the initial one outside the image, and changes nothing. -/
theorem readImage_sound {s : State} (h : ∀ p ∈ s.sgs.image, p.flips = []) (id : Nat) :
    readImage id s = (((s.sgs.image[id - 1]?).map (·.val)).getD .initial, s) := by
  unfold readImage
  split
  · rename_i e
    simp [e]
  · rename_i p e
    simp [e, h p (List.mem_of_getElem? e)]

@[simp] theorem readImages_frame (ids : List Nat) (s : State) :
    OnlySgsImnHli (readImages ids s).2 s := by
  induction ids generalizing s with
  | nil => simp [readImages]
  | cons i is ih =>
    have h := ih (readImage i s).2
    simp_all [readImages]

@[simp] theorem readImages_sizes (ids : List Nat) (s : State) :
    SameSizes (readImages ids s).2 s := by
  induction ids generalizing s with
  | nil => simp [readImages]
  | cons i is ih =>
    have h := ih (readImage i s).2
    simp_all [readImages]

@[simp] theorem takeInjection_frame (m : Mem) (s : State) :
    OnlyImn (takeInjection m s).2 s := by
  unfold takeInjection
  (repeat' split) <;> simp

/-- What taking a pending injection can do: the bits it strikes, the injection cleared, and the model's own count moved on
where there was one. -/
theorem takeInjection_spec (m : Mem) (s : State) :
    Struck (s.imn.guard m).inject (takeInjection m s).1
      ∧ ((s.imn.guard m).inject = .none → (takeInjection m s).2.imn.freeCount = s.imn.freeCount)
      ∧ (takeInjection m s).2 = { s with imn := { s.imn.setGuard { s.imn.guard m with inject := .none } m with
          freeCount := (takeInjection m s).2.imn.freeCount } } := by
  rcases s with ⟨_, _, _, _, _, _, _, _, _, _, ⟨⟨_, _, _, _, a⟩, ⟨_, _, _, _, b⟩, ⟨_, _, _, _, c⟩, ⟨_, _, _, _, d⟩, _, _⟩, _, _⟩
  cases m <;> simp only [Imn.guard]
  · cases a <;> simp [takeInjection, Imn.guard, Struck, updGuard, Imn.setGuard] <;> split <;> omega
  · cases b <;> simp [takeInjection, Imn.guard, Struck, updGuard, Imn.setGuard] <;> split <;> omega
  · cases c <;> simp [takeInjection, Imn.guard, Struck, updGuard, Imn.setGuard] <;> split <;> omega
  · cases d <;> simp [takeInjection, Imn.guard, Struck, updGuard, Imn.setGuard] <;> split <;> omega

@[simp] theorem writeImage_frame (es : List ImageEntry) (s : State) :
    OnlySgsImn (writeImage es s) s := by
  simp [writeImage]

@[simp] theorem writeImage_sizes (es : List ImageEntry) (s : State) :
    (writeImage es s).sgs.image.length = es.length ∧ (writeImage es s).sgs.screen = s.sgs.screen := by
  simp [writeImage]

/-! ### Governing state, the directory and the service queue -/

@[simp] theorem changeState_frame (g : Gov) (c : StateCause) (s : State) :
    OnlyDscHli (changeState g c s) s := by
  simp [changeState]

@[simp] theorem changeState_dsc (g : Gov) (c : StateCause) (s : State) :
    (changeState g c s).dsc = { s.dsc with gov := g } := by
  simp [changeState]

@[simp] theorem updStation_frame (a : Nat) (f : Station → Station) (s : State) :
    OnlySlc (updStation a f s) s := by
  simp [updStation]

@[simp] theorem updStation_slc (a : Nat) (f : Station → Station) (s : State) :
    (updStation a f s).slc.acq = s.slc.acq ∧ (updStation a f s).slc.queue = s.slc.queue ∧ (updStation a f s).slc.held = s.slc.held := by
  simp [updStation]

/-- The station loop's fields other than the service queue and the held items are the same. -/
@[simp] abbrev OnlyQueue (t s : State) : Prop :=
  t.slc.loopState = s.slc.loopState ∧ t.slc.sync = s.slc.sync ∧ t.slc.dir = s.slc.dir ∧ t.slc.acq = s.slc.acq
    ∧ t.slc.frameTimer = s.slc.frameTimer ∧ t.slc.frameNo = s.slc.frameNo ∧ t.slc.firstFrame = s.slc.firstFrame
    ∧ t.slc.phase = s.slc.phase ∧ t.slc.markReached = s.slc.markReached ∧ t.slc.loopLost = s.slc.loopLost
    ∧ t.slc.passIdx = s.slc.passIdx ∧ t.slc.run = s.slc.run ∧ t.slc.slots = s.slc.slots ∧ t.slc.slot = s.slc.slot
    ∧ t.slc.delivery = s.slc.delivery ∧ t.slc.scan = s.slc.scan ∧ t.slc.posting = s.slc.posting

/-- The station loop's fields other than the service queue, the held items and the phase are the same. -/
@[simp] abbrev OnlyQueuePhase (t s : State) : Prop :=
  t.slc.loopState = s.slc.loopState ∧ t.slc.sync = s.slc.sync ∧ t.slc.dir = s.slc.dir ∧ t.slc.acq = s.slc.acq
    ∧ t.slc.frameTimer = s.slc.frameTimer ∧ t.slc.frameNo = s.slc.frameNo ∧ t.slc.firstFrame = s.slc.firstFrame
    ∧ t.slc.markReached = s.slc.markReached ∧ t.slc.loopLost = s.slc.loopLost
    ∧ t.slc.passIdx = s.slc.passIdx ∧ t.slc.run = s.slc.run ∧ t.slc.slots = s.slc.slots ∧ t.slc.slot = s.slc.slot
    ∧ t.slc.delivery = s.slc.delivery ∧ t.slc.scan = s.slc.scan ∧ t.slc.posting = s.slc.posting

@[simp] theorem joinHeld_frame (s : State) :
    OnlySlc (joinHeld s) s := by
  simp [joinHeld]

@[simp] theorem joinHeld_slc (s : State) :
    OnlyQueue (joinHeld s) s := by
  simp [joinHeld]

@[simp] theorem joinItem_frame (it : Item) (s : State) :
    OnlySlc (joinItem it s) s := by
  unfold joinItem
  (repeat' split) <;> simp

@[simp] theorem joinItem_slc (it : Item) (s : State) :
    OnlyQueue (joinItem it s) s := by
  unfold joinItem
  (repeat' split) <;> simp

/-- Held items that join keep the order of queue and held items together. -/
theorem joinHeld_order (s : State) :
    (joinHeld s).slc.queue ++ (joinHeld s).slc.held = s.slc.queue ++ s.slc.held := by
  simp [joinHeld]

/-- No item is held once the queue has room. -/
theorem joinHeld_full (s : State) : (joinHeld s).slc.queue.length < 8 → (joinHeld s).slc.held = [] := by
  simp only [joinHeld, List.length_append, List.length_take, List.drop_eq_nil_iff]
  omega

/-- An item that joins is the last of queue and held items together, when none is held past room. -/
theorem joinItem_order (it : Item) (s : State) (h : s.slc.queue.length < 8 → s.slc.held = []) :
    (joinItem it s).slc.queue ++ (joinItem it s).slc.held = s.slc.queue ++ s.slc.held ++ [it] := by
  unfold joinItem
  split
  · rename_i hl
    simp [h hl]
  · simp

@[simp] theorem popHead_frame (s : State) :
    OnlySlc (popHead s) s := by
  simp [popHead]

@[simp] theorem popHead_slc (s : State) :
    OnlyQueue (popHead s) s := by
  simp [popHead]

@[simp] theorem removeItems_frame (c : Claimant) (s : State) :
    OnlySlc (removeItems c s) s := by
  simp [removeItems]

@[simp] theorem removeItems_slc (c : Claimant) (s : State) :
    OnlyQueue (removeItems c s) s := by
  simp [removeItems]

@[simp] theorem endService_frame (s : State) :
    OnlySlc (endService s) s := by
  unfold endService
  (repeat' split) <;> simp

/-- The end of the service pass moves the phase to `done` or leaves it, and nothing else. -/
theorem endService_slc (s : State) :
    (endService s).slc = s.slc ∨ s.slc.phase = .service ∧ (endService s).slc = { s.slc with phase := .done } := by
  unfold endService
  split <;> simp_all

@[simp] theorem endService_keeps (s : State) :
    OnlyQueuePhase (endService s) s ∧ (endService s).slc.queue = s.slc.queue ∧ (endService s).slc.held = s.slc.held := by
  rcases endService_slc s with h | ⟨_, h⟩ <;> simp [h]

end Sys2Proof.Machine
end

