-- ==== Sys2Proof/Laws/Frames.lean ====
section
/-! SUPPORT. One lemma for each operation of the blocks: the table sizes it keeps (`SameSizes`), and, where it never touches
them, the state, the trips and the check result that bar DRIVE (`SameGuard`); for the shared ones also its frame. -/

namespace Sys2Proof.Machine

/-! ### The grid element check and the steering supply check -/

@[simp] theorem gridEnd_kept (o : GridOutcome) (cause : ProcCause) (failed : Option (Grid × Nat × GridStep × FailedWith)) (s : State) :
    SameSizes (gridEnd o cause failed s) s ∧ SameGuard (gridEnd o cause failed s) s := by
  unfold gridEnd
  (repeat' split) <;> simp

@[simp] theorem gridResults_kept (r : GridRun) (s : State) :
    SameSizes (gridResults r s) s ∧ SameGuard (gridResults r s) s := by
  simp [gridResults]

@[simp] theorem gridComplete_kept (r : GridRun) (s : State) :
    SameSizes (gridComplete r s) s ∧ SameGuard (gridComplete r s) s := by
  simp [gridComplete]

@[simp] theorem gridAbort_kept (cause : ProcCause) (s : State) :
    SameSizes (gridAbort cause s) s ∧ SameGuard (gridAbort cause s) s := by
  unfold gridAbort
  (repeat' split) <;> simp

@[simp] theorem gridDelivered_kept (r : GridRun) (res : Nat) (s : State) :
    SameSizes (gridDelivered r res s) s ∧ SameGuard (gridDelivered r res s) s := by
  unfold gridDelivered
  (repeat' split) <;> simp

@[simp] theorem gridFailed_kept (r : GridRun) (w : FailedWith) (s : State) :
    SameSizes (gridFailed r w s) s ∧ SameGuard (gridFailed r w s) s := by
  simp [gridFailed]

@[simp] theorem gridOutcome_kept (o : ExOutcome) (data : Nat) (s : State) :
    SameSizes (gridOutcome o data s) s ∧ SameGuard (gridOutcome o data s) s := by
  unfold gridOutcome
  (repeat' split) <;> simp

@[simp] theorem gridStationExcluded_kept (addr : Nat) (s : State) :
    SameSizes (gridStationExcluded addr s) s ∧ SameGuard (gridStationExcluded addr s) s := by
  unfold gridStationExcluded
  (repeat' split) <;> simp

@[simp] theorem takeGridCheckStart_kept (tag grid : Byte) (s : State) :
    SameSizes (takeGridCheckStart tag grid s) s ∧ SameGuard (takeGridCheckStart tag grid s) s := by
  unfold takeGridCheckStart
  (repeat' split) <;> simp

@[simp] theorem takeGridCheckStop_kept (tag : Byte) (s : State) :
    SameSizes (takeGridCheckStop tag s) s ∧ SameGuard (takeGridCheckStop tag s) s := by
  unfold takeGridCheckStop
  (repeat' split) <;> simp

@[simp] theorem toRelease_sizes (r : SteerRun) (pending : Option (SteerOutcome × ProcCause)) (s : State) :
    SameSizes (toRelease r pending s) s := by
  unfold toRelease
  (repeat' split) <;> simp

/-- Going to RELEASE from an earlier phase: the run, and the release ACT last, the only item of the check unless one is in
its slot; every other item keeps its place. -/
theorem toRelease_spec (r : SteerRun) (p : Option (SteerOutcome × ProcCause)) (s : State) (h : r.phase ≠ .release) :
    let t := toRelease r p s
    let items (u : State) : List Item := u.slc.queue ++ u.slc.held
    t.sgv = { s.sgv with run := some { r with phase := .release, pending := p } }
      ∧ (items t).getLast? = some (steerItem r.addr 0)
      ∧ (s.slc.slot = none → (items t).filter (·.claimant == .steerCheck) = [steerItem r.addr 0])
      ∧ (items t).filter (·.claimant != .steerCheck) = (items s).filter (·.claimant != .steerCheck) := by
  dsimp only
  unfold toRelease
  rw [if_neg h]
  dsimp only
  rw [joinItem_order (steerItem r.addr 0)
    { removeItems .steerCheck s with sgv.run := some { r with phase := .release, pending := p } } (joinHeld_full _)]
  have hu : ({ removeItems .steerCheck s with sgv.run := some { r with phase := .release, pending := p } } : State).slc =
    (removeItems .steerCheck s).slc := rfl
  rw [hu]
  unfold removeItems
  dsimp only
  rw [joinHeld_order]
  refine ⟨?_, ?_, ?_, ?_⟩
  · rw [(joinItem_frame _ _).2.2.2.2.2.2.2.1]; rfl
  · rw [List.getLast?_append]; rfl
  · intro hs
    simp [headInSlot, hs, steerItem]
  · simp only [List.filter_append]
    have : [steerItem r.addr 0].filter (·.claimant != .steerCheck) = [] := rfl
    rw [this, List.append_nil]
    congr 1
    · split
      · cases s.slc.queue with
        | nil => rfl
        | cons a l =>
          simp only [List.take, List.drop, List.map, List.filter_append, List.filter_filter]
          by_cases ha : a.claimant = .steerCheck <;> simp [ha, List.filter_cons, bne]
      · simp [List.filter_filter, bne]
    · simp [List.filter_filter, bne]

@[simp] theorem steerAbort_sizes (cause : ProcCause) (s : State) :
    SameSizes (steerAbort cause s) s := by
  unfold steerAbort
  (repeat' split) <;> simp

@[simp] theorem steerEnd_sizes (r : SteerRun) (o : SteerOutcome) (cause : ProcCause) (unconfirmed : Bool) (s : State) :
    SameSizes (steerEnd r o cause unconfirmed s) s := by
  simp [steerEnd]

@[simp] theorem steerReleased_sizes (worked : Bool) (r : SteerRun) (s : State) :
    SameSizes (steerReleased worked r s) s := by
  unfold steerReleased
  (repeat' split) <;> simp

@[simp] theorem steerOutcome_sizes (o : ExOutcome) (s : State) :
    SameSizes (steerOutcome o s) s := by
  unfold steerOutcome
  (repeat' split) <;> simp

@[simp] theorem steerStationExcluded_sizes (addr : Nat) (s : State) :
    SameSizes (steerStationExcluded addr s) s := by
  unfold steerStationExcluded
  (repeat' split) <;> simp

@[simp] theorem steerSupplyRaise_sizes (frame : Nat) (s : State) :
    SameSizes (steerSupplyRaise frame s) s := by
  simp only [steerSupplyRaise]
  (repeat' split) <;> simp

@[simp] theorem steerReset_sizes (s : State) :
    SameSizes (steerReset s) s := by
  unfold steerReset
  (repeat' split) <;> simp

@[simp] theorem watchEnd_sizes (r : SteerRun) (acc : Int) (s : State) :
    SameSizes (watchEnd r acc s) s := by
  simp [watchEnd]

@[simp] theorem steerWatch_sizes (acc : ImageEntry) (s : State) :
    SameSizes (steerWatch acc s) s := by
  simp only [steerWatch]
  (repeat' split) <;> simp

@[simp] theorem takeSteerCheckStart_sizes (tag : Byte) (s : State) :
    SameSizes (takeSteerCheckStart tag s) s := by
  unfold takeSteerCheckStart
  (repeat' split) <;> simp

@[simp] theorem computeSgv_sizes (gov : Gov) (target rate : Int) (s : State) :
    SameSizes (computeSgv gov target rate s) s := by
  simp [computeSgv]

@[simp] theorem postSgv_kept (s : State) :
    SameSizes (postSgv s) s ∧ SameGuard (postSgv s) s := by
  unfold postSgv
  (repeat' split) <;> simp

@[simp] theorem sgvInitial_kept (s : State) :
    SameSizes (sgvInitial s) s ∧ SameGuard (sgvInitial s) s := by
  simp [sgvInitial]

@[simp] theorem steerTrackArise_kept (s : State) :
    SameSizes (steerTrackArise s) s ∧ SameGuard (steerTrackArise s) s := by
  unfold steerTrackArise
  (repeat' split) <;> simp

@[simp] theorem steerTrackGo_kept (s : State) :
    SameSizes (steerTrackGo s) s ∧ SameGuard (steerTrackGo s) s := by
  unfold steerTrackGo
  (repeat' split) <;> simp

@[simp] theorem steerSupplyArise_kept (s : State) :
    SameSizes (steerSupplyArise s) s ∧ SameGuard (steerSupplyArise s) s := by
  unfold steerSupplyArise
  (repeat' split) <;> simp

@[simp] theorem accLowArise_kept (s : State) :
    SameSizes (accLowArise s) s ∧ SameGuard (accLowArise s) s := by
  unfold accLowArise
  (repeat' split) <;> simp

@[simp] theorem steerWatchEnd_sizes (s : State) :
    SameSizes (steerWatchEnd s) s := by
  simp only [steerWatchEnd]
  (repeat' split) <;> simp

/-! ### Frames of the two procedures -/

@[simp] theorem gridEnd_frame (o : GridOutcome) (c : ProcCause) (f : Option (Grid × Nat × GridStep × FailedWith))
    (s : State) : OnlyRgvHli (gridEnd o c f s) s := by
  unfold gridEnd
  split <;> simp

@[simp] theorem gridAbort_frame (c : ProcCause) (s : State) :
    OnlySlcRgvHli (gridAbort c s) s ∧ OnlyQueuePhase (gridAbort c s) s := by
  unfold gridAbort
  split <;> simp

/-- An abort of the grid element check leaves the phase, or ends a service pass. -/
theorem gridAbort_phase (c : ProcCause) (s : State) :
    (gridAbort c s).slc.phase = s.slc.phase ∨ s.slc.phase = .service ∧ (gridAbort c s).slc.phase = .done := by
  unfold gridAbort
  split
  · rcases endService_slc (removeItems .gridCheck s) with h | ⟨hp, h⟩ <;> simp_all
  · exact .inl rfl

/-- After an abort no grid element check runs; nothing else of the retard governor but its last-run record moves. -/
@[simp] theorem gridAbort_run (c : ProcCause) (s : State) :
    (gridAbort c s).rgv.check.run = none ∧ (gridAbort c s).rgv.hold = s.rgv.hold
      ∧ (gridAbort c s).rgv.gridA = s.rgv.gridA ∧ (gridAbort c s).rgv.gridB = s.rgv.gridB
      ∧ (gridAbort c s).rgv.check.results = s.rgv.check.results
      ∧ (gridAbort c s).rgv.check.anomalies = s.rgv.check.anomalies := by
  unfold gridAbort
  cases h : s.rgv.check.run <;> simp [gridEnd, h, removeItems, joinHeld]

@[simp] theorem toRelease_frame (r : SteerRun) (p : Option (SteerOutcome × ProcCause)) (s : State) :
    OnlySlcSgvHli (toRelease r p s) s ∧ OnlyQueue (toRelease r p s) s := by
  simp only [toRelease]
  (repeat' split) <;> simp

@[simp] theorem steerAbort_frame (c : ProcCause) (s : State) :
    OnlySlcSgvHli (steerAbort c s) s ∧ OnlyQueue (steerAbort c s) s := by
  unfold steerAbort
  split <;> simp

@[simp] theorem steerEnd_frame (r : SteerRun) (o : SteerOutcome) (c : ProcCause) (u : Bool) (s : State) :
    OnlySlcSgvHli (steerEnd r o c u s) s := by
  simp [steerEnd]

@[simp] theorem steerReleased_frame (w : Bool) (r : SteerRun) (s : State) : OnlySlcSgvHli (steerReleased w r s) s := by
  simp only [steerReleased]
  split <;> simp

@[simp] theorem steerOutcome_frame (o : ExOutcome) (s : State) : OnlySlcSgvHli (steerOutcome o s) s := by
  simp only [steerOutcome]
  (repeat' split) <;> simp

@[simp] theorem steerStationExcluded_frame (a : Nat) (s : State) : OnlySlcSgvHli (steerStationExcluded a s) s := by
  simp only [steerStationExcluded]
  (repeat' split) <;> simp

@[simp] theorem steerSupplyRaise_frame (n : Nat) (s : State) : OnlySlcSgvHli (steerSupplyRaise n s) s := by
  simp only [steerSupplyRaise]
  (repeat' split) <;> simp

@[simp] theorem steerReset_frame (s : State) : OnlySlcSgvHli (steerReset s) s := by
  simp only [steerReset]
  (repeat' split) <;> simp

@[simp] theorem watchEnd_frame (r : SteerRun) (a : Int) (s : State) : OnlySlcSgvHli (watchEnd r a s) s := by
  simp [watchEnd]

@[simp] theorem steerWatch_frame (a : ImageEntry) (s : State) : OnlySlcSgvHli (steerWatch a s) s := by
  simp only [steerWatch]
  (repeat' split) <;> simp

/-- With no run in progress the check's events change nothing. -/
theorem steer_idle {s : State} (h : s.sgv.run = none) :
    (∀ c, steerAbort c s = s) ∧ (∀ o, steerOutcome o s = s) ∧ (∀ a, steerStationExcluded a s = s)
      ∧ steerReset s = s ∧ (∀ a, steerWatch a s = s) ∧ steerWatchEnd s = s := by
  refine ⟨?_, ?_, ?_, ?_, ?_, ?_⟩
  · intro c; simp [steerAbort, h]
  · intro o; simp [steerOutcome, h]
  · intro a; simp [steerStationExcluded, h]
  · simp [steerReset, h]
  · intro a
    have : ∀ c, steerAbort c s = s := fun c => by simp [steerAbort, h]
    simp [steerWatch, this, h]
  · simp [steerWatchEnd, h]

/-! ### Screening and the recorder -/

@[simp] theorem countFailure_kept (i : Nat) (e : ScreenEntry) (s : State) :
    SameSizes (countFailure i e s) s ∧ SameGuard (countFailure i e s) s := by
  simp [countFailure]

@[simp] theorem evaluate_kept (old : List ImageEntry) (buf : List Delivery) (named : List ScreenEntry) (id : Nat) (d : Int)
    (is : List Nat) (s : State) :
    SameSizes (evaluate old buf named id d is s).2 s ∧ SameGuard (evaluate old buf named id d is s).2 s := by
  induction is generalizing s with
  | nil => simp [evaluate]
  | cons i is ih =>
    have h := ih (readScreen i s).2
    simp only [evaluate]
    (repeat' split) <;> simp_all

@[simp] theorem screenSignal_kept (old : List ImageEntry) (buf : List Delivery) (named : List ScreenEntry) (id : Nat)
    (s : State) :
    SameSizes (screenSignal old buf named id s).2 s ∧ SameGuard (screenSignal old buf named id s).2 s := by
  simp only [screenSignal]
  (repeat' split) <;> simp

@[simp] theorem screenSignals_kept (old : List ImageEntry) (buf : List Delivery) (named : List ScreenEntry)
    (ids : List Nat) (s : State) :
    SameSizes (screenSignals old buf named ids s).2 s ∧ SameGuard (screenSignals old buf named ids s).2 s := by
  induction ids generalizing s with
  | nil => simp [screenSignals]
  | cons i is ih => simp [screenSignals, ih]

@[simp] theorem haltImage_kept (s : State) :
    SameSizes (haltImage s) s ∧ SameGuard (haltImage s) s := by
  simp [haltImage]

@[simp] theorem signalItems_kept (ids : List Nat) (s : State) :
    SameSizes (signalItems ids s).2 s ∧ SameGuard (signalItems ids s).2 s := by
  induction ids generalizing s with
  | nil => simp [signalItems]
  | cons i is ih =>
    simp only [signalItems]
    split <;> simp [ih]

@[simp] theorem clearLatched_kept (ids : List Nat) (s : State) :
    SameSizes (clearLatched ids s) s ∧ SameGuard (clearLatched ids s) s := by
  simp [clearLatched]

@[simp] theorem takeSignalRead_kept (tag : Byte) (ids : List Byte) (s : State) :
    SameSizes (takeSignalRead tag ids s) s ∧ SameGuard (takeSignalRead tag ids s) s := by
  simp only [takeSignalRead]
  (repeat' split) <;> simp

@[simp] theorem holdExceeded_kept (id : Nat) (s : State) :
    SameSizes (holdExceeded id s) s ∧ SameGuard (holdExceeded id s) s := by
  unfold holdExceeded
  (repeat' split) <;> simp

@[simp] theorem emptyRing_kept (s : State) :
    SameSizes (emptyRing s) s ∧ SameGuard (emptyRing s) s := by
  simp [emptyRing]

@[simp] theorem readRingWord_kept (p w : Nat) (s : State) :
    SameSizes (readRingWord p w s).2.2 s ∧ SameGuard (readRingWord p w s).2.2 s := by
  unfold readRingWord
  (repeat' split) <;> simp

@[simp] theorem readRingWords_kept (p : Nat) (ws : List Nat) (s : State) :
    SameSizes (readRingWords p ws s).2.2 s ∧ SameGuard (readRingWords p ws s).2.2 s := by
  induction ws generalizing s with
  | nil => simp [readRingWords]
  | cons i is ih => simp [readRingWords, ih]

@[simp] theorem readRecord_kept (p : Nat) (s : State) :
    SameSizes (readRecord p s).2.2 s ∧ SameGuard (readRecord p s).2.2 s := by
  simp [readRecord]

@[simp] theorem readRecords_kept (ps : List Nat) (s : State) :
    SameSizes (readRecords ps s).2 s ∧ SameGuard (readRecords ps s).2 s := by
  induction ps generalizing s with
  | nil => simp [readRecords]
  | cons i is ih => simp [readRecords, ih]

@[simp] theorem recordedSignal_kept (id n : Nat) (s : State) :
    SameSizes (recordedSignal id n s).2 s ∧ SameGuard (recordedSignal id n s).2 s := by
  simp only [recordedSignal]
  (repeat' split) <;> simp

@[simp] theorem recordedSignals_kept (n : Nat) (ids : List Nat) (s : State) :
    SameSizes (recordedSignals n ids s).2 s ∧ SameGuard (recordedSignals n ids s).2 s := by
  induction ids generalizing s with
  | nil => simp [recordedSignals]
  | cons i is ih => simp [recordedSignals, ih]

@[simp] theorem recordWords_kept (n : Nat) (s : State) :
    SameSizes (recordWords n s).2 s ∧ SameGuard (recordWords n s).2 s := by
  simp [recordWords]

@[simp] theorem joinRecord_kept (ws : List RingWord) (s : State) :
    SameSizes (joinRecord ws s) s ∧ SameGuard (joinRecord ws s) s := by
  simp [joinRecord]

@[simp] theorem takeUnread_kept (n : Nat) (s : State) :
    SameSizes (takeUnread n s).2 s ∧ SameGuard (takeUnread n s).2 s := by
  simp [takeUnread]

@[simp] theorem blockReady_kept (s : State) :
    SameSizes (blockReady s) s ∧ SameGuard (blockReady s) s := by
  simp only [blockReady]
  (repeat' split) <;> simp

@[simp] theorem streamRecord_kept (ws : List RingWord) (s : State) :
    SameSizes (streamRecord ws s) s ∧ SameGuard (streamRecord ws s) s := by
  simp only [streamRecord]
  (repeat' split) <;> simp

@[simp] theorem freeze_kept (s : State) :
    SameSizes (freeze s) s ∧ SameGuard (freeze s) s := by
  simp only [freeze]
  (repeat' split) <;> simp

@[simp] theorem captureRecord_kept (ws : List RingWord) (s : State) :
    SameSizes (captureRecord ws s) s ∧ SameGuard (captureRecord ws s) s := by
  simp only [captureRecord]
  (repeat' split) <;> simp

@[simp] theorem recordFrame_kept (s : State) :
    SameSizes (recordFrame s) s ∧ SameGuard (recordFrame s) s := by
  simp only [recordFrame]
  (repeat' split) <;> simp

@[simp] theorem recorderRaise_kept (cause : TripCause) (severe : Bool) (frame : Nat) (s : State) :
    SameSizes (recorderRaise cause severe frame s) s ∧ SameGuard (recorderRaise cause severe frame s) s := by
  simp only [recorderRaise]
  (repeat' split) <;> simp

@[simp] theorem takeRecordStart_kept (tag : Byte) (s : State) :
    SameSizes (takeRecordStart tag s) s ∧ SameGuard (takeRecordStart tag s) s := by
  unfold takeRecordStart
  (repeat' split) <;> simp

@[simp] theorem takeRecordStop_kept (tag : Byte) (s : State) :
    SameSizes (takeRecordStop tag s) s ∧ SameGuard (takeRecordStop tag s) s := by
  simp only [takeRecordStop]
  (repeat' split) <;> simp

@[simp] theorem takeRecordStatus_kept (tag : Byte) (s : State) :
    SameSizes (takeRecordStatus tag s) s ∧ SameGuard (takeRecordStatus tag s) s := by
  simp [takeRecordStatus]

@[simp] theorem streamReply_kept (tag : Byte) (n : Nat) (ended : Bool) (s : State) :
    SameSizes (streamReply tag n ended s) s ∧ SameGuard (streamReply tag n ended s) s := by
  simp [streamReply]

@[simp] theorem streamRead_kept (tag : Byte) (wait : Bool) (s : State) :
    SameSizes (streamRead tag wait s) s ∧ SameGuard (streamRead tag wait s) s := by
  simp only [streamRead]
  (repeat' split) <;> simp

@[simp] theorem captureRead_kept (tag : Byte) (oldest : Bool) (s : State) :
    SameSizes (captureRead tag oldest s) s ∧ SameGuard (captureRead tag oldest s) s := by
  unfold captureRead
  (repeat' split) <;> simp

@[simp] theorem takeRecordRead_kept (tag flags : Byte) (s : State) :
    SameSizes (takeRecordRead tag flags s) s ∧ SameGuard (takeRecordRead tag flags s) s := by
  unfold takeRecordRead
  (repeat' split) <;> simp

@[simp] theorem findScan_kept (pos cmp : Nat) (want : Int) (ps : List Nat) (k : Nat) (s : State) :
    SameSizes (findScan pos cmp want ps k s).2 s ∧ SameGuard (findScan pos cmp want ps k s).2 s := by
  induction ps generalizing k s with
  | nil => simp [findScan]
  | cons i is ih =>
    simp only [findScan]
    (repeat' split) <;> simp [ih]

@[simp] theorem takeRecordFind_kept (tag pos cmp start : Byte) (value : BitVec 32) (s : State) :
    SameSizes (takeRecordFind tag pos cmp start value s) s ∧ SameGuard (takeRecordFind tag pos cmp start value s) s := by
  unfold takeRecordFind
  (repeat' split) <;> simp

@[simp] theorem findComplete_kept (s : State) :
    SameSizes (findComplete s) s ∧ SameGuard (findComplete s) s := by
  unfold findComplete
  (repeat' split) <;> simp

@[simp] theorem streamBlockReady_kept (s : State) :
    SameSizes (streamBlockReady s) s ∧ SameGuard (streamBlockReady s) s := by
  unfold streamBlockReady
  (repeat' split) <;> simp

@[simp] theorem recorderFrozen_kept (s : State) :
    SameSizes (recorderFrozen s) s ∧ SameGuard (recorderFrozen s) s := by
  unfold recorderFrozen
  (repeat' split) <;> simp

/-! ### Evaluation, allocation, retarding -/

@[simp] theorem captureHaul_kept (s : State) :
    SameSizes (captureHaul s) s ∧ SameGuard (captureHaul s) s := by
  unfold captureHaul
  (repeat' split) <;> simp

@[simp] theorem weighPayload_kept (s : State) :
    SameSizes (weighPayload s) s ∧ SameGuard (weighPayload s) s := by
  unfold weighPayload
  (repeat' split) <;> simp

@[simp] theorem dscRaise_sizes (severe : Bool) (s : State) :
    SameSizes (dscRaise severe s) s := by
  unfold dscRaise
  (repeat' split) <;> simp

@[simp] theorem raise_sizes (cause : TripCause) (s : State) :
    SameSizes (raise cause s) s := by
  unfold raise
  (repeat' split) <;> simp

@[simp] theorem createTrip_sizes (t : Trip) (s : State) :
    SameSizes (createTrip t s) s := by
  simp [createTrip]

@[simp] theorem updTrip_sizes (c : TripCause) (f : Trip → Trip) (s : State) :
    SameSizes (updTrip c f s) s := by
  simp [updTrip]

@[simp] theorem createOverflow_sizes (s : State) :
    SameSizes (createOverflow s) s := by
  simp [createOverflow]

@[simp] theorem joinPending_sizes (c : TripCause) (detail : Int) (s : State) :
    SameSizes (joinPending c detail s) s := by
  simp only [joinPending]
  (repeat' split) <;> simp

@[simp] theorem placePending_sizes (views : List TripView) (k : Nat) (s : State) :
    SameSizes (placePending views k s) s := by
  induction k generalizing s with
  | zero => simp [placePending]
  | succ k ih =>
    simp only [placePending]
    (repeat' split) <;> simp [ih]

@[simp] theorem takePending_sizes (views : List TripView) (s : State) :
    SameSizes (takePending views s) s := by
  simp only [takePending]
  (repeat' split) <;> simp

@[simp] theorem updateTrip_sizes (v : TripView) (s : State) :
    SameSizes (updateTrip v s) s := by
  unfold updateTrip
  (repeat' split) <;> simp

@[simp] theorem updateTrips_sizes (views : List TripView) (s : State) :
    SameSizes (updateTrips views s) s := by
  have h : ∀ (vs : List TripView) (t : State), SameSizes (vs.foldl (fun s v => updateTrip v s) t) t := by
    intro vs
    induction vs with
    | nil => simp
    | cons v vs ih =>
      intro t
      have := ih (updateTrip v t)
      simp_all
  have := h views (takePending views s)
  simp_all [updateTrips]

@[simp] theorem postEpu_kept (s : State) :
    SameSizes (postEpu s) s ∧ SameGuard (postEpu s) s := by
  simp [postEpu]

@[simp] theorem evalInputs_kept (old : List ImageEntry) (oldVspd : Quality) (imn : Option (Option Nat × Option Nat)) (s : State) :
    SameSizes (evalInputs old oldVspd imn s).2 s ∧ SameGuard (evalInputs old oldVspd imn s).2 s := by
  simp [evalInputs]

@[simp] theorem evaluateEpu_sizes (old : List ImageEntry) (oldVspd : Quality) (imn : Option (Option Nat × Option Nat)) (s : State) :
    SameSizes (evaluateEpu old oldVspd imn s) s := by
  simp [evaluateEpu]

@[simp] theorem clearTrips_sizes (tag : Byte) (which : TripCause → Bool) (s : State) :
    SameSizes (clearTrips tag which s) s := by
  simp [clearTrips]

@[simp] theorem takeTripClear_sizes (tag cause : Byte) (s : State) :
    SameSizes (takeTripClear tag cause s) s := by
  unfold takeTripClear
  (repeat' split) <;> simp

@[simp] theorem conditionCountReached_kept (c : CountedCond) (s : State) :
    SameSizes (conditionCountReached c s) s ∧ SameGuard (conditionCountReached c s) s := by
  simp only [conditionCountReached]
  (repeat' split) <;> simp

@[simp] theorem derateHoldExpiry_kept (c : DerateCause) (t : DerateTarget) (s : State) :
    SameSizes (derateHoldExpiry c t s) s ∧ SameGuard (derateHoldExpiry c t s) s := by
  unfold derateHoldExpiry
  (repeat' split) <;> simp

@[simp] theorem computeTal_kept (gov : Gov) (d : Demand) (p : EpuPosting) (s : State) :
    SameSizes (computeTal gov d p s) s ∧ SameGuard (computeTal gov d p s) s := by
  simp [computeTal]

@[simp] theorem postTal_kept (s : State) :
    SameSizes (postTal s) s ∧ SameGuard (postTal s) s := by
  unfold postTal
  (repeat' split) <;> simp

@[simp] theorem slipPersistSet_kept (side : Side) (s : State) :
    SameSizes (slipPersistSet side s) s ∧ SameGuard (slipPersistSet side s) s := by
  unfold slipPersistSet
  (repeat' split) <;> simp

@[simp] theorem computeRgv_kept (gov : Gov) (d : Demand) (p : EpuPosting) (s : State) :
    SameSizes (computeRgv gov d p s) s ∧ SameGuard (computeRgv gov d p s) s := by
  unfold computeRgv
  (repeat' split) <;> simp

@[simp] theorem postRgv_kept (s : State) :
    SameSizes (postRgv s) s ∧ SameGuard (postRgv s) s := by
  unfold postRgv
  (repeat' split) <;> simp

@[simp] theorem rgvInitial_kept (s : State) :
    SameSizes (rgvInitial s) s ∧ SameGuard (rgvInitial s) s := by
  simp [rgvInitial]

@[simp] theorem holdShortEntry_kept (s : State) :
    SameSizes (holdShortEntry s) s ∧ SameGuard (holdShortEntry s) s := by
  unfold holdShortEntry
  (repeat' split) <;> simp

@[simp] theorem holdShortExit_kept (s : State) :
    SameSizes (holdShortExit s) s ∧ SameGuard (holdShortExit s) s := by
  unfold holdShortExit
  (repeat' split) <;> simp

/-! ### The drive state controller and the loop -/

@[simp] theorem stopFrames_kept (s : State) :
    SameSizes (stopFrames s) s ∧ SameGuard (stopFrames s) s := by
  simp [stopFrames]

@[simp] theorem haltEffects_kept (s : State) :
    SameSizes (haltEffects s) s ∧ SameGuard (haltEffects s) s := by
  simp [haltEffects]

@[simp] theorem resetOutputs_kept (s : State) :
    SameSizes (resetOutputs s) s ∧ SameGuard (resetOutputs s) s := by
  simp [resetOutputs]

@[simp] theorem standbyEffects_kept (s : State) :
    SameSizes (standbyEffects s) s ∧ SameGuard (standbyEffects s) s := by
  simp [standbyEffects]

@[simp] theorem validateEntries_kept (is : List Nat) (s : State) :
    SameSizes (validateEntries is s).2 s ∧ SameGuard (validateEntries is s).2 s := by
  induction is generalizing s with
  | nil => simp [validateEntries]
  | cons i is ih =>
    simp only [validateEntries]
    (repeat' split) <;> simp [ih]

@[simp] theorem validate_kept (s : State) :
    SameSizes (validate s).2 s ∧ SameGuard (validate s).2 s := by
  have h := validateEntries_kept (List.range 64) s
  unfold validate
  split <;> simp_all

@[simp] theorem requestStandby_sizes (tag : Byte) (s : State) :
    SameSizes (requestStandby tag s) s := by
  have h := validate_kept s
  simp only [requestStandby]
  (repeat' split) <;> simp_all

@[simp] theorem requestDrive_sizes (tag : Byte) (s : State) :
    SameSizes (requestDrive tag s) s := by
  unfold requestDrive
  (repeat' split) <;> simp

@[simp] theorem clearRtr_kept (s : State) :
    SameSizes (clearRtr s) s ∧ SameGuard (clearRtr s) s := by
  simp [clearRtr]

@[simp] theorem requestRest_sizes (tag : Byte) (s : State) :
    SameSizes (requestRest tag s) s := by
  unfold requestRest
  (repeat' split) <;> simp

@[simp] theorem requestHalted_sizes (tag : Byte) (s : State) :
    SameSizes (requestHalted tag s) s := by
  simp [requestHalted]

@[simp] theorem takeModeRequest_sizes (tag target : Byte) (s : State) :
    SameSizes (takeModeRequest tag target s) s := by
  unfold takeModeRequest
  (repeat' split) <;> simp

@[simp] theorem takeDemand_kept (tag dir : Byte) (propel retard hold steer : BitVec 16) (brake : Byte) (s : State) :
    SameSizes (takeDemand tag dir propel retard hold steer brake s) s ∧ SameGuard (takeDemand tag dir propel retard hold steer brake s) s := by
  unfold takeDemand
  (repeat' split) <;> simp

@[simp] theorem demandExpiry_sizes (s : State) :
    SameSizes (demandExpiry s) s := by
  simp only [demandExpiry]
  (repeat' split) <;> simp

@[simp] theorem stopAssert_sizes (s : State) :
    SameSizes (stopAssert s) s := by
  simp only [stopAssert]
  (repeat' split) <;> simp

@[simp] theorem stopRelease_kept (s : State) :
    SameSizes (stopRelease s) s ∧ SameGuard (stopRelease s) s := by
  simp [stopRelease]

@[simp] theorem cancelInjections_kept (s : State) :
    SameSizes (cancelInjections s) s ∧ SameGuard (cancelInjections s) s := by
  simp [cancelInjections]

@[simp] theorem dscReset_sizes (s : State) :
    SameSizes (dscReset s) s := by
  unfold dscReset
  (repeat' split) <;> simp

@[simp] theorem blocksReset_sizes (s : State) :
    SameSizes (blocksReset s) s := by
  simp [blocksReset]

@[simp] theorem takeGovernorReset_sizes (tag : Byte) (s : State) :
    SameSizes (takeGovernorReset tag s) s := by
  simp [takeGovernorReset]

@[simp] theorem takeFullReset_kept (tag : Byte) (s : State) :
    SameSizes (takeFullReset tag s) s ∧ SameGuard (takeFullReset tag s) s := by
  simp [takeFullReset]

@[simp] theorem setLoop_kept (st : LoopState) (s : State) :
    SameSizes (setLoop st s) s ∧ SameGuard (setLoop st s) s := by
  simp [setLoop]

@[simp] theorem cleanIdleWord_kept (s : State) :
    SameSizes (cleanIdleWord s) s ∧ SameGuard (cleanIdleWord s) s := by
  unfold cleanIdleWord
  (repeat' split) <;> simp

@[simp] theorem uncleanWord_kept (w : RxWord) (s : State) :
    SameSizes (uncleanWord w s) s ∧ SameGuard (uncleanWord w s) s := by
  unfold uncleanWord
  (repeat' split) <;> simp

@[simp] theorem loopSyncReached_kept (s : State) :
    SameSizes (loopSyncReached s) s ∧ SameGuard (loopSyncReached s) s := by
  unfold loopSyncReached
  (repeat' split) <;> simp

@[simp] theorem stationMoved_sizes (addr : Nat) (before after : Station) (s : State) :
    SameSizes (stationMoved addr before after s) s := by
  unfold stationMoved
  (repeat' split) <;> simp

@[simp] theorem stationFailed_sizes (addr : Nat) (k : FailKind) (s : State) :
    SameSizes (stationFailed addr k s) s := by
  unfold stationFailed
  (repeat' split) <;> simp

@[simp] theorem applyDirectory_sizes (x : SlotEx) (o : ExOutcome) (s : State) :
    SameSizes (applyDirectory x o s) s := by
  unfold applyDirectory
  (repeat' split) <;> simp

@[simp] theorem countOutcome_kept (x : SlotEx) (o : ExOutcome) (s : State) :
    SameSizes (countOutcome x o s) s ∧ SameGuard (countOutcome x o s) s := by
  unfold countOutcome
  (repeat' split) <;> simp

@[simp] theorem scanEnd_kept (cause : Nat) (c : Scan) (s : State) :
    SameSizes (scanEnd cause c s) s ∧ SameGuard (scanEnd cause c s) s := by
  simp [scanEnd]

@[simp] theorem updScan_kept (f : Scan → Scan) (s : State) :
    SameSizes (updScan f s) s ∧ SameGuard (updScan f s) s := by
  simp [updScan]

@[simp] theorem probeEffect_kept (addr : Nat) (h : Heard) (s : State) :
    SameSizes (probeEffect addr h s) s ∧ SameGuard (probeEffect addr h s) s := by
  unfold probeEffect
  (repeat' split) <;> simp

@[simp] theorem scanProbe_kept (addr : Nat) (h : Heard) (s : State) :
    SameSizes (scanProbe addr h s) s ∧ SameGuard (scanProbe addr h s) s := by
  simp only [scanProbe]
  (repeat' split) <;> simp

@[simp] theorem takeLoopScan_kept (tag : Byte) (s : State) :
    SameSizes (takeLoopScan tag s) s ∧ SameGuard (takeLoopScan tag s) s := by
  unfold takeLoopScan
  (repeat' split) <;> simp

@[simp] theorem takeReinstate_kept (tag addr : Byte) (s : State) :
    SameSizes (takeReinstate tag addr s) s ∧ SameGuard (takeReinstate tag addr s) s := by
  simp only [takeReinstate]
  (repeat' split) <;> simp

@[simp] theorem probeDirectory_kept (addr : Nat) (h : Heard) (s : State) :
    SameSizes (probeDirectory addr h s) s ∧ SameGuard (probeDirectory addr h s) s := by
  unfold probeDirectory
  (repeat' split) <;> simp

@[simp] theorem reinstateOutcome_kept (addr : Nat) (h : Heard) (s : State) :
    SameSizes (reinstateOutcome addr h s) s ∧ SameGuard (reinstateOutcome addr h s) s := by
  simp [reinstateOutcome]

@[simp] theorem takeLoopExchange_kept (tag addr channel func size : Byte) (data : BitVec 32) (s : State) :
    SameSizes (takeLoopExchange tag addr channel func size data s) s ∧ SameGuard (takeLoopExchange tag addr channel func size data s) s := by
  simp only [takeLoopExchange]
  (repeat' split) <;> simp

@[simp] theorem tellClaimant_sizes (it : Item) (h : Heard) (s : State) :
    SameSizes (tellClaimant it h s) s := by
  unfold tellClaimant
  (repeat' split) <;> simp

@[simp] theorem finishHead_sizes (h : Heard) (s : State) :
    SameSizes (finishHead h s) s := by
  unfold finishHead
  (repeat' split) <;> simp

@[simp] theorem dropProbes_kept (s : State) :
    SameSizes (dropProbes s) s ∧ SameGuard (dropProbes s) s := by
  unfold dropProbes
  (repeat' split) <;> simp

@[simp] theorem streakReaches_sizes (st : StationState) (addr : Nat) (s : State) :
    SameSizes (streakReaches st addr s) s := by
  simp only [streakReaches]
  (repeat' split) <;> simp

@[simp] theorem becomeSuspect_sizes (addr : Nat) (s : State) : SameSizes (becomeSuspect addr s) s :=
  streakReaches_sizes .suspect addr s

@[simp] theorem becomeExcluded_sizes (addr : Nat) (s : State) : SameSizes (becomeExcluded addr s) s :=
  streakReaches_sizes .excluded addr s

/-! ### Passes -/

@[simp] theorem deliver_kept (i sig : Nat) (r : Result) (s : State) :
    SameSizes (deliver i sig r s) s ∧ SameGuard (deliver i sig r s) s := by
  simp [deliver]

@[simp] theorem missed_kept (i : Nat) (e : AcqEntry) (c : MissCause) (s : State) :
    SameSizes (missed i e c s) s ∧ SameGuard (missed i e c s) s := by
  unfold missed
  (repeat' split) <;> simp

@[simp] theorem skipEntry_kept (i : Nat) (e : AcqEntry) (c : MissCause) (s : State) :
    SameSizes (skipEntry i e c s) s ∧ SameGuard (skipEntry i e c s) s := by
  simp [skipEntry]

@[simp] theorem walk_kept (f : Func) (is : List Nat) (s : State) :
    SameSizes (walk f is s) s ∧ SameGuard (walk f is s) s := by
  induction is generalizing s with
  | nil => simp [walk]
  | cons i is ih =>
    simp only [walk]
    (repeat' split) <;> simp [ih]

@[simp] theorem skipAll_kept (f : Func) (c : MissCause) (is : List Nat) (s : State) :
    SameSizes (skipAll f c is s) s ∧ SameGuard (skipAll f c is s) s := by
  induction is generalizing s with
  | nil => simp [skipAll]
  | cons i is ih =>
    simp only [skipAll]
    (repeat' split) <;> simp [ih]

@[simp] theorem beginService_kept (s : State) :
    SameSizes (beginService s) s ∧ SameGuard (beginService s) s := by
  simp [beginService]

@[simp] theorem endIfOver_kept (s : State) :
    SameSizes (endIfOver s) s ∧ SameGuard (endIfOver s) s := by
  unfold endIfOver
  (repeat' split) <;> simp

@[simp] theorem advance_kept (s : State) :
    SameSizes (advance s) s ∧ SameGuard (advance s) s := by
  simp [advance]

@[simp] theorem beginAcq_kept (s : State) :
    SameSizes (beginAcq s) s ∧ SameGuard (beginAcq s) s := by
  simp [beginAcq]

@[simp] theorem beginDispatch_kept (s : State) :
    SameSizes (beginDispatch s) s ∧ SameGuard (beginDispatch s) s := by
  simp [beginDispatch]

@[simp] theorem runCorrupt_kept (r : Run) (s : State) :
    SameSizes (runCorrupt r s) s ∧ SameGuard (runCorrupt r s) s := by
  simp only [runCorrupt]
  (repeat' split) <;> simp

@[simp] theorem passCorrupt_kept (s : State) :
    SameSizes (passCorrupt s) s ∧ SameGuard (passCorrupt s) s := by
  unfold passCorrupt
  (repeat' split) <;> simp

@[simp] theorem budgetEnd_kept (s : State) :
    SameSizes (budgetEnd s) s ∧ SameGuard (budgetEnd s) s := by
  simp only [budgetEnd]
  (repeat' split) <;> simp

@[simp] theorem putExchange_kept (r : Run) (off : Nat) (claim : Claim) (data : Nat) (s : State) :
    SameSizes (putExchange r off claim data s) s ∧ SameGuard (putExchange r off claim data s) s := by
  simp [putExchange]

@[simp] theorem startRead_kept (r : Run) (off : Nat) (s : State) :
    SameSizes (startRead r off s) s ∧ SameGuard (startRead r off s) s := by
  simp [startRead]

@[simp] theorem startWrite_kept (r : Run) (off : Nat) (s : State) :
    SameSizes (startWrite r off s) s ∧ SameGuard (startWrite r off s) s := by
  simp only [startWrite]
  (repeat' split) <;> simp

@[simp] theorem runExcluded_kept (r : Run) (s : State) :
    SameSizes (runExcluded r s) s ∧ SameGuard (runExcluded r s) s := by
  unfold runExcluded
  (repeat' split) <;> simp

@[simp] theorem startPass_kept (n : Nat) (s : State) :
    SameSizes (startPass n s) s ∧ SameGuard (startPass n s) s := by
  induction n generalizing s with
  | zero => simp [startPass]
  | succ n ih =>
    simp only [startPass]
    (repeat' split) <;> simp [ih]

@[simp] theorem putHead_kept (it : Item) (its : List Item) (s : State) :
    SameSizes (putHead it its s) s ∧ SameGuard (putHead it its s) s := by
  simp [putHead]

@[simp] theorem serveHead_sizes (n : Nat) (s : State) :
    SameSizes (serveHead n s) s := by
  induction n generalizing s with
  | zero => simp [serveHead]
  | succ n ih =>
    simp only [serveHead]
    (repeat' split) <;> simp [ih]

@[simp] theorem endService_kept (s : State) :
    SameSizes (endService s) s ∧ SameGuard (endService s) s := by
  unfold endService
  (repeat' split) <;> simp

@[simp] theorem startProbe_kept (c : Scan) (s : State) :
    SameSizes (startProbe c s) s ∧ SameGuard (startProbe c s) s := by
  simp [startProbe]

@[simp] theorem startService_sizes (s : State) :
    SameSizes (startService s) s := by
  unfold startService
  (repeat' split) <;> simp

@[simp] theorem exchangeStart_sizes (s : State) :
    SameSizes (exchangeStart s) s := by
  unfold exchangeStart
  (repeat' split) <;> simp

@[simp] theorem endRun_kept (i : Nat) (e : AcqEntry) (x : Result) (s : State) :
    SameSizes (endRun i e x s) s ∧ SameGuard (endRun i e x s) s := by
  unfold endRun
  (repeat' split) <;> simp

@[simp] theorem acqOutcome_kept (i : Nat) (h : Heard) (s : State) :
    SameSizes (acqOutcome i h s) s ∧ SameGuard (acqOutcome i h s) s := by
  simp only [acqOutcome]
  (repeat' split) <;> simp

@[simp] theorem dispatchOutcome_kept (i : Nat) (s : State) :
    SameSizes (dispatchOutcome i s) s ∧ SameGuard (dispatchOutcome i s) s := by
  unfold dispatchOutcome
  (repeat' split) <;> simp

@[simp] theorem serviceOutcome_sizes (h : Heard) (s : State) :
    SameSizes (serviceOutcome h s) s := by
  unfold serviceOutcome
  (repeat' split) <;> simp

@[simp] theorem claimOutcome_sizes (x : SlotEx) (h : Heard) (s : State) :
    SameSizes (claimOutcome x h s) s := by
  unfold claimOutcome
  (repeat' split) <;> simp

@[simp] theorem settleReset_kept (x : SlotEx) (s : State) :
    SameSizes (settleReset x s) s ∧ SameGuard (settleReset x s) s := by
  unfold settleReset
  (repeat' split) <;> simp

@[simp] theorem complete_sizes (h : Heard) (s : State) :
    SameSizes (complete h s) s := by
  unfold complete
  (repeat' split) <;> simp

@[simp] theorem exchangeComplete_sizes (ws : List RxWord) (s : State) :
    SameSizes (exchangeComplete ws s) s := by
  unfold exchangeComplete
  (repeat' split) <;> simp

@[simp] theorem slotTimeout_sizes (s : State) :
    SameSizes (slotTimeout s) s := by
  simp [slotTimeout]

@[simp] theorem persistExhausted_sizes (s : State) :
    SameSizes (persistExhausted s) s := by
  unfold persistExhausted
  (repeat' split) <;> simp

@[simp] theorem loopDownSlot_sizes (s : State) :
    SameSizes (loopDownSlot s) s := by
  unfold loopDownSlot
  (repeat' split) <;> simp

@[simp] theorem loopDownRun_kept (s : State) :
    SameSizes (loopDownRun s) s ∧ SameGuard (loopDownRun s) s := by
  simp only [loopDownRun]
  (repeat' split) <;> simp

@[simp] theorem loopDownPasses_kept (s : State) :
    SameSizes (loopDownPasses s) s ∧ SameGuard (loopDownPasses s) s := by
  simp only [loopDownPasses]
  (repeat' split) <;> simp

@[simp] theorem loopDownScan_kept (s : State) :
    SameSizes (loopDownScan s) s ∧ SameGuard (loopDownScan s) s := by
  unfold loopDownScan
  (repeat' split) <;> simp

@[simp] theorem loopLoss_sizes (s : State) :
    SameSizes (loopLoss s) s := by
  simp [loopLoss]

@[simp] theorem edgeTimeout_sizes (s : State) :
    SameSizes (edgeTimeout s) s := by
  unfold edgeTimeout
  (repeat' split) <;> simp

@[simp] theorem endPasses_kept (s : State) :
    SameSizes (endPasses s) s ∧ SameGuard (endPasses s) s := by
  unfold endPasses
  (repeat' split) <;> simp

@[simp] theorem frameStart_kept (s : State) :
    SameSizes (frameStart s) s ∧ SameGuard (frameStart s) s := by
  simp only [frameStart]
  (repeat' split) <;> simp

@[simp] theorem budgetExhaustion_kept (s : State) :
    SameSizes (budgetExhaustion s) s ∧ SameGuard (budgetExhaustion s) s := by
  unfold budgetExhaustion
  (repeat' split) <;> simp

@[simp] theorem dispatchMark_kept (s : State) :
    SameSizes (dispatchMark s) s ∧ SameGuard (dispatchMark s) s := by
  unfold dispatchMark
  (repeat' split) <;> simp

@[simp] theorem heldItemJoin_kept (s : State) :
    SameSizes (heldItemJoin s) s ∧ SameGuard (heldItemJoin s) s := by
  simp [heldItemJoin]

/-! ### Publication, the host link, requests -/

@[simp] theorem postImn_kept (s : State) :
    SameSizes (postImn s) s ∧ SameGuard (postImn s) s := by
  simp [postImn]

@[simp] theorem outputPosting_kept (p : Producer) (s : State) :
    SameSizes (outputPosting p s) s ∧ SameGuard (outputPosting p s) s := by
  unfold outputPosting
  (repeat' split) <;> simp

@[simp] theorem takeStatusQuery_kept (tag : Byte) (s : State) :
    SameSizes (takeStatusQuery tag s) s ∧ SameGuard (takeStatusQuery tag s) s := by
  simp [takeStatusQuery]

@[simp] theorem takeSettingWrite_kept (tag id : Byte) (value : BitVec 32) (s : State) :
    SameSizes (takeSettingWrite tag id value s) s ∧ SameGuard (takeSettingWrite tag id value s) s := by
  simp only [takeSettingWrite]
  (repeat' split) <;> simp

@[simp] theorem takeSettingRead_kept (tag id : Byte) (s : State) :
    SameSizes (takeSettingRead tag id s) s ∧ SameGuard (takeSettingRead tag id s) s := by
  simp only [takeSettingRead]
  (repeat' split) <;> simp

@[simp] theorem takeTableCursor_kept (tag table : Byte) (index : BitVec 16) (mode : Byte) (s : State) :
    SameSizes (takeTableCursor tag table index mode s) s ∧ SameGuard (takeTableCursor tag table index mode s) s := by
  unfold takeTableCursor
  (repeat' split) <;> simp

@[simp] theorem readEntry_kept (table i : Nat) (s : State) :
    SameSizes (readEntry table i s).2 s ∧ SameGuard (readEntry table i s).2 s := by
  simp only [readEntry]
  (repeat' split) <;> simp

@[simp] theorem readEntries_kept (table : Nat) (is : List Nat) (s : State) :
    SameSizes (readEntries table is s).2 s ∧ SameGuard (readEntries table is s).2 s := by
  induction is generalizing s with
  | nil => simp [readEntries]
  | cons i is ih => simp [readEntries, ih]

@[simp] theorem takeTableRead_kept (tag count : Byte) (s : State) :
    SameSizes (takeTableRead tag count s) s ∧ SameGuard (takeTableRead tag count s) s := by
  simp only [takeTableRead]
  (repeat' split) <;> simp

@[simp] theorem takeFlagsRead_kept (tag : Byte) (s : State) :
    SameSizes (takeFlagsRead tag s) s ∧ SameGuard (takeFlagsRead tag s) s := by
  simp [takeFlagsRead]

@[simp] theorem takeCountsRead_kept (tag : Byte) (s : State) :
    SameSizes (takeCountsRead tag s) s ∧ SameGuard (takeCountsRead tag s) s := by
  simp [takeCountsRead]

@[simp] theorem takeProcResult_kept (tag proc : Byte) (s : State) :
    SameSizes (takeProcResult tag proc s) s ∧ SameGuard (takeProcResult tag proc s) s := by
  unfold takeProcResult
  (repeat' split) <;> simp

@[simp] theorem takeIntegrityRead_kept (tag mem flags : Byte) (s : State) :
    SameSizes (takeIntegrityRead tag mem flags s) s ∧ SameGuard (takeIntegrityRead tag mem flags s) s := by
  unfold takeIntegrityRead
  (repeat' split) <;> simp

@[simp] theorem takeIntegrityInject_kept (tag mem kind : Byte) (s : State) :
    SameSizes (takeIntegrityInject tag mem kind s) s ∧ SameGuard (takeIntegrityInject tag mem kind s) s := by
  unfold takeIntegrityInject
  (repeat' split) <;> simp

@[simp] theorem frameBad_kept (s : State) :
    SameSizes (frameBad s) s ∧ SameGuard (frameBad s) s := by
  simp [frameBad]

@[simp] theorem interByteGap_kept (s : State) :
    SameSizes (interByteGap s) s ∧ SameGuard (interByteGap s) s := by
  unfold interByteGap
  (repeat' split) <;> simp

@[simp] theorem flipStored_kept (m : Mem) (addr : Nat) (bits : List Nat) (s : State) :
    SameSizes (flipStored m addr bits s) s ∧ SameGuard (flipStored m addr bits s) s := by
  unfold flipStored
  (repeat' split) <;> simp

end Sys2Proof.Machine
end

