-- ==== Sys2Proof/Laws/Tables.lean ====
section
/-! SUPPORT. The tables keep their sizes (`TablesWhole`): one lemma for each operation that replaces a table or a part of one. -/

namespace Sys2Proof.Machine

theorem tablesWhole_of_sizes {t s : State} (h : SameSizes t s) (hs : TablesWhole s) : TablesWhole t := by
  simp_all [TablesWhole, State.sizes]

theorem screenSignals_length (old : List ImageEntry) (buf : List Delivery) (named : List ScreenEntry) (ids : List Nat)
    (s : State) : (screenSignals old buf named ids s).1.length = ids.length := by
  induction ids generalizing s with
  | nil => simp [screenSignals]
  | cons i is ih => simp [screenSignals, ih]

theorem publishImage_whole (old : List ImageEntry) (s : State) (h : TablesWhole s) :
    TablesWhole (publishImage old s) := by
  simp_all [TablesWhole, State.sizes, publishImage, screenSignals_length, inputIds]

@[simp] theorem publishImage_guard (old : List ImageEntry) (s : State) : SameGuard (publishImage old s) s := by
  simp [publishImage]

theorem computeBlocks_sizes (old : List ImageEntry) (q : Quality) (s : State) : SameSizes (computeBlocks old q s) s := by
  simp [computeBlocks]

theorem publish_whole (s : State) (h : TablesWhole s) : TablesWhole (publish s) := by
  simp only [publish]
  generalize hx : ({ s with hli.force := s.hli.stored } : State) = s0
  have h0 : TablesWhole s0 := by subst hx; exact h
  have h1 := tablesWhole_of_sizes (readImages_sizes inputIds s0) h0
  have h2 := tablesWhole_of_sizes (computeBlocks_sizes (readImages inputIds s0).1 s.sgs.vspd.quality _) (publishImage_whole (readImages inputIds s0).1 _ h1)
  split
  · exact tablesWhole_of_sizes (by simp) h2
  · exact tablesWhole_of_sizes (by simp) h2

theorem publication_whole (s : State) (h : TablesWhole s) : TablesWhole (publication s) := by
  unfold publication
  have h' : TablesWhole (if s.slc.phase = Phase.acq then budgetExhaustion s else s) := by
    split
    · exact tablesWhole_of_sizes (by simp) h
    · exact h
  show TablesWhole (if (if s.slc.phase = Phase.acq then budgetExhaustion s else s).slc.phase = .acqEnded then
    publish (if s.slc.phase = Phase.acq then budgetExhaustion s else s) else _)
  generalize (if s.slc.phase = Phase.acq then budgetExhaustion s else s) = u at *
  split
  · exact publish_whole _ h'
  · exact h'

theorem splice_length (t : List α) (i : Nat) (es : List α) (h : i + es.length ≤ t.length) :
    (splice t i es).length = t.length := by
  simp [splice]; omega

theorem chunks_length (n k : Nat) (d : List Byte) : (chunks n k d).length = k := by
  induction k generalizing d with
  | zero => simp [chunks]
  | succ k ih => simp [chunks, ih]

theorem writeTable_whole {table i : Nat} {es : List (List Byte)} {s t : State} (hs : TablesWhole s)
    (ht : table ≤ 3) (hb : i + es.length ≤ tableSize table) (h : writeTable table i es s = .ok t) :
    TablesWhole t := by
  simp only [TablesWhole, State.sizes, Prod.mk.injEq] at hs
  obtain ⟨h1, h2, h3, h4⟩ := hs
  unfold writeTable at h
  split at h
  · simp only [writeAcq] at h
    (repeat' split at h) <;> try contradiction
    all_goals
      cases h
      simp_all [TablesWhole, State.sizes]
      rw [splice_length _ _ _ (by simp [tableSize] at *; omega)]; assumption
  · simp only [writeScreen] at h
    (repeat' split at h) <;> try contradiction
    all_goals
      cases h
      simp_all [TablesWhole, State.sizes]
      rw [splice_length _ _ _ (by simp [tableSize] at *; omega)]; assumption
  · simp only [writeRecset] at h
    (repeat' split at h) <;> try contradiction
    all_goals
      cases h
      simp_all [TablesWhole, State.sizes, emptyRing]
      rw [splice_length _ _ _ (by
        have : tableSize table ≤ 12 := by
          rcases (by omega : table = 0 ∨ table = 3) with h | h <;> simp [h, tableSize]
        simp; omega)]; assumption


theorem takeTableWrite_whole (tag : Byte) (d : List Byte) (s : State) (h : TablesWhole s) :
    TablesWhole (takeTableWrite tag d s) := by
  simp only [takeTableWrite]
  (repeat' split)
  · exact tablesWhole_of_sizes (by simp) h
  · exact tablesWhole_of_sizes (by simp) h
  · exact tablesWhole_of_sizes (by simp) h
  · exact tablesWhole_of_sizes (by simp) h
  · rename_i h3 hb _ t hw
    have := writeTable_whole h (by omega) (by rw [chunks_length]; omega) hw
    exact tablesWhole_of_sizes (by simp) this

theorem initial_whole (a b : Bool) (p : List Instr) : TablesWhole (State.initial a b p) := by
  simp only [TablesWhole, State.sizes, State.initial]
  decide

theorem fullResetTo_whole (a b : Bool) (s : State) : TablesWhole (fullResetTo a b s) := by
  simp only [fullResetTo]
  split
  · exact initial_whole _ _ _
  · exact tablesWhole_of_sizes (by simp) (initial_whole a b s.pending)

theorem take_whole (c : Instr) (s : State) (h : TablesWhole s) : TablesWhole (take c s) := by
  unfold take
  split
  case h_7 => exact takeTableWrite_whole _ _ _ h
  all_goals exact tablesWhole_of_sizes (by simp) h

theorem runFrame_whole (f : Frame) (s : State) (h : TablesWhole s) : TablesWhole (runFrame f s) := by
  unfold runFrame
  split
  · exact tablesWhole_of_sizes (by simp) h
  · exact take_whole _ _ h

theorem drain_whole (n : Nat) (s : State) (h : TablesWhole s) : TablesWhole (drain n s) := by
  induction n generalizing s with
  | zero => simpa [drain]
  | succ n ih =>
    simp only [drain]
    (repeat' split)
    · exact h
    · exact h
    · exact ih _ (runFrame_whole _ _ (tablesWhole_of_sizes (by simp) h))
    · exact h

theorem submit_whole (f : Frame) (s : State) (h : TablesWhole s) : TablesWhole (submit f s) := by
  unfold submit drainAll
  split
  · exact drain_whole _ _ (tablesWhole_of_sizes (by simp) h)
  · exact tablesWhole_of_sizes (by simp) h

theorem receiveByte_whole (b : Byte) (s : State) (h : TablesWhole s) : TablesWhole (receiveByte b s) := by
  simp only [receiveByte, frameDone]
  (repeat' split)
  · exact tablesWhole_of_sizes (by simp) h
  · exact h
  · exact tablesWhole_of_sizes (by simp) h
  · exact submit_whole _ _ (tablesWhole_of_sizes (by simp) h)
  · exact tablesWhole_of_sizes (by simp) h
  · exact tablesWhole_of_sizes (by simp) h

theorem receiveBytes_whole (bs : List Byte) (s : State) (h : TablesWhole s) : TablesWhole (receiveBytes bs s) := by
  unfold receiveBytes
  induction bs generalizing s with
  | nil => exact h
  | cons b bs ih => exact ih _ (receiveByte_whole b s h)

theorem messageSent_whole (s : State) (h : TablesWhole s) : TablesWhole (messageSent s) := by
  simp only [messageSent, drainAll]
  (repeat' split)
  · exact h
  · exact h
  all_goals exact drain_whole _ _ (tablesWhole_of_sizes (by simp) h)

theorem request_whole (c : Instr) (s : State) (h : TablesWhole s) : TablesWhole (request c s) := by
  unfold request
  split
  · exact submit_whole _ _ h
  · exact h

theorem live_whole {f : State → State} {s t : State} (hf : TablesWhole s → TablesWhole (f s)) (hs : TablesWhole s)
    (h : live f s = .next t) : TablesWhole t := by
  simp only [live] at h
  cases h
  split
  · exact hs
  · exact hf hs

end Sys2Proof.Machine
end

