-- ==== Sys2Proof/Laws/Drive.lean ====
section
/-! SUPPORT. DRIVE stays safe (`DriveSafe`): one lemma for each operation that moves the governing state, the trip list or the
steering supply check. -/

namespace Sys2Proof.Machine

theorem safe_of_guard {t s : State} (h : SameGuard t s) (hs : DriveSafe s) : DriveSafe t := by
  obtain ⟨h1, h2, h3, h4⟩ := h
  intro hg
  have := hs (h1 ▸ hg)
  simpa [severeHeld, h2, h3, h4] using this

theorem safe_of_notDrive {t : State} (h : t.dsc.gov ≠ .drive) : DriveSafe t := fun hg => absurd hg h

@[simp] theorem readImages_guard (ids : List Nat) (s : State) : SameGuard (readImages ids s).2 s := by
  simp

/-! ### The steering supply check -/

/-- An event that changes nothing with no run in progress, and keeps the governing state, keeps DRIVE safe. -/
theorem safe_of_idle {t s : State} (hg : t.dsc.gov = s.dsc.gov) (hi : s.sgv.run = none → t = s) (hs : DriveSafe s) :
    DriveSafe t := by
  by_cases h : s.sgv.run = none
  · rw [hi h]; exact hs
  · intro hd; exact absurd (hs (hg ▸ hd)).2.2 h

theorem steerAbort_safe (c : ProcCause) (s : State) (h : DriveSafe s) : DriveSafe (steerAbort c s) :=
  safe_of_idle (by simp) (fun e => (steer_idle e).1 c) h

theorem steerOutcome_safe (o : ExOutcome) (s : State) (h : DriveSafe s) : DriveSafe (steerOutcome o s) :=
  safe_of_idle (by simp) (fun e => (steer_idle e).2.1 o) h

theorem steerStationExcluded_safe (a : Nat) (s : State) (h : DriveSafe s) : DriveSafe (steerStationExcluded a s) :=
  safe_of_idle (by simp) (fun e => (steer_idle e).2.2.1 a) h

theorem steerReset_safe (s : State) (h : DriveSafe s) : DriveSafe (steerReset s) :=
  safe_of_idle (by simp) (fun e => (steer_idle e).2.2.2.1) h

theorem steerWatch_safe (a : ImageEntry) (s : State) (h : DriveSafe s) : DriveSafe (steerWatch a s) :=
  safe_of_idle (by simp) (fun e => (steer_idle e).2.2.2.2.1 a) h

theorem steerWatchEnd_gov (s : State) : (steerWatchEnd s).dsc.gov = s.dsc.gov := by
  simp only [steerWatchEnd, watchEnd]
  (repeat' split) <;> simp

theorem steerWatchEnd_safe (s : State) (h : DriveSafe s) : DriveSafe (steerWatchEnd s) :=
  safe_of_idle (steerWatchEnd_gov s) (fun e => (steer_idle e).2.2.2.2.2) h

theorem computeSgv_safe (g : Gov) (t r : Int) (s : State) (h : DriveSafe s) : DriveSafe (computeSgv g t r s) := by
  simp only [computeSgv]
  apply steerWatch_safe
  apply safe_of_guard (s := s) _ h
  simp [accStep, supplyStep, trackCompute, trackStep]
  constructor <;> (repeat' split) <;> simp

theorem takeSteerCheckStart_safe (tag : Byte) (s : State) (h : DriveSafe s) : DriveSafe (takeSteerCheckStart tag s) := by
  by_cases hg : s.dsc.gov = .drive
  · apply safe_of_guard _ h
    simp [takeSteerCheckStart, hg]
  · apply safe_of_notDrive
    have : (takeSteerCheckStart tag s).dsc = s.dsc := by
      simp only [takeSteerCheckStart]
      (repeat' split) <;> simp
    rwa [this]

/-! ### Raises -/

@[simp] theorem recorderRaise_frame (c : TripCause) (v : Bool) (n : Nat) (s : State) :
    OnlyTrcHli (recorderRaise c v n s) s := by
  simp only [recorderRaise, freeze]
  (repeat' split) <;> simp

theorem dscRaise_dsc (v : Bool) (s : State) :
    (dscRaise v s).dsc = { s.dsc with gov := if v = true ∧ s.dsc.gov = .drive then .safeHold else s.dsc.gov } := by
  unfold dscRaise
  split <;> simp_all

@[simp] theorem dscRaise_frame (v : Bool) (s : State) : OnlyDscHli (dscRaise v s) s := by
  unfold dscRaise
  split <;> simp

/-- Everything a raise does to what the DRIVE invariant reads. -/
theorem raise_dsc (c : TripCause) (s : State) :
    (raise c s).dsc = { s.dsc with gov := if tripSevere c = true ∧ s.dsc.gov = .drive then .safeHold else s.dsc.gov }
      ∧ (raise c s).epu = s.epu ∧ (c ≠ .steerSupply → (raise c s).sgv = s.sgv) := by
  simp only [raise]
  refine ⟨?_, ?_, ?_⟩
  · split <;> simp [dscRaise_dsc]
  · split <;> simp
  · intro h; simp [h]

theorem raise_safe (c : TripCause) (s : State)
    (h : s.dsc.gov = .drive → (tripSevere c = false → severeHeld s = false) ∧ s.sgv.result.outcome = .pass ∧ s.sgv.run = none) :
    DriveSafe (raise c s) := by
  obtain ⟨h1, h2, h3⟩ := raise_dsc c s
  intro hg
  rw [h1] at hg
  by_cases hs : tripSevere c = true
  · exfalso; revert hg; simp only [hs]; by_cases hd : s.dsc.gov = .drive <;> simp [hd]
  · have hd : s.dsc.gov = .drive := by simpa [hs] using hg
    have hc : c ≠ .steerSupply := by rintro rfl; simp [tripSevere] at hs
    obtain ⟨a, b, d⟩ := h hd
    rw [h3 hc, severeHeld, h2]
    exact ⟨a (by simpa using hs), b, d⟩

theorem createTrip_safe (t : Trip) (s : State) (ht : tripSevere t.cause = false → t.severe = false) (h : DriveSafe s) :
    DriveSafe (createTrip t s) := by
  apply raise_safe
  intro hg
  obtain ⟨a, b, c⟩ := h hg
  refine ⟨fun hc => ?_, b, c⟩
  simp_all [severeHeld]

theorem updTrip_safe (c : TripCause) (f : Trip → Trip) (s : State) (hf : ∀ t, (f t).severe = t.severe) (h : DriveSafe s) :
    DriveSafe (updTrip c f s) := by
  intro hg
  obtain ⟨a, b, d⟩ := h hg
  refine ⟨?_, b, d⟩
  simp only [severeHeld, updTrip, List.any_map] at *
  rw [← a]
  congr 1
  funext t
  simp only [Function.comp]
  split <;> simp [hf]

theorem createOverflow_safe (s : State) (h : DriveSafe s) : DriveSafe (createOverflow s) :=
  createTrip_safe _ s (by simp [tripSevere]) h

theorem joinPending_safe (c : TripCause) (d : Int) (s : State) (h : DriveSafe s) : DriveSafe (joinPending c d s) := by
  simp only [joinPending]
  split
  · exact updTrip_safe _ _ _ (by simp) h
  · exact createOverflow_safe _ h

theorem placePending_safe (vs : List TripView) (k : Nat) (s : State) (h : DriveSafe s) : DriveSafe (placePending vs k s) := by
  induction k generalizing s with
  | zero => simpa [placePending]
  | succ k ih =>
    simp only [placePending]
    (repeat' split)
    · exact h
    · exact ih _ (createTrip_safe _ _ (by simp) h)
    · exact h

theorem takePending_safe (vs : List TripView) (s : State) (h : DriveSafe s) : DriveSafe (takePending vs s) := by
  have := placePending_safe vs s.epu.pendingSet.length s h
  simp only [takePending]
  split
  · exact createOverflow_safe _ this
  · exact this

theorem updateTrip_safe (v : TripView) (s : State) (h : DriveSafe s) : DriveSafe (updateTrip v s) := by
  simp only [updateTrip]
  (repeat' split)
  · exact createTrip_safe _ _ (by simp) h
  · exact joinPending_safe _ _ _ h
  · exact h
  · apply raise_safe
    intro hg
    obtain ⟨a, b, c⟩ := updTrip_safe v.cause (fun t =>
      { t with clearable := false, recurrences := satSucc 255 t.recurrences, last := s.slc.frameNo, detail := v.detail }) s (by simp) h hg
    exact ⟨fun _ => a, b, c⟩
  · exact updTrip_safe _ _ _ (by simp) h
  · exact updTrip_safe _ _ _ (by simp) h

theorem updateTrips_safe (vs : List TripView) (s : State) (h : DriveSafe s) : DriveSafe (updateTrips vs s) := by
  unfold updateTrips
  have h' := takePending_safe vs s h
  generalize takePending vs s = u at *
  induction vs generalizing u with
  | nil => exact h'
  | cons v vs ih => exact ih _ (updateTrip_safe v _ h')

theorem evaluateEpu_safe (old : List ImageEntry) (q : Quality) (i : Option (Option Nat × Option Nat)) (s : State)
    (h : DriveSafe s) : DriveSafe (evaluateEpu old q i s) := by
  simp only [evaluateEpu]
  refine safe_of_guard (postEpu_kept _).2 (updateTrips_safe _ _ ?_)
  exact safe_of_guard (by simp) h

theorem clearTrips_safe (tag : Byte) (w : TripCause → Bool) (s : State) (h : DriveSafe s) : DriveSafe (clearTrips tag w s) := by
  simp only [clearTrips]
  intro hg
  obtain ⟨a, b, c⟩ := h (by simpa using hg)
  refine ⟨?_, by simpa using b, by simpa using c⟩
  simp_all [severeHeld]

theorem takeTripClear_safe (tag c : Byte) (s : State) (h : DriveSafe s) : DriveSafe (takeTripClear tag c s) := by
  simp only [takeTripClear]
  (repeat' split)
  · exact clearTrips_safe _ _ _ h
  · exact safe_of_guard (by simp) h
  · exact clearTrips_safe _ _ _ h

/-! ### The Drive State Controller -/

theorem fullResetTo_safe (a b : Bool) (s : State) : DriveSafe (fullResetTo a b s) := by
  apply safe_of_notDrive
  simp only [fullResetTo]
  split <;> simp [State.initial, Dsc.initial]

theorem fullResetEffect_safe (s : State) (h : DriveSafe s) : DriveSafe (fullResetEffect s) := by
  unfold fullResetEffect
  split
  · exact fullResetTo_safe _ _ _
  · exact h

theorem requestStandby_safe (tag : Byte) (s : State) (h : DriveSafe s) : DriveSafe (requestStandby tag s) := by
  have hv := validate_kept s
  simp only [requestStandby]
  (repeat' split)
  · exact safe_of_guard (by simp) h
  · exact safe_of_guard (by simp) h
  · exact safe_of_guard (by simp) h
  · rename_i hh; rw [hh] at hv; exact safe_of_guard (by simp_all) h
  · exact safe_of_notDrive (by simp)

theorem requestDrive_safe (tag : Byte) (s : State) (h : DriveSafe s) : DriveSafe (requestDrive tag s) := by
  simp only [requestDrive]
  split
  · exact safe_of_guard (by simp) h
  · rename_i hd
    intro _
    have hr : s.sgv.run = none := by
      cases hr : s.sgv.run with
      | none => rfl
      | some r => exfalso; revert hd; cases hc : s.rgv.check.run <;> (simp only [driveFailure, procRunning, hr, hc]; (repeat' split) <;> simp_all)
    simp only [driveFailure, procRunning] at hd
    repeat' split at hd
    all_goals try contradiction
    simp_all [severeHeld]

theorem requestRest_safe (tag : Byte) (s : State) (h : DriveSafe s) : DriveSafe (requestRest tag s) := by
  simp only [requestRest]
  split
  · exact safe_of_notDrive (by simp)
  · exact safe_of_guard (by simp) h

theorem requestHalted_safe (tag : Byte) (s : State) : DriveSafe (requestHalted tag s) := by
  simp only [requestHalted]
  exact safe_of_notDrive (by simp)

theorem takeModeRequest_safe (tag target : Byte) (s : State) (h : DriveSafe s) : DriveSafe (takeModeRequest tag target s) := by
  simp only [takeModeRequest]
  (repeat' split)
  · exact safe_of_guard (by simp) h
  · exact safe_of_guard (by simp) h
  · exact requestStandby_safe _ _ h
  · exact requestDrive_safe _ _ h
  · exact requestRest_safe _ _ h
  · exact requestRest_safe _ _ h
  · exact requestHalted_safe _ _
  · exact safe_of_guard (by simp) h

theorem demandExpiry_safe (s : State) (h : DriveSafe s) : DriveSafe (demandExpiry s) := by
  simp only [demandExpiry]
  (repeat' split)
  · exact safe_of_notDrive (by simp)
  all_goals exact safe_of_guard (by simp) h

theorem stopAssert_safe (s : State) (h : DriveSafe s) : DriveSafe (stopAssert s) := by
  simp only [stopAssert]
  split
  · exact safe_of_notDrive (by simp)
  · rename_i hg; exact safe_of_notDrive (by simp [hg])
  · exact safe_of_guard (by simp) h
  · exact safe_of_guard (by simp) h

theorem takeGovernorReset_safe (tag : Byte) (s : State) : DriveSafe (takeGovernorReset tag s) := by
  apply safe_of_notDrive
  have : ∀ t, (dscReset t).dsc.gov = .halted := by
    intro t; simp only [dscReset]; split <;> simp_all
  simp [takeGovernorReset, blocksReset, this]

/-! ### The loop and the service queue -/

theorem stationMoved_safe (a : Nat) (b c : Station) (s : State) (h : DriveSafe s) : DriveSafe (stationMoved a b c s) := by
  simp only [stationMoved]
  (repeat' split)
  · exact h
  · exact safe_of_guard (by simp) h
  · exact steerStationExcluded_safe _ _ (safe_of_guard (by simp) h)
  · exact h

theorem stationFailed_safe (a : Nat) (k : FailKind) (s : State) (h : DriveSafe s) : DriveSafe (stationFailed a k s) := by
  simp only [stationFailed]
  split
  · exact h
  · exact stationMoved_safe _ _ _ _ (safe_of_guard (by simp) h)

theorem applyDirectory_safe (x : SlotEx) (o : ExOutcome) (s : State) (h : DriveSafe s) : DriveSafe (applyDirectory x o s) := by
  simp only [applyDirectory]
  (repeat' split)
  · exact h
  · exact stationFailed_safe _ _ _ h
  · exact safe_of_guard (by simp) h
  · exact safe_of_guard (by simp) h
  · exact h

theorem streakReaches_safe (st : StationState) (a : Nat) (s : State) (h : DriveSafe s) :
    DriveSafe (streakReaches st a s) := by
  simp only [streakReaches]
  (repeat' split)
  · exact h
  · exact stationMoved_safe _ _ _ _ (safe_of_guard (by simp) h)
  · exact h

theorem tellClaimant_safe (it : Item) (hd : Heard) (s : State) (h : DriveSafe s) : DriveSafe (tellClaimant it hd s) := by
  simp only [tellClaimant]
  (repeat' split)
  · exact h
  · exact safe_of_guard (by simp) h
  · exact steerOutcome_safe _ _ h
  · exact safe_of_guard (by simp) h
  · exact safe_of_guard (by simp) h

theorem finishHead_safe (hd : Heard) (s : State) (h : DriveSafe s) : DriveSafe (finishHead hd s) := by
  simp only [finishHead]
  split
  · exact h
  · exact tellClaimant_safe _ _ _ (safe_of_guard (by simp) h)

theorem serveHead_safe (n : Nat) (s : State) (h : DriveSafe s) : DriveSafe (serveHead n s) := by
  induction n generalizing s with
  | zero => simpa [serveHead]
  | succ n ih =>
    simp only [serveHead]
    (repeat' split)
    · exact h
    · exact ih _ (finishHead_safe _ _ h)
    · exact safe_of_guard (by simp) h

theorem startService_safe (s : State) (h : DriveSafe s) : DriveSafe (startService s) := by
  unfold startService
  split
  · exact safe_of_guard (by simp) (serveHead_safe 32 s h)
  · exact h

theorem exchangeStart_safe (s : State) (h : DriveSafe s) : DriveSafe (exchangeStart s) := by
  unfold exchangeStart
  (repeat' split)
  · exact h
  · exact safe_of_guard (by simp) h
  · exact serveHead_safe _ _ h
  · exact safe_of_guard (by simp) h
  · exact startService_safe _ (safe_of_guard (by simp) h)
  · exact startService_safe _ h
  · exact h

theorem serviceOutcome_safe (hd : Heard) (s : State) (h : DriveSafe s) : DriveSafe (serviceOutcome hd s) := by
  simp only [serviceOutcome]
  split
  · exact h
  · refine safe_of_guard (endService_kept _).2 ?_
    split
    · exact safe_of_guard (by simp) h
    · exact finishHead_safe _ _ h

theorem claimOutcome_safe (x : SlotEx) (hd : Heard) (s : State) (h : DriveSafe s) : DriveSafe (claimOutcome x hd s) := by
  unfold claimOutcome
  split
  · exact safe_of_guard (by simp) h
  · exact safe_of_guard (by simp) h
  · exact serviceOutcome_safe _ _ h
  · exact safe_of_guard (by simp) h
  · exact safe_of_guard (by simp) h
  · exact h

theorem complete_safe (hd : Heard) (s : State) (h : DriveSafe s) : DriveSafe (complete hd s) := by
  simp only [complete]
  split
  · exact h
  · refine safe_of_guard (settleReset_kept _ _).2 (claimOutcome_safe _ _ _ ?_)
    rename_i x _
    have := applyDirectory_safe x hd.outcome s h
    exact safe_of_guard (by simp) this

theorem exchangeComplete_safe (ws : List RxWord) (s : State) (h : DriveSafe s) : DriveSafe (exchangeComplete ws s) := by
  unfold exchangeComplete
  (repeat' split)
  · exact h
  · exact h
  · exact complete_safe _ _ h

theorem persistExhausted_safe (s : State) (h : DriveSafe s) : DriveSafe (persistExhausted s) := by
  unfold persistExhausted
  split
  · exact complete_safe _ _ h
  · exact h

theorem loopDownSlot_safe (s : State) (h : DriveSafe s) : DriveSafe (loopDownSlot s) := by
  simp only [loopDownSlot]
  split
  · exact h
  · refine safe_of_guard (settleReset_kept _ _).2 ?_
    (repeat' split)
    · exact safe_of_guard (by simp) h
    · exact h
    · exact h
    · exact finishHead_safe _ _ h
    · exact h

theorem edgeTimeout_safe (s : State) (h : DriveSafe s) : DriveSafe (edgeTimeout s) := by
  simp only [edgeTimeout, loopLoss]
  split
  · exact h
  · exact safe_of_guard (by simp) h
  · have h0 := safe_of_guard (t := latch .loopWasDown (setLoop .down s)) (by simp) h
    exact safe_of_guard (by simp) (loopDownSlot_safe _ (steerAbort_safe .loopDown _ h0))

theorem computeBlocks_safe (old : List ImageEntry) (q : Quality) (s : State) (h : DriveSafe s) :
    DriveSafe (computeBlocks old q s) := by
  simp only [computeBlocks]
  refine computeSgv_safe _ _ _ _ (safe_of_guard (computeRgv_kept _ _ _ _).2 (safe_of_guard (computeTal_kept _ _ _ _).2 ?_))
  exact evaluateEpu_safe _ _ _ _ (safe_of_guard (by simp) h)

theorem publish_safe (s : State) (h : DriveSafe s) : DriveSafe (publish s) := by
  simp only [publish]
  generalize hx : ({ s with hli.force := s.hli.stored } : State) = s0
  have h0 : DriveSafe s0 := by subst hx; exact h
  have h1 := safe_of_guard (readImages_guard inputIds s0) h0
  have h2 := computeBlocks_safe (readImages inputIds s0).1 s.sgs.vspd.quality _
    (safe_of_guard (publishImage_guard (readImages inputIds s0).1 _) h1)
  split
  · exact safe_of_guard (by simp) h2
  · exact safe_of_guard (by simp) h2

theorem publication_safe (s : State) (h : DriveSafe s) : DriveSafe (publication s) := by
  unfold publication
  have h' : DriveSafe (if s.slc.phase = Phase.acq then budgetExhaustion s else s) := by
    split
    · exact safe_of_guard (by simp) h
    · exact h
  show DriveSafe (if (if s.slc.phase = Phase.acq then budgetExhaustion s else s).slc.phase = .acqEnded then
    publish (if s.slc.phase = Phase.acq then budgetExhaustion s else s) else _)
  generalize (if s.slc.phase = Phase.acq then budgetExhaustion s else s) = u at *
  split
  · exact publish_safe _ h'
  · exact h'

/-! ### Requests -/

theorem writeTable_guard {table i : Nat} {es : List (List Byte)} {s t : State} (h : writeTable table i es s = .ok t) :
    SameGuard t s := by
  unfold writeTable at h
  split at h
  · simp only [writeAcq] at h
    (repeat' split at h) <;> try contradiction
    all_goals cases h; simp
  · simp only [writeScreen] at h
    (repeat' split at h) <;> try contradiction
    all_goals cases h; simp
  · simp only [writeRecset] at h
    (repeat' split at h) <;> try contradiction
    all_goals cases h; simp

theorem takeTableWrite_guard (tag : Byte) (d : List Byte) (s : State) : SameGuard (takeTableWrite tag d s) s := by
  simp only [takeTableWrite]
  (repeat' split) <;> try simp
  rename_i hw
  simpa using writeTable_guard hw

theorem take_safe (c : Instr) (s : State) (h : DriveSafe s) : DriveSafe (take c s) := by
  unfold take
  split
  case h_2 => exact takeModeRequest_safe _ _ _ h
  case h_7 => exact safe_of_guard (takeTableWrite_guard _ _ _) h
  case h_12 => exact takeTripClear_safe _ _ _ h
  case h_18 => exact takeSteerCheckStart_safe _ _ h
  case h_27 => exact takeGovernorReset_safe _ _
  all_goals exact safe_of_guard (by simp) h

theorem runFrame_safe (f : Frame) (s : State) (h : DriveSafe s) : DriveSafe (runFrame f s) := by
  unfold runFrame
  split
  · exact safe_of_guard (by simp) h
  · exact take_safe _ _ h

theorem drain_safe (n : Nat) (s : State) (h : DriveSafe s) : DriveSafe (drain n s) := by
  induction n generalizing s with
  | zero => simpa [drain]
  | succ n ih =>
    simp only [drain]
    (repeat' split)
    · exact h
    · exact h
    · exact ih _ (runFrame_safe _ _ (safe_of_guard (by simp) h))
    · exact h

theorem submit_safe (f : Frame) (s : State) (h : DriveSafe s) : DriveSafe (submit f s) := by
  unfold submit drainAll
  split
  · exact drain_safe _ _ (safe_of_guard (by simp) h)
  · exact safe_of_guard (by simp) h

theorem receiveByte_safe (b : Byte) (s : State) (h : DriveSafe s) : DriveSafe (receiveByte b s) := by
  simp only [receiveByte, frameDone]
  (repeat' split)
  · exact safe_of_guard (by simp) h
  · exact h
  · exact safe_of_guard (by simp) h
  · exact submit_safe _ _ (safe_of_guard (by simp) h)
  · exact safe_of_guard (by simp) h
  · exact safe_of_guard (by simp) h

theorem receiveBytes_safe (bs : List Byte) (s : State) (h : DriveSafe s) : DriveSafe (receiveBytes bs s) := by
  unfold receiveBytes
  induction bs generalizing s with
  | nil => exact h
  | cons b bs ih => exact ih _ (receiveByte_safe b s h)

theorem messageSent_safe (s : State) (h : DriveSafe s) : DriveSafe (messageSent s) := by
  simp only [messageSent, drainAll]
  (repeat' split)
  · exact h
  · exact h
  all_goals exact drain_safe _ _ (safe_of_guard (by simp) h)

theorem request_safe (c : Instr) (s : State) (h : DriveSafe s) : DriveSafe (request c s) := by
  unfold request
  split
  · exact submit_safe _ _ h
  · exact h

theorem live_safe {f : State → State} {s t : State} (hf : DriveSafe s → DriveSafe (f s)) (hs : DriveSafe s)
    (h : live f s = .next t) : DriveSafe t := by
  simp only [live] at h
  cases h
  split
  · exact hs
  · exact hf hs

end Sys2Proof.Machine
end

