-- ==== Sys2Proof/Laws/Host.lean ====
section
/-! SUPPORT. How a host request reaches its owner: a request's arm is its frame submitted, and a frame submitted while the HLI
can take it is run at once; a multi-byte field read back from its bytes is the field. -/

namespace Sys2Proof.Machine

/-- Every row that has a frame is that frame submitted. -/
theorem exec_request {c : Instr} {f : Frame} (hf : frameOf c = some f) (s : State) :
    exec c s = live (request c) s := by
  cases c <;> first | rfl | (simp [frameOf] at hf)

/-- With no reply to a deferred request unsent, no frame waits for one. -/
theorem frameWaits_of_sent {s : State} (h : deferredUnsent s = false) (f : Frame) : frameWaits f s = false := by
  simp [frameWaits, h]

/-- A request that does not ask for the deferred slot waits for no reply to a deferred request. -/
theorem frameWaits_of_ok {c : Instr} {f : Frame} (h : requestOf f = .ok c) (s : State) :
    frameWaits f s = (deferredUnsent s && asksSlot c s) := by
  simp [frameWaits, h]

/-- Whether a frame waits does not depend on the receive queue. -/
theorem frameWaits_rx (f : Frame) (l : List Frame) (s : State) : frameWaits f { s with hli.rx := l } = frameWaits f s := rfl

/-- A frame submitted while the HLI can take it, and which need not wait, is run at once. -/
theorem submit_take (f : Frame) (s : State) (h : CanTake s) (hw : frameWaits f s = false) : submit f s = runFrame f s := by
  obtain ⟨_, h2, h3⟩ := h
  have hs : { s with hli.rx := [] } = s := by rw [← h3]
  have e : submit f s = drain 1 { s with hli.rx := [f] } := by simp [submit, drainAll, h3]
  rw [e, drain, if_pos (show ready { s with hli.rx := [f] } = true from h2)]
  simp only [frameWaits_rx, hw, drain, Bool.false_eq_true, if_false]
  rw [hs]

/-- A request that can be taken runs its frame at once. -/
theorem exec_runFrame {c : Instr} {f : Frame} {s : State} (hf : frameOf c = some f) (h : CanTake s)
    (hw : frameWaits f s = false) : exec c s = .next (runFrame f s) := by
  rw [exec_request hf]
  simp [live, h.1, request, hf, submit_take f s h hw]

/-- While the HLI takes no request, draining the receive queue changes nothing. -/
theorem drain_of_not_ready {s : State} (h : ready s = false) (n : Nat) : drain n s = s := by
  cases n <;> simp [drain, h]

/-- While the RESET pin holds the part, a command changes nothing. -/
theorem live_of_reset (f : State → State) {s : State} (h : s.pins.reset = true) : live f s = .next s := by
  simp [live, h]

/-- While the part runs, a command does its effect. -/
theorem live_of_run (f : State → State) {s : State} (h : s.pins.reset = false) : live f s = .next (f s) := by
  simp [live, h]

/-- A command carried out by `live` takes a next state, whatever the state. -/
theorem live_next (f : State → State) (s : State) : ∃ t, live f s = .next t :=
  ⟨_, rfl⟩

/-! ### Fields from their bytes -/

theorem of2_be2 (x : BitVec 16) : of2 ((x >>> 8).setWidth 8) (x.setWidth 8) = x := by
  apply BitVec.eq_of_getLsbD_eq
  intro i hi
  simp only [of2, BitVec.getLsbD_append, BitVec.getLsbD_setWidth, BitVec.getLsbD_ushiftRight]
  by_cases h : i < 8
  · simp [h]
  · simp [h, show i - 8 < 8 by omega, show 8 + (i - 8) = i by omega]

theorem of4_be4 (x : BitVec 32) :
    of4 ((x >>> 24).setWidth 8) ((x >>> 16).setWidth 8) ((x >>> 8).setWidth 8) (x.setWidth 8) = x := by
  apply BitVec.eq_of_getLsbD_eq
  intro i hi
  simp only [of4, BitVec.getLsbD_append, BitVec.getLsbD_setWidth, BitVec.getLsbD_ushiftRight]
  by_cases h : i < 8
  · simp [h]
  by_cases h2 : i < 16
  · simp [h, show i - 8 < 8 by omega, show 8 + (i - 8) = i by omega]
  by_cases h3 : i < 24
  · simp [h, show ¬ i - 8 < 8 by omega, show i - 8 - 8 < 8 by omega, show 16 + (i - 8 - 8) = i by omega]
  · simp [h, show ¬ i - 8 < 8 by omega, show ¬ i - 8 - 8 < 8 by omega, show i - 8 - 8 - 8 < 8 by omega,
      show 24 + (i - 8 - 8 - 8) = i by omega]

end Sys2Proof.Machine
end

