-- ==== Sys2Proof/Laws/PerInstr.lean ====
section
/-! SUPPORT. `HostFrame`: every host request's row is sent as a frame of one of the 28 kinds, but for the row of an unknown
kind, whose frame holds the kind, tag and payload it names; one lemma for each command. -/

namespace Sys2Proof.Laws.HostFrame

open Sys2Proof Sys2Proof.Machine

/-- The frame of a host request, where the command is one, is of a kind of the catalog (R189, R197). -/
def Statement (c : Instr) : Prop :=
  ∀ f : Frame, frameOf c = some f →
    isRequestKind f.kind = true ∨ c = .unknownRequestKind f.kind f.tag f.payload

theorem statusQuery (tag : Byte) : Statement (.statusQuery tag) := by
  intro f h
  cases h
  exact .inl rfl

theorem modeRequest (tag target : Byte) : Statement (.modeRequest tag target) := by
  intro f h
  cases h
  exact .inl rfl

theorem demand (tag dir : Byte) (propel retard hold steer : BitVec 16) (brake : Byte) : Statement (.demand tag dir propel retard hold steer brake) := by
  intro f h
  cases h
  exact .inl rfl

theorem settingWrite (tag id : Byte) (value : BitVec 32) : Statement (.settingWrite tag id value) := by
  intro f h
  cases h
  exact .inl rfl

theorem settingRead (tag id : Byte) : Statement (.settingRead tag id) := by
  intro f h
  cases h
  exact .inl rfl

theorem tableCursor (tag table : Byte) (index : BitVec 16) (mode : Byte) : Statement (.tableCursor tag table index mode) := by
  intro f h
  cases h
  exact .inl rfl

theorem tableWrite (tag : Byte) (data : List Byte) : Statement (.tableWrite tag data) := by
  intro f h
  cases h
  exact .inl rfl

theorem tableRead (tag count : Byte) : Statement (.tableRead tag count) := by
  intro f h
  cases h
  exact .inl rfl

theorem signalRead (tag : Byte) (ids : List Byte) : Statement (.signalRead tag ids) := by
  intro f h
  cases h
  exact .inl rfl

theorem flagsRead (tag : Byte) : Statement (.flagsRead tag) := by
  intro f h
  cases h
  exact .inl rfl

theorem countsRead (tag : Byte) : Statement (.countsRead tag) := by
  intro f h
  cases h
  exact .inl rfl

theorem tripClear (tag cause : Byte) : Statement (.tripClear tag cause) := by
  intro f h
  cases h
  exact .inl rfl

theorem loopScan (tag : Byte) : Statement (.loopScan tag) := by
  intro f h
  cases h
  exact .inl rfl

theorem loopExchange (tag addr channel func size : Byte) (data : BitVec 32) : Statement (.loopExchange tag addr channel func size data) := by
  intro f h
  cases h
  exact .inl rfl

theorem stationReinstate (tag addr : Byte) : Statement (.stationReinstate tag addr) := by
  intro f h
  cases h
  exact .inl rfl

theorem gridCheckStart (tag grid : Byte) : Statement (.gridCheckStart tag grid) := by
  intro f h
  cases h
  exact .inl rfl

theorem gridCheckStop (tag : Byte) : Statement (.gridCheckStop tag) := by
  intro f h
  cases h
  exact .inl rfl

theorem steerCheckStart (tag : Byte) : Statement (.steerCheckStart tag) := by
  intro f h
  cases h
  exact .inl rfl

theorem procResult (tag proc : Byte) : Statement (.procResult tag proc) := by
  intro f h
  cases h
  exact .inl rfl

theorem recordStart (tag : Byte) : Statement (.recordStart tag) := by
  intro f h
  cases h
  exact .inl rfl

theorem recordStop (tag : Byte) : Statement (.recordStop tag) := by
  intro f h
  cases h
  exact .inl rfl

theorem recordStatus (tag : Byte) : Statement (.recordStatus tag) := by
  intro f h
  cases h
  exact .inl rfl

theorem recordRead (tag flags : Byte) : Statement (.recordRead tag flags) := by
  intro f h
  cases h
  exact .inl rfl

theorem recordFind (tag position comparison start reserved : Byte) (value : BitVec 32) : Statement (.recordFind tag position comparison start reserved value) := by
  intro f h
  cases h
  exact .inl rfl

theorem integrityRead (tag mem flags : Byte) : Statement (.integrityRead tag mem flags) := by
  intro f h
  cases h
  exact .inl rfl

theorem integrityInject (tag mem kind : Byte) : Statement (.integrityInject tag mem kind) := by
  intro f h
  cases h
  exact .inl rfl

theorem governorReset (tag : Byte) : Statement (.governorReset tag) := by
  intro f h
  cases h
  exact .inl rfl

theorem fullReset (tag : Byte) : Statement (.fullReset tag) := by
  intro f h
  cases h
  exact .inl rfl

theorem fullResetTakesEffect : Statement .fullResetTakesEffect := by
  intro f h
  cases h

theorem powerOn (stopAsserted : Bool) : Statement (.powerOn stopAsserted) := by
  intro f h
  cases h

theorem resetPinAssert : Statement .resetPinAssert := by
  intro f h
  cases h

theorem resetPinRelease : Statement .resetPinRelease := by
  intro f h
  cases h

theorem stopLineAssert : Statement .stopLineAssert := by
  intro f h
  cases h

theorem stopLineRelease : Statement .stopLineRelease := by
  intro f h
  cases h

theorem demandTimerExpiry : Statement .demandTimerExpiry := by
  intro f h
  cases h

theorem hostFrameReceived (bytes : List Byte) : Statement (.hostFrameReceived bytes) := by
  intro f h
  cases h

theorem hostInterByteGap : Statement .hostInterByteGap := by
  intro f h
  cases h

theorem messageSent : Statement .messageSent := by
  intro f h
  cases h

theorem cleanIdleWordReturned : Statement .cleanIdleWordReturned := by
  intro f h
  cases h

theorem uncleanWordReturned (word : RxWord) : Statement (.uncleanWordReturned word) := by
  intro f h
  cases h

theorem loopSyncReached : Statement .loopSyncReached := by
  intro f h
  cases h

theorem loopEdgeTimeout : Statement .loopEdgeTimeout := by
  intro f h
  cases h

theorem frameStart : Statement .frameStart := by
  intro f h
  cases h

theorem streamBlockReady : Statement .streamBlockReady := by
  intro f h
  cases h

theorem recorderFrozen : Statement .recorderFrozen := by
  intro f h
  cases h

theorem exchangeStart : Statement .exchangeStart := by
  intro f h
  cases h

theorem exchangeComplete (words : List RxWord) : Statement (.exchangeComplete words) := by
  intro f h
  cases h

theorem slotTimeout : Statement .slotTimeout := by
  intro f h
  cases h

theorem stationSuspect (addr : Nat) : Statement (.stationSuspect addr) := by
  intro f h
  cases h

theorem stationExcluded (addr : Nat) : Statement (.stationExcluded addr) := by
  intro f h
  cases h

theorem persistRetryExhausted : Statement .persistRetryExhausted := by
  intro f h
  cases h

theorem budgetExhaustion : Statement .budgetExhaustion := by
  intro f h
  cases h

theorem heldItemJoin : Statement .heldItemJoin := by
  intro f h
  cases h

theorem dispatchMarkReached : Statement .dispatchMarkReached := by
  intro f h
  cases h

theorem publication : Statement .publication := by
  intro f h
  cases h

theorem holdAllowanceExceeded (signal : Nat) : Statement (.holdAllowanceExceeded signal) := by
  intro f h
  cases h

theorem conditionCountReached (cond : CountedCond) : Statement (.conditionCountReached cond) := by
  intro f h
  cases h

theorem derateHoldExpiry (cause : DerateCause) (target : DerateTarget) : Statement (.derateHoldExpiry cause target) := by
  intro f h
  cases h

theorem slipPersistSet (wheel : Side) : Statement (.slipPersistSet wheel) := by
  intro f h
  cases h

theorem holdShortEntry : Statement .holdShortEntry := by
  intro f h
  cases h

theorem holdShortExit : Statement .holdShortExit := by
  intro f h
  cases h

theorem steerTrackArise : Statement .steerTrackArise := by
  intro f h
  cases h

theorem steerTrackGo : Statement .steerTrackGo := by
  intro f h
  cases h

theorem steerSupplyArise : Statement .steerSupplyArise := by
  intro f h
  cases h

theorem accLowArise : Statement .accLowArise := by
  intro f h
  cases h

theorem steerCheckWatchEnd : Statement .steerCheckWatchEnd := by
  intro f h
  cases h

theorem outputPosting (producer : Producer) : Statement (.outputPosting producer) := by
  intro f h
  cases h

theorem recordFindComplete : Statement .recordFindComplete := by
  intro f h
  cases h

theorem unknownRequestKind (kind tag : Byte) (payload : List Byte) : Statement (.unknownRequestKind kind tag payload) := by
  intro f h
  cases h
  exact .inr rfl

theorem storedBitFlipped (mem : Mem) (addr : Nat) (bits : List Nat) : Statement (.storedBitFlipped mem addr bits) := by
  intro f h
  cases h

end Sys2Proof.Laws.HostFrame
end

