-- ==== Sys2Proof/Laws/Screening.lean ====
section
/-! SUPPORT. What the screening of one signal finds in the screening table changes no other signal of the publication: the
order of the signals does not change the image (R69; log 42, log 49). -/

namespace Sys2Proof.Machine

/-- The entry at place `i` of the table as the publication found it is valid and names the signal. -/
def Names (named : List ScreenEntry) (id i : Nat) : Prop :=
  (named.getD i .empty).valid = true ∧ (named.getD i .empty).signal = id

theorem readScreen_eq_of_word {i : Nat} {s t : State} (h : s.sgs.screen[i]? = t.sgs.screen[i]?) :
    (readScreen i s).1 = (readScreen i t).1 := by
  unfold readScreen
  rw [h]
  (repeat' split) <;> rfl

theorem readScreen_other_words {i j : Nat} (h : i ≠ j) (s : State) :
    (readScreen i s).2.sgs.screen[j]? = s.sgs.screen[j]? := by
  unfold readScreen
  (repeat' split) <;> simp [noteCorrected, noteUncorrectable, updGuard, latch, h]

theorem countFailure_other_words {i j : Nat} (h : i ≠ j) (e : ScreenEntry) (s : State) :
    (countFailure i e s).sgs.screen[j]? = s.sgs.screen[j]? := by
  simp [countFailure, h]

/-- Evaluating a signal's entries leaves every entry that names another signal. -/
theorem evaluate_other_words (old : List ImageEntry) (buf : List Delivery) (named : List ScreenEntry) (id : Nat) (d : Int)
    {j : Nat} (hj : ¬Names named id j) (is : List Nat) (s : State) :
    (evaluate old buf named id d is s).2.sgs.screen[j]? = s.sgs.screen[j]? := by
  induction is generalizing s with
  | nil => rfl
  | cons i is ih =>
    simp only [evaluate]
    split
    · rename_i hn
      have hij : i ≠ j := by rintro rfl; exact hj (by simpa [Names] using hn)
      split
      · rw [countFailure_other_words hij, readScreen_other_words hij]
      · split
        · rw [ih, readScreen_other_words hij]
        · rw [countFailure_other_words hij, readScreen_other_words hij]
    · exact ih s

/-- What evaluating a signal's entries answers rests on the entries that name it alone. -/
theorem evaluate_eq_of_words (old : List ImageEntry) (buf : List Delivery) (named : List ScreenEntry) (id : Nat) (d : Int)
    (is : List Nat) (hd : is.Nodup) {s t : State}
    (h : ∀ i ∈ is, Names named id i → s.sgs.screen[i]? = t.sgs.screen[i]?) :
    (evaluate old buf named id d is s).1 = (evaluate old buf named id d is t).1 := by
  induction is generalizing s t with
  | nil => rfl
  | cons i is ih =>
    obtain ⟨hi, hd⟩ := List.nodup_cons.1 hd
    simp only [evaluate]
    split
    · rename_i hn
      have hw := readScreen_eq_of_word (h i (by simp) (by simpa [Names] using hn))
      have hr := ih hd (s := (readScreen i s).2) (t := (readScreen i t).2) (fun j hj hm => by
        have hij : i ≠ j := by rintro rfl; exact hi hj
        rw [readScreen_other_words hij, readScreen_other_words hij]
        exact h j (by simp [hj]) hm)
      rw [hw]
      (repeat' split) <;> first | rfl | exact hr
    · exact ih hd (fun j hj => h j (by simp [hj]))

/-- Screening a signal leaves every entry that names another signal. -/
theorem screenSignal_other_words (old : List ImageEntry) (buf : List Delivery) (named : List ScreenEntry) (id : Nat)
    {j : Nat} (hj : ¬Names named id j) (s : State) :
    (screenSignal old buf named id s).2.sgs.screen[j]? = s.sgs.screen[j]? := by
  simp only [screenSignal]
  (repeat' split) <;> first | rfl | exact evaluate_other_words _ _ _ _ _ hj _ _

/-- The outcome of a signal rests on the entries that name it alone. -/
theorem screenSignal_eq_of_words (old : List ImageEntry) (buf : List Delivery) (named : List ScreenEntry) (id : Nat)
    {s t : State} (h : ∀ i, Names named id i → s.sgs.screen[i]? = t.sgs.screen[i]?) :
    (screenSignal old buf named id s).1 = (screenSignal old buf named id t).1 := by
  simp only [screenSignal]
  cases deliveredFor buf id with
  | none => rfl
  | some d =>
    simp only [evaluate_eq_of_words old buf named id d (List.range 96) List.nodup_range (fun i _ => h i)]
    (repeat' split) <;> rfl

/-- Every signal is screened as it would be alone: the order of the signals does not change the image (R69). -/
theorem screenSignals_any_order (old : List ImageEntry) (buf : List Delivery) (named : List ScreenEntry) (ids : List Nat)
    (hd : ids.Nodup) (s : State) :
    (screenSignals old buf named ids s).1 =
      ids.map (fun id => finishEntry (entryOf old id) (screenSignal old buf named id s).1) := by
  suffices h : ∀ t : State, (∀ id ∈ ids, ∀ i, Names named id i → s.sgs.screen[i]? = t.sgs.screen[i]?) →
      (screenSignals old buf named ids t).1 =
        ids.map (fun id => finishEntry (entryOf old id) (screenSignal old buf named id s).1) from h s (fun _ _ _ _ => rfl)
  induction ids with
  | nil => intro t _; rfl
  | cons id ids ih =>
    intro t h
    obtain ⟨hi, hd⟩ := List.nodup_cons.1 hd
    simp only [screenSignals, List.map_cons]
    rw [screenSignal_eq_of_words old buf named id (h id (by simp))]
    congr 1
    refine ih hd _ (fun k hk i hn => ?_)
    have hne : ¬Names named id i := fun hm => hi (by rw [← hm.2, hn.2]; exact hk)
    rw [h k (by simp [hk]) i hn, latchIf]
    split <;> simp [latch, screenSignal_other_words _ _ _ _ hne]

end Sys2Proof.Machine
end

