-- ==== Sys2Proof/Tests/Slice0.lean ====
section
/-! SUPPORT. Tests: the well-formedness checks refuse ill-formed commands; the spec's own figures and examples; commands on
small states; and for each obligation with hypotheses a witness that meets them, clause by clause. -/

set_option maxRecDepth 8000

namespace Sys2Proof.Tests

open Sys2Proof Sys2Proof.Machine

/-! ### Small states -/

/-- The state a command answers; itself where it stopped. -/
def after (c : Instr) (s : State) : State := match exec c s with | .next t => t | _ => s

def halted : State := State.reset
def loopUp : State := { halted with slc.loopState := .up }
def standby : State := { loopUp with dsc.gov := .standby, slc.frameTimer := true }
def driving : State := { standby with dsc.gov := .drive, sgv.result := ⟨.pass, .none, none, none, 0, false⟩ }
def resting : State := { standby with sgs.vspd := ⟨5, .fresh⟩ }
def stationOf (st : StationState) (streak : Nat) : Station := ⟨5, .inverter, 0, st, streak, 0, .none⟩
def enrolled (st : StationState) (streak : Nat) : State := { loopUp with slc.dir := [stationOf st streak] }
def entryOn (f : Func) (m : Settle) (sig : Nat) : AcqEntry := ⟨true, f, 5, 0, false, m, 0, 1, false, sig, 1, 0, false⟩
def turnOf (e : AcqEntry) : Run := ⟨0, e, false, 0, 0, none⟩
def passing (ph : Phase) (e : AcqEntry) (s : State) : State :=
  { s with slc.phase := ph, slc.run := some (turnOf e), slc.passIdx := 1, slc.acq := s.slc.acq.set 0 ⟨e, []⟩ }
def slotOf (c : Claim) : SlotEx := ⟨c, 5, 0, .read, false, 0, false, false⟩
def waiting (c : Claimant) (addr : Nat) : Item := ⟨c, addr, 0, .read, false, 0, none, false, 0, false⟩
def soundWords (hd d : Nat) : List RxWord :=
  let ws : List LoopWord := [BitVec.ofNat 16 hd, BitVec.ofNat 16 d]
  (ws ++ [checkWord ws]).map (⟨·, false⟩)
def derate (holding : Bool) (n : Nat) : Derate := ⟨.motorHot, .left, .propel, 500, 0, holding, n⟩
def trip (c : TripCause) (clearable : Bool) : Trip := ⟨c, tripSevere c, 1, 1, 0, clearable, 0⟩
def gridRun (gs : Grids) (g : Grid) (n : Nat) (st : GridStep) : GridRun := ⟨gs, 6, 7, g, n, st, 0, [], [], false⟩
def steerRun (p : SteerPhase) (o : Option (SteerOutcome × ProcCause)) (n : Nat) : SteerRun :=
  ⟨p, 9, 0, some 1500, none, n, o⟩
def imageOf (q : Quality) (v : Int) (held : Nat) : ImageEntry := ⟨v, q, 0, held, false, some 2⟩

/-! ### Well-formedness: an ill-formed term for each check -/

theorem test_wf_tableWrite_refused : (Instr.tableWrite 1 (List.replicate 241 0)).wf = false := by decide
theorem test_wf_signalRead_refused : (Instr.signalRead 1 (List.replicate 241 0)).wf = false := by decide
theorem test_wf_unknownRequestKind_refused :
    (Instr.unknownRequestKind 0x1C 1 []).wf = false ∧ (Instr.unknownRequestKind 0x01 1 []).wf = false
      ∧ (Instr.unknownRequestKind 0x1D 1 (List.replicate 241 0)).wf = false := by decide
theorem test_wf_uncleanWordReturned_refused : (Instr.uncleanWordReturned ⟨0x0F0F, false⟩).wf = false := by decide
theorem test_wf_station_refused :
    (Instr.stationSuspect 0).wf = false ∧ (Instr.stationSuspect 48).wf = false ∧ (Instr.stationExcluded 0).wf = false
      ∧ (Instr.stationExcluded 48).wf = false := by decide
theorem test_wf_holdAllowanceExceeded_refused :
    (Instr.holdAllowanceExceeded 0).wf = false ∧ (Instr.holdAllowanceExceeded 35).wf = false := by decide
theorem test_wf_derateHoldExpiry_refused :
    (Instr.derateHoldExpiry .motorHot .vehicle).wf = false ∧ (Instr.derateHoldExpiry .gridHeat .left).wf = false := by decide
theorem test_wf_storedBitFlipped_refused :
    (Instr.storedBitFlipped .acq 64 [0]).wf = false ∧ (Instr.storedBitFlipped .screen 96 [0]).wf = false
      ∧ (Instr.storedBitFlipped .image 0 [0]).wf = false ∧ (Instr.storedBitFlipped .image 35 [0]).wf = false
      ∧ (Instr.storedBitFlipped .record 16384 [0]).wf = false ∧ (Instr.storedBitFlipped .acq 0 []).wf = false
      ∧ (Instr.storedBitFlipped .acq 0 [1, 1]).wf = false ∧ (Instr.storedBitFlipped .acq 0 [1, 2, 3]).wf = false := by
  decide
theorem test_wf_accepted :
    (Instr.tableWrite 1 (List.replicate 240 0)).wf = true ∧ (Instr.unknownRequestKind 0x1D 1 []).wf = true
      ∧ (Instr.uncleanWordReturned ⟨0x0F0F, true⟩).wf = true ∧ (Instr.stationSuspect 47).wf = true
      ∧ (Instr.holdAllowanceExceeded 34).wf = true ∧ (Instr.derateHoldExpiry .motorHot .left).wf = true
      ∧ (Instr.storedBitFlipped .record 16383 [3, 7]).wf = true := by decide

/-! ### The spec's own figures -/

/-- R196: the CRC register over 00h 01h 00h. -/
theorem test_crc_example :
    (crcByte 0xFFFF 0x00, crcByte 0xE1F0 0x01, crcByte 0x0D2E 0x00, crc16 [0x00, 0x01, 0x00])
      = (0xE1F0#16, 0x0D2E#16, 0xFFAD#16, 0xFFAD#16) := by decide
/-- R71: a signal with hold allowance 2. -/
theorem test_hold_allowance_of_two :
    let a := holdPath 1 (imageOf .fresh 7 0)
    let b := holdPath 1 a
    (a.quality, a.heldCount, b.quality, b.heldCount, (holdPath 1 b).quality) = (.held, 1, .held, 2, .bad) := by decide
/-- R113: halving from 1.000 gives 0.500, 0.250, 0.125 and then 0.100. -/
theorem test_halving_of_the_factor :
    (slipState .default 151 1 .grip 1000, slipState .default 75 1 .spin 500, slipState .default 75 1 .spin 250)
      = ((.spin, 500), (.spin, 250), (.spin, 125)) ∧ halved 125 = 100 := by
  refine ⟨by decide, ?_⟩
  unfold halved
  cases Config.halfFactorUp 125 <;> decide
/-- R141: the classes at the default nominal of 1200 milliohms. -/
theorem test_string_classes :
    [2400, 2399, 1321, 1320, 1080, 1079, 601, 600, 0, 65535].map (classString 1200)
      = [.open, .drift, .drift, .good, .good, .drift, .drift, .short, .short, .open] := by decide

/-! ### Witnesses: the hypotheses of the obligations are met -/

theorem can (s : State) (h : (!s.pins.reset && ready s && s.hli.rx.isEmpty) = true) : CanTake s := by
  unfold CanTake
  cases hr : s.pins.reset <;> cases hy : ready s <;> cases hx : s.hli.rx <;> simp_all

def queued : State := { halted with hli.tx := halted.hli.tx ++ [.reply false 0x81 1 (.done [])] }

theorem test_witness_StepRunsTheFrontCommand :
    { halted with pending := [.messageSent, .frameStart] }.pending = .messageSent :: [.frameStart]
      ∧ halted.pending = [] := by decide

theorem test_witness_EveryRequestFrameReadsBack :
    let c : Instr := .loopExchange 0xFF 47 7 2 32 0xFFFFFFFF
    ∃ f, frameOf c = some f ∧ isRequestKind f.kind = true ∧ f.tag ≠ 0 ∧ ∀ k t p, c ≠ .unknownRequestKind k t p :=
  ⟨_, rfl, by decide, by decide, by intros; simp⟩

theorem test_witness_FrameBytesActAsTheirRequest :
    (∃ f, frameOf (.statusQuery 1) = some f ∧ f.payload.length ≤ 240 ∧ halted.hli.rxBuf = [] ∧ CanTake halted ∧ f.tag ≠ 0
      ∧ (∀ k t p, Instr.statusQuery 1 ≠ .unknownRequestKind k t p) ∧ deferredUnsent halted = false)
      ∧ asksSlot (.statusQuery 1) halted = false :=
  ⟨⟨_, rfl, by decide, rfl, can _ rfl, by decide, by intros; simp, rfl⟩, rfl⟩

/-- A state with the reply to a deferred request unsent and the given frames waiting. -/
def deferredAhead (rx : List Frame) : State :=
  { loopUp with hli.tx := [.reply true 0x8D 1 (.done [])], hli.rx := rx }

theorem test_witness_RequestIsTakenOrWaitsOrIsDropped :
    (∃ f, frameOf (.statusQuery 1) = some f ∧ f.tag ≠ 0 ∧ (∀ k t p, Instr.statusQuery 1 ≠ .unknownRequestKind k t p)
      ∧ CanTake halted ∧ Live queued ∧ ready queued = false
      ∧ Live { halted with hli.fullReset := .taken } ∧ ready { halted with hli.fullReset := .taken } = false)
      ∧ (Live (deferredAhead [⟨0x0D, 2, []⟩]) ∧ (deferredAhead [⟨0x0D, 2, []⟩]).hli.rx = ⟨0x0D, 2, []⟩ :: []
        ∧ frameWaits ⟨0x0D, 2, []⟩ (deferredAhead [⟨0x0D, 2, []⟩]) = true)
      ∧ ∃ f, frameOf (.loopScan 3) = some f ∧ f.tag ≠ 0 ∧ (∀ k t p, Instr.loopScan 3 ≠ .unknownRequestKind k t p)
        ∧ CanTake (deferredAhead []) ∧ deferredUnsent (deferredAhead []) = true
        ∧ asksSlot (.loopScan 3) (deferredAhead []) = true :=
  ⟨⟨_, rfl, by decide, by intros; simp, can _ rfl, rfl, rfl, rfl, rfl⟩, ⟨rfl, rfl, by decide⟩,
    _, rfl, by decide, by intros; simp, can _ rfl, rfl, by decide⟩

theorem test_deferrable_request_waits_for_the_deferred_reply :
    (after (.loopScan 3) (deferredAhead [])).hli.rx.length = 1
      ∧ (after (.statusQuery 3) (deferredAhead [])).hli.rx = []
      ∧ (after .messageSent (after (.loopScan 3) (deferredAhead []))).hli.deferred = some ⟨.loopScan, 3⟩
      ∧ (after (.loopScan 3) { deferredAhead [] with slc.loopState := .down }).hli.tx.getLast?
        = some (.reply false 0x8D 3 (.refused .state .loopNotUp 0)) := by decide

theorem test_witness_MalformedFramesAreRefusedOrDiscarded :
    CanTake halted ∧ isRequestKind 0x00 = false ∧ isRequestKind 0x1D = false
      ∧ (∃ f, frameOf (.demand 0 0 0 0 0 0 0) = some f ∧ isRequestKind f.kind = true ∧ f.tag = 0)
      ∧ Live { halted with hli.rxBuf := [0xA7] } ∧ Live halted ∧ halted.hli.rxBuf = [] ∧ (0xA6 : Byte) ≠ 0xA7
      ∧ 240 < (241 : Byte).toNat ∧ (Frame.mk 1 1 []).payload.length ≤ 240
      ∧ [(0 : Byte), 0] ≠ wordBytes (crc16 (Frame.mk 1 1 []).body) :=
  ⟨can _ rfl, by decide, by decide, ⟨_, rfl, by decide, rfl⟩, rfl, rfl, rfl, by decide, by decide, by decide, by decide⟩

/-- The clause of MalformedFramesAreRefusedOrDiscarded about payload lengths. -/
theorem test_witness_WrongLengthIsRefused :
    CanTake halted ∧ halted.hli.rxBuf = [] ∧ (1 : Byte) ≠ 0 ∧ (2 : Byte) = BitVec.ofNat 8 2
      ∧ ([0, 1] : List Nat)[2 - 1]? ≠ some ([] : List Byte).length ∧ 16 < (List.replicate 17 (1 : Byte)).length
      ∧ (List.replicate 17 (1 : Byte)).length ≤ 240 := ⟨can _ rfl, rfl, by decide, rfl, by decide, by decide, by decide⟩

theorem test_wrong_lengths :
    (after (.hostFrameReceived (Frame.mk 2 1 []).bytes) halted).hli.tx.getLast?
        = some (.reply false 0x82 1 (.refused .format .length 2))
      ∧ (after (.hostFrameReceived (Frame.mk 9 1 (List.replicate 17 1)).bytes) halted).hli.tx.getLast?
        = some (.reply false 0x89 1 (.refused .format .length 9)) := by decide +kernel

def sent : State := { halted with hli.tx := [] }
def replying : State := { halted with hli.tx := [.reply false 0x9C 1 (.done [])] }

theorem test_witness_SentMessageLeavesTheQueue :
    (Live sent ∧ sent.hli.fullReset = .none ∧ sent.hli.tx = [] ∧ sent.hli.rx = [])
      ∧ (Live halted ∧ halted.hli.fullReset = .none ∧ halted.hli.tx = resetNotice :: [] ∧ halted.hli.rx = [])
      ∧ (let s : State := { replying with hli.rx := [⟨1, 1, []⟩] }
        Live s ∧ s.hli.fullReset = .none ∧ s.hli.tx = .reply false 0x9C 1 (.done []) :: []
          ∧ ([] : List Msg).any (·.isOrdinary) = false ∧ s.hli.rx = ⟨1, 1, []⟩ :: []
          ∧ frameWaits ⟨1, 1, []⟩ { s with
              hli.tx := [], pins.hostTx := (Msg.reply false 0x9C 1 (.done [])).bytes } = false)
      ∧ (let s : State := { loopUp with hli.tx := [resetNotice, .reply true 0x8D 1 (.done [])], hli.rx := [⟨0x0D, 2, []⟩] }
        Live s ∧ s.hli.fullReset = .none ∧ s.hli.rx = ⟨0x0D, 2, []⟩ :: []
          ∧ frameWaits ⟨0x0D, 2, []⟩ { s with
              hli.tx := [.reply true 0x8D 1 (.done [])], pins.hostTx := resetNotice.bytes } = true)
      ∧ (let s : State := { replying with hli.fullReset := .taken }
        Live s ∧ s.hli.fullReset = .taken ∧ s.hli.tx = .reply false 0x9C 1 (.done []) :: []
          ∧ (Msg.reply false 0x9C 1 (.done [])).isOrdinary = true)
      ∧ { halted with hli.fullReset := .replySent }.hli.fullReset = .replySent := by
  unfold Live
  decide

/-- For StatusAndProcedureReportsChangeNothing, SettingsAreCheckedStoredAndRead and TableRequestsMoveEntriesAndTheCursor. -/
theorem test_witness_ReportsAndSettings : CanTake halted ∧ (1 : Byte) ≠ 0 := ⟨can _ rfl, by decide⟩

/-- READ entries of signal 1: sound, with its address out of range, and written not valid. -/
def acqBytes : List Byte := encodeAcq (entryOn .read .strict 1)
def badAcqBytes : List Byte := encodeAcq { entryOn .read .strict 1 with addr := 48 }
def editingAcq (i : Nat) : State :=
  { halted with hli.cursor := ⟨1, i, .none⟩, slc.acq := halted.slc.acq.set 0 ⟨entryOn .read .strict 1, []⟩ }

/-- The clauses of TableRequestsMoveEntriesAndTheCursor about an acquisition entry: out of range, a duplicate, stored. -/
theorem test_witness_AcquisitionEntryIsCheckedAndStored :
    CanTake (editingAcq 63) ∧ (editingAcq 63).hli.cursor.table = 1 ∧ (editingAcq 63).hli.cursor.index < 64
      ∧ (editingAcq 63).hli.cursor.mode = .none ∧ (editingAcq 63).imn.acq.inject = .none
      ∧ (editingAcq 63).slc.acq.length = 64 ∧ acqBytes.length = 8 ∧ badAcqBytes.length = 8
      ∧ (editingAcq 63).dsc.gov = .halted ∧ driving.dsc.gov ≠ .halted
      ∧ (decodeAcq acqBytes = entryOn .read .strict 1 ∧ (decodeAcq badAcqBytes).addr = 48
        ∧ (editingAcq 63).slc.acq[0]? = some ⟨entryOn .read .strict 1, []⟩) := by
  exact ⟨can _ rfl, by decide⟩

theorem test_acquisition_entry_edits :
    (after (.tableWrite 1 acqBytes) (editingAcq 63)).hli.tx.getLast?
        = some (.reply false 0x87 1 (.refused .range .duplicateSignal 63))
      ∧ (after (.tableWrite 1 badAcqBytes) (editingAcq 0)).hli.tx.getLast? = some (.reply false 0x87 1 (.refused .range .field 0))
      ∧ (after (.tableWrite 1 (List.replicate 8 0)) (editingAcq 0)).slc.acq[0]? = some ⟨.empty, []⟩ := by decide

def editingSet (i : Nat) : State :=
  { halted with hli.cursor := ⟨3, i, .none⟩, trc.recset := halted.trc.recset.set 0 (some 1) }

/-- The clauses of TableRequestsMoveEntriesAndTheCursor about the record set: each failure, and an entry stored. -/
theorem test_witness_RecordSetEntryIsCheckedAndStored :
    CanTake (editingSet 1) ∧ (editingSet 1).hli.cursor.table = 3 ∧ (editingSet 11).hli.cursor.index < 12
      ∧ (editingSet 1).hli.cursor.mode = .none ∧ (editingSet 1).trc.recset.length = 12 ∧ (editingSet 1).trc.st = .idle
      ∧ (editingSet 1).trc.find = none ∧ (∀ n, some n ∈ (editingSet 1).trc.recset → inCatalog n = true)
      ∧ inCatalog 35 = false ∧ { editingSet 1 with trc.find := some ⟨none, 0⟩ }.trc.find.isSome = true := by
  refine ⟨can _ rfl, rfl, by decide, rfl, by decide, rfl, rfl, ?_, by decide, rfl⟩
  intro n h
  have h1 : n = 1 := by simpa [editingSet, halted, State.reset, State.initial, Trc.initial] using h
  rw [h1]
  decide

theorem test_record_set_edits :
    (after (.tableWrite 1 [1, 35]) (editingSet 1)).hli.tx.getLast? = some (.reply false 0x87 1 (.refused .range .signal 1))
      ∧ (after (.tableWrite 1 [1, 1]) (editingSet 1)).hli.tx.getLast?
        = some (.reply false 0x87 1 (.refused .range .duplicateSignal 1))
      ∧ (after (.tableWrite 1 [1, 2]) (editingSet 2)).hli.tx.getLast? = some (.reply false 0x87 1 (.refused .range .gap 2))
      ∧ (after (.tableWrite 1 [1, 2]) (editingSet 1)).trc.recset.take 3 = [some 1, some 2, none] := by decide

theorem test_settings_at_their_boundaries :
    ((after (.settingWrite 1 0 0) halted).hli.tx.getLast?, (after (.settingWrite 1 35 0) halted).hli.tx.getLast?)
        = (some (.reply false 0x84 1 (.refused .range .setting 0)), some (.reply false 0x84 1 (.refused .range .setting 35)))
      ∧ (after (.settingWrite 1 34 0) halted).hli.stored.noticeMask = 0
      ∧ (after (.settingWrite 1 34 0) halted).hli.force.noticeMask = 0
      ∧ (after (.settingWrite 1 34 0) standby).hli.force.noticeMask = 3
      ∧ (after (.settingRead 1 35) halted).hli.tx.getLast? = some (.reply false 0x85 1 (.refused .range .setting 35)) := by
  decide

theorem test_table_cursor_stays_inside :
    (after (.tableCursor 1 7 20 1) halted).hli.cursor = ⟨7, 20, .onReadAndWrite⟩
      ∧ (after (.tableRead 1 1) (after (.messageSent) (after .messageSent (after (.tableCursor 1 7 20 1) halted)))).hli.cursor
        = ⟨7, 20, .onReadAndWrite⟩
      ∧ (after (.tableCursor 1 7 21 1) halted).hli.tx.getLast? = some (.reply false 0x86 1 (.refused .range .field 2)) := by
  decide

theorem test_flags_read_sets_a_present_condition_again :
    let s := { enrolled .suspect 3 with hli.flags := 0xFFFF#16 }
    (after (.flagsRead 1) s).hli.flags = Flag.stationSuspect.mask := by decide

theorem test_witness_FlagsAndCountersAreReturnedAndCleared :
    CanTake halted ∧ (⟨2147483647, false⟩ : Counter).val ≤ 2147483647
      ∧ (⟨2147483647, false⟩ : Counter).rise = ⟨0, true⟩ ∧ (⟨2147483646, true⟩ : Counter).val < 2147483647 :=
  ⟨can _ rfl, by decide, by decide, by decide⟩

def flipped (fs : List Nat) : State := { halted with slc.acq := halted.slc.acq.set 63 ⟨entryOn .read .strict 1, fs⟩ }

theorem test_witness_IntegrityInjectChecksInOrderAndPends : CanTake halted ∧ CanTake driving := ⟨can _ rfl, can _ rfl⟩

theorem test_injection_is_refused_while_governing :
    (after (.integrityInject 1 4 2) halted).imn.record.inject = .double
      ∧ (after (.integrityInject 1 4 2) driving).hli.tx.getLast? = some (.reply false 0x9A 1 (.refused .state .governing 2))
      ∧ (after (.integrityInject 1 5 0) halted).hli.tx.getLast? = some (.reply false 0x9A 1 (.refused .range .field 1))
      ∧ (after (.integrityInject 1 4 3) halted).hli.tx.getLast? = some (.reply false 0x9A 1 (.refused .range .field 2)) := by
  decide

theorem test_witness_IntegrityErrorsAreMetCountedAndRead :
    let e := entryOn .read .strict 1
    (flipped []).slc.acq[63]? = some ⟨e, []⟩ ∧ (flipped [0]).slc.acq[63]? = some ⟨e, [0]⟩ ∧ e.corrupt = false
      ∧ (flipped [0, 70]).slc.acq[63]? = some ⟨e, [0, 70]⟩ ∧ 2 ≤ [0, 70].length
      ∧ (let c := { e with corrupt := true }
        { halted with slc.acq := halted.slc.acq.set 63 ⟨c, [0]⟩ }.slc.acq[63]? = some ⟨c, [0]⟩ ∧ c.corrupt = true)
      ∧ Live (flipped []) ∧ CanTake halted ∧ (0 : Byte).toNat < 1 ∧ 4 < (5 : Byte).toNat := by
  refine ⟨by decide, by decide, by decide, by decide, by decide, by decide, rfl, can _ rfl, by decide, by decide⟩

def ringed : State := { halted with trc.ring := [⟨0, [⟨9, []⟩, ⟨0, []⟩, ⟨0, [4]⟩]⟩, ⟨3, [⟨10, []⟩, ⟨0, []⟩, ⟨0, []⟩]⟩] }

/-- The clauses of IntegrityErrorsAreMetCountedAndRead about flipped bits, in each memory and at its last address. -/
theorem test_witness_FlippedBitsAreTheOnesNamed :
    Live (flipped [5]) ∧ ([0, 70] : List Nat).Nodup ∧ (∀ b ∈ [0, 70], b ∉ [5])
      ∧ (flipped [5]).slc.acq[63]? = some ⟨entryOn .read .strict 1, [5]⟩ ∧ 5 ∈ [5]
      ∧ halted.sgs.screen[95]? = some ⟨.empty, []⟩ ∧ halted.sgs.image[34 - 1]? = some ⟨.initial, []⟩
      ∧ ringed.trc.ring[0]? = some ⟨0, [⟨9, []⟩, ⟨0, []⟩, ⟨0, [4]⟩]⟩ ∧ 4 ∈ [4]
      ∧ (∀ j q, j ≠ 0 → ringed.trc.ring[j]? = some q → 2 < q.base ∨ q.base + q.words.length ≤ 2)
      ∧ halted.slc.acq.length ≤ 64 ∧ halted.sgs.screen.length ≤ 96 ∧ halted.sgs.image.length < 35
      ∧ (∀ r ∈ ringed.trc.ring, 6 < r.base ∨ r.base + r.words.length ≤ 6) := by
  refine ⟨rfl, by decide, by decide, by decide, by decide, by decide, by decide, by decide, by decide, ?_, by decide,
    by decide, by decide, by decide⟩
  intro j q h0 h
  match j, h0, h with
  | 1, _, h => cases h; decide
  | j + 2, _, h => exact absurd h (by simp [ringed])

theorem test_flips_of_each_memory :
    (after (.storedBitFlipped .acq 63 [0, 70]) (flipped [5])).slc.acq[63]? = some ⟨entryOn .read .strict 1, [5, 0, 70]⟩
      ∧ (after (.storedBitFlipped .image 34 [1, 2]) halted).sgs.image[33]? = some ⟨.initial, [1, 2]⟩
      ∧ ((after (.storedBitFlipped .record 2 [4]) ringed).trc.ring.map (·.words.map (·.flips))) = [[[], [], []], [[], [], []]]
      ∧ after (.storedBitFlipped .screen 96 [4]) halted = halted := by decide

theorem test_flipped_bit_is_corrected_once :
    (readAcq 63 (flipped [0])).2.imn.acq.corrected = 1 ∧ (readAcq 63 (readAcq 63 (flipped [0])).2).2.imn.acq.corrected = 1 := by
  decide

/-! #### Governing states, demand, STOP line, resets -/

theorem test_witness_ModeRequestsFollowTheTransitionTable :
    CanTake halted ∧ CanTake driving ∧ CanTake standby ∧ 3 < (4 : Byte).toNat ∧ (0 : Byte).toNat = govCode halted.dsc.gov
      ∧ (halted.dsc.gov, (3 : Byte).toNat) ∈ [(Gov.halted, 2), (.halted, 3), (.standby, 3), (.drive, 0), (.drive, 3),
            (.safeHold, 0), (.safeHold, 2)]
      ∧ driving.dsc.gov = .drive ∧ standby.dsc.gov = .standby := by
  refine ⟨can _ rfl, can _ rfl, can _ rfl, by decide⟩

theorem test_drive_entry_and_leaving_at_rest :
    let s : State := { resting with
      sgv.result := ⟨.pass, .none, none, none, 0, false⟩, dsc.fresh := true, dsc.timerRunning := true }
    (after (.modeRequest 1 2) s).dsc.gov = .drive
      ∧ (after (.modeRequest 1 2) { s with dsc.stopLine := true }).dsc.gov = .standby
      ∧ (after (.modeRequest 1 1) driving).dsc.gov = .drive
      ∧ (after (.modeRequest 1 1) { driving with sgs.vspd := ⟨5, .kept⟩ }).dsc.gov = .standby
      ∧ (after (.modeRequest 1 1) { driving with sgs.vspd := ⟨5, .held⟩ }).dsc.gov = .drive := by decide

theorem test_witness_StandbyEntryChecksThenStartsGoverning :
    CanTake loopUp ∧ loopUp.dsc.gov = .halted ∧ (editingAcq 0).slc.acq.length = 64
      ∧ (∀ p ∈ (editingAcq 0).slc.acq, p.flips = [])
      ∧ (editingAcq 0).slc.acq[0]? = some ⟨entryOn .read .strict 1, []⟩ ∧ (stationAt 5 (editingAcq 0)).isNone = true
      ∧ (∀ p ∈ halted.slc.acq, p.val.valid = false) :=
  ⟨can _ rfl, rfl, by decide, by decide, by decide, by decide, by decide⟩

theorem test_validation_finds_the_first_failure :
    (validate (editingAcq 0)).1 = some (.stationUnknown, 0)
      ∧ (validate { editingAcq 0 with slc.dir := [stationOf .enrolled 0] }).1 = some (.missingSignal, 2)
      ∧ (validate { editingAcq 0 with slc.dir := [{ stationOf .enrolled 0 with kind := .sense }] }).1
        = some (.kindMismatch, 0) := by decide

theorem test_standby_is_refused_for_an_empty_table :
    (after (.modeRequest 1 1) halted).hli.tx.getLast? = some (.reply false 0x82 1 (.refused .state .loopNotUp 0))
      ∧ (after (.modeRequest 1 1) loopUp).dsc.gov = .halted := by decide

theorem test_witness_DriveEntryChecksInOrder : CanTake standby ∧ standby.dsc.gov = .standby := ⟨can _ rfl, rfl⟩

theorem test_witness_DemandAndItsExpiry :
    CanTake halted ∧ Live halted ∧ halted.dsc.timerRunning = false
      ∧ (let s : State := { driving with dsc.timerRunning := true }
        Live s ∧ s.dsc.timerRunning = true ∧ s.dsc.gov = .drive)
      ∧ (let s : State := { standby with dsc.timerRunning := true }
        Live s ∧ s.dsc.timerRunning = true ∧ s.dsc.gov = .standby)
      ∧ (let s : State := { halted with dsc.timerRunning := true }
        Live s ∧ s.dsc.timerRunning = true ∧ s.dsc.gov = .halted) :=
  ⟨can _ rfl, rfl, rfl, ⟨rfl, rfl, rfl⟩, ⟨rfl, rfl, rfl⟩, ⟨rfl, rfl, rfl⟩⟩

theorem test_demand_ranges :
    (after (.demand 1 2 1000 1000 50 4000 1) halted).dsc.demand = ⟨.reverse, 1000, 1000, 50, 4000, true⟩
      ∧ (after (.demand 1 2 1000 1000 49 4000 1) halted).hli.tx.getLast? = some (.reply false 0x83 1 (.refused .range .field 4))
      ∧ (after (.demand 1 3 1001 0 0 0 0) halted).hli.tx.getLast? = some (.reply false 0x83 1 (.refused .range .field 1)) := by
  decide

/-- STANDBY with both procedures running, the steering supply check in phase ISOLATE. -/
def bothRunning : State :=
  { resting with
    rgv.check.run := some (gridRun .a .a 0 .act), sgv.run := some (steerRun .isolate none 0)
    slc.queue := [waiting .gridCheck 6, waiting .steerCheck 9] }

theorem test_witness_StopLineAssertionAndRelease :
    (Live driving ∧ driving.dsc.stopLine = false ∧ driving.dsc.gov = .drive)
      ∧ (Live standby ∧ standby.dsc.stopLine = false ∧ standby.dsc.gov ≠ .drive ∧ standby.dsc.gov = .standby
        ∧ standby.sgv.run = none)
      ∧ (Live halted ∧ halted.dsc.stopLine = false ∧ halted.dsc.gov = .halted)
      ∧ (Live bothRunning ∧ bothRunning.dsc.stopLine = false ∧ bothRunning.dsc.gov = .standby
        ∧ bothRunning.rgv.check.run = some (gridRun .a .a 0 .act)
        ∧ bothRunning.sgv.run = some (steerRun .isolate none 0) ∧ (steerRun .isolate none 0).phase ≠ .release
        ∧ bothRunning.slc.slot = none)
      ∧ { halted with pins.reset := true }.pins.reset = true ∧ { driving with dsc.stopLine := true }.dsc.stopLine = true := by
  unfold Live
  decide

theorem test_stop_line_aborts_both_procedures :
    let t := after .stopLineAssert bothRunning
    (t.rgv.check.run.isNone, t.rgv.check.last.outcome, t.sgv.run.map (fun r => (r.phase, r.pending)))
        = (true, .aborted, some (.release, some (.aborted, .stop)))
      ∧ t.slc.queue = [⟨.steerCheck, 9, 6, .act, false, 0, none, false, 0, false⟩] := by decide

theorem test_stop_line_takes_drive_to_safe_hold :
    (after .stopLineAssert driving).dsc.gov = .safeHold
      ∧ (after .stopLineRelease (after .stopLineAssert driving)).dsc.gov = .safeHold := by decide

/-- An exchange in its slot that a governor reset has found there, of a station with the streak given. -/
def resetInSlot (streak : Nat) : State :=
  { enrolled .suspect streak with slc.slot := some { slotOf .orphan with afterReset := true } }

theorem test_witness_GovernorResetKeepsTablesAndSettings :
    (CanTake driving ∧ driving.slc.slot = none) ∧ (resetInSlot 7).slc.slot = some { slotOf .orphan with afterReset := true }
      ∧ (let s := resetInSlot 7;
        Live s ∧ stationAt 5 s = some (stationOf .suspect 7) ∧ (stationOf .suspect 7).state ≠ .excluded
          ∧ s.hli.force.streakExclude ≤ (if (7 : Nat) < 255 then 7 + 1 else 255))
      ∧ (if (6 : Nat) < 255 then 6 + 1 else 255) < (resetInSlot 6).hli.force.streakExclude :=
  ⟨⟨can _ rfl, rfl⟩, rfl, by unfold Live; decide, by decide⟩

theorem test_exchange_in_its_slot_is_applied_before_the_reset :
    (after .slotTimeout (resetInSlot 7)).slc.dir.map (fun e => (e.state, e.streak)) = [(.excluded, 0)]
      ∧ (after .slotTimeout (resetInSlot 6)).slc.dir.map (fun e => (e.state, e.streak)) = [(.enrolled, 0)] := by decide

def inReset : State := { halted with pins.reset := true }
theorem test_witness_ResetsResetThePart :
    CanTake halted ∧ Live { halted with hli.fullReset := .replySent } ∧ halted.hli.fullReset ≠ .replySent
      ∧ halted.pins.reset = false ∧ inReset.pins.reset = true ∧ (∀ b, Instr.frameStart ≠ .powerOn b)
      ∧ Instr.frameStart ≠ .resetPinRelease ∧ Instr.frameStart ≠ .stopLineAssert ∧ Instr.frameStart ≠ .stopLineRelease := by
  refine ⟨can _ rfl, rfl, by decide, rfl, rfl, by intro b; simp, by decide, by decide, by decide⟩

theorem test_full_reset_after_its_reply :
    let s := after .messageSent (after .messageSent (after (.fullReset 1) driving))
    s.hli.fullReset = .replySent ∧ (after .fullResetTakesEffect s).dsc.gov = .halted
      ∧ (after .fullResetTakesEffect s).slc.loopState = .down := by decide

/-! #### The station loop -/

def syncing (n : Nat) : State := { halted with slc.loopState := .syncing, slc.sync := n }

theorem test_witness_LoopSyncCountsCleanIdleWords :
    (Live halted ∧ halted.slc.loopState = .down) ∧ (Live (syncing 30) ∧ (syncing 30).slc.sync < 31)
      ∧ (Live (syncing 31) ∧ (syncing 31).slc.sync = 31) ∧ (Live loopUp ∧ loopUp.slc.loopState = .up)
      ∧ (⟨0x0F0E, false⟩ : RxWord).word ≠ 0x0F0F#16 ∧ (⟨0x0F0F, true⟩ : RxWord).lineError = true := by
  unfold Live
  decide

theorem test_loop_comes_up_at_the_thirty_second_word :
    (after .cleanIdleWordReturned (syncing 31)).slc.loopState = .up
      ∧ (after .cleanIdleWordReturned (after (.uncleanWordReturned ⟨0x0F0F, true⟩) (syncing 31))).slc.sync = 1 := by decide

theorem test_witness_FailureStreaksMoveStations :
    Settings.default.streakSuspect < Settings.default.streakExclude
      ∧ (let e := stationOf .excluded 254; (e.fail .check).judge .default = { e with streak := 255, total := 1, lastFail := .check })
      ∧ (stationOf .enrolled 2).state ≠ .excluded
      ∧ (Live (enrolled .enrolled 2) ∧ stationAt 5 (enrolled .enrolled 2) = some (stationOf .enrolled 2)
        ∧ (2 : Nat) + 1 = (enrolled .enrolled 2).hli.force.streakSuspect)
      ∧ (Live (enrolled .suspect 7) ∧ stationAt 5 (enrolled .suspect 7) = some (stationOf .suspect 7)
        ∧ (7 : Nat) + 1 = (enrolled .suspect 7).hli.force.streakExclude)
      ∧ ((stationOf .enrolled 2).state = .enrolled ∧ (2 : Nat) < 255 ∧ Settings.default.streakSuspect ≤ 2 + 1
        ∧ (2 : Nat) + 1 < (enrolled .enrolled 2).hli.force.streakExclude)
      ∧ ((stationOf .enrolled 254).state ≠ .excluded ∧ (254 : Nat) < 255
        ∧ (enrolled .enrolled 254).hli.force.streakExclude ≤ 254 + 1)
      ∧ stationAt 6 (enrolled .enrolled 2) = none := by
  unfold Live
  decide

/-- R30: STREAK_EXCLUDE is compared first, and a streak that does not rise moves no station. -/
theorem test_threshold_rows_compare_the_streak_risen :
    let rows (s : State) : List (StationState × Nat) × List (StationState × Nat) :=
      ((after (.stationSuspect 5) s).slc.dir.map (fun e => (e.state, e.streak)),
        (after (.stationExcluded 5) s).slc.dir.map (fun e => (e.state, e.streak)))
    rows (enrolled .enrolled 2) = ([(.suspect, 3)], [(.enrolled, 2)])
      ∧ rows (enrolled .enrolled 7) = ([(.enrolled, 7)], [(.excluded, 8)])
      ∧ rows (enrolled .enrolled 5) = ([(.suspect, 6)], [(.enrolled, 5)])
      ∧ rows (enrolled .suspect 9) = ([(.suspect, 9)], [(.excluded, 10)])
      ∧ rows (enrolled .enrolled 255) = ([(.enrolled, 255)], [(.enrolled, 255)]) := by decide

theorem test_witness_LoopScanBeginsAndEnrols :
    CanTake loopUp ∧ deferredUnsent loopUp = false ∧ (after (.loopScan 1) loopUp).slc.scan = some ⟨1, false, 0, 0, 0⟩
      ∧ (let h : Heard := ⟨.takenReady, true, 0x1003⟩; h.outcome = .takenReady ∧ identityKind h.data = kindCode .inverter)
      ∧ loopUp.slc.dir.length < 32
      ∧ 32 ≤ { loopUp with slc.dir := List.replicate 32 (stationOf .enrolled 0) }.slc.dir.length
      ∧ (∀ k : Kind, identityKind 0x5003 ≠ kindCode k)
      ∧ (Heard.bare .untaken).outcome = .untaken ∧ (Heard.bare .noReply).outcome = .noReply :=
  ⟨can _ rfl, rfl, by decide, by decide, by decide, by decide, by intro k; cases k <;> decide, rfl, rfl⟩

theorem test_witness_QueuedRequestsCheckInOrder :
    CanTake loopUp ∧ CanTake (enrolled .excluded 8) ∧ isExcluded 5 (enrolled .excluded 8) = true
      ∧ deferredUnsent loopUp = false ∧ deferredUnsent (enrolled .excluded 8) = false :=
  ⟨can _ rfl, can _ rfl, by decide, rfl, rfl⟩

theorem test_queued_requests_and_their_refusals :
    (after (.stationReinstate 1 5) (enrolled .excluded 8)).slc.queue.length = 1
      ∧ (after (.stationReinstate 1 48) halted).hli.tx.getLast? = some (.reply false 0x8F 1 (.refused .range .field 1))
      ∧ (after (.loopExchange 1 5 7 1 16 0) loopUp).hli.tx.getLast?
        = some (.reply false 0x8E 1 (.refused .range .identityChannel 5))
      ∧ ((after (.loopExchange 1 5 0 1 16 0x12345) loopUp).slc.queue.map (·.data)) = [0x2345]
      ∧ ((after (.loopExchange 1 47 7 0 32 0x12345) loopUp).slc.queue.map (·.data)) = [0] := by decide

/-! #### Frames, passes and the service queue -/

def runningFrame (ph : Phase) : State := { driving with slc.phase := ph }

theorem test_witness_FrameStartBeginsTheNextFrame :
    (Live halted ∧ halted.slc.frameTimer = false)
      ∧ (let s : State := { runningFrame .idle with slc.firstFrame := true }
        Live s ∧ s.slc.frameTimer = true ∧ s.slc.firstFrame = true ∧ s.slc.phase = .idle)
      ∧ (let s := runningFrame .acq;
        Live s ∧ s.slc.frameTimer = true ∧ s.slc.firstFrame = false ∧ s.slc.phase ≠ .idle ∧ s.slc.phase ≠ .done) := by
  unfold Live
  decide

def acqTurn (m : Settle) : State := passing .acq (entryOn .read m 1) driving

/-- The turn of a SPAN entry over addresses 5 and 6, with station 5 EXCLUDED. -/
def spanTurn : State :=
  { passing .acq { entryOn .read .span 1 with span := 2 } driving with slc.dir := [stationOf .excluded 8] }

def barred (it : Item) (its : List Item) : State :=
  { enrolled .excluded 8 with slc.queue := it :: its, hli.deferred := some ⟨.loopExchange, 4⟩ }

/-- The clauses of SlotStartsServeEntriesAndTheHead about a head whose station is EXCLUDED. -/
theorem test_witness_ExcludedHeadLeavesWithoutASlot :
    (∀ c : Claimant, let s := barred (waiting c 5) [waiting .gridCheck 6];
        Live s ∧ s.slc.loopState = .up ∧ s.slc.slot = none ∧ s.slc.queue = waiting c 5 :: [waiting .gridCheck 6]
          ∧ s.slc.held = [] ∧ (waiting c 5).discard = false ∧ isExcluded 5 s = true ∧ s.dsc.gov = .halted
          ∧ s.slc.scan = none ∧ s.hli.deferred = some ⟨.loopExchange, 4⟩ ∧ isExcluded 6 s = false)
      ∧ (let s := { barred (waiting .gridCheck 5) [] with rgv.check.run := some (gridRun .a .a 0 .act) };
        s.rgv.check.run = some (gridRun .a .a 0 .act))
      ∧ (let r : SteerRun := { steerRun .isolate none 0 with addr := 5 }
        let s := { barred (waiting .steerCheck 5) [] with sgv.run := some r };
        s.sgv.run = some r ∧ r.phase = .isolate ∧ r.pending = none ∧ r.addr = (waiting .steerCheck 5).addr) := by
  refine ⟨fun c => ?_, rfl, rfl, rfl, rfl, rfl⟩
  cases c <;> exact ⟨rfl, by decide⟩

theorem test_excluded_head :
    let t := after .exchangeStart (barred (waiting .loopExchange 5) [waiting .gridCheck 6])
    (t.slc.slot.map (·.addr), t.slc.queue.map (·.addr), t.hli.deferred.isNone, t.hli.tx.length) = (some 6, [6], true, 2)
      ∧ (after .exchangeStart { barred (waiting .steerCheck 5) [] with
          sgv.run := some { steerRun .isolate none 0 with addr := 5 } }).sgv.result.outcome = .aborted := by decide

/-- The clauses of BudgetExhaustionEndsThePass about an entry marked CORRUPT since the pass read it. -/
theorem test_witness_CorruptEntryAtBudgetExhaustion :
    let c : State := { acqTurn .strict with
      slc.slots := 32
      slc.acq := driving.slc.acq.set 0 ⟨{ entryOn .read .strict 1 with corrupt := true }, []⟩ }
    let d : State := { c with slc.acq := c.slc.acq.set 63 ⟨entryOn .read .strict 2, []⟩ }
    let behind (s : State) : List Nat := (List.range' s.slc.passIdx (64 - s.slc.passIdx)).filter
      (fun j => due .read s.slc.frameNo (entryAt j s))
    (Live c ∧ c.slc.phase = .acq ∧ c.slc.run = some (turnOf (entryOn .read .strict 1)) ∧ c.slc.slot = none
        ∧ c.hli.force.acqBudget ≤ c.slc.slots ∧ (turnOf (entryOn .read .strict 1)).begun = false
        ∧ (entryAt 0 c).corrupt = true ∧ (∀ p ∈ c.slc.acq, p.flips = []) ∧ behind c = [])
      ∧ (Live d ∧ (∀ p ∈ d.slc.acq, p.flips = []) ∧ behind d = [] ++ 63 :: [] ∧ (entryAt 0 d).corrupt = true
        ∧ (entryAt 63 d).corrupt = false ∧ d.slc.loopLost = false ∧ allExcluded (entryAt 63 d) d = false)
      ∧ (let t := after .budgetExhaustion d
        (t.slc.delivery.map (fun x => (x.entry, x.result)), t.hli.counters.entriesSkipped.val, t.hli.firstSkipped)
          = ([(0, .missed .corrupt), (63, .missed .budget)], 2, some 63)) := by
  unfold Live
  decide

/-- R177, R49: with the budget used up, an entry marked CORRUPT since the pass read it is skipped as CORRUPT, and no overrun
is latched for it. -/
theorem test_corrupt_entry_at_budget_exhaustion :
    let s := acqTurn .strict
    let c : State := { s with
      slc.slots := s.hli.force.acqBudget
      slc.acq := s.slc.acq.set 0 ⟨{ entryOn .read .strict 1 with corrupt := true }, []⟩ }
    let t := after .budgetExhaustion c
    (t.slc.phase, standing .passOverrun t, t.hli.firstSkipped, t.slc.delivery.map (·.result))
        = (.acqEnded, false, none, [.missed .corrupt])
      ∧ ((after .loopEdgeTimeout c).slc.delivery.map (·.result)) = [.missed .corrupt] := by decide

theorem test_witness_SlotStartsServeEntriesAndTheHead :
    (let s := acqTurn .strict; let e := entryOn .read .strict 1;
      Live s ∧ s.dsc.gov ≠ .halted ∧ s.slc.loopState = .up ∧ s.slc.slot = none ∧ s.slc.phase = .acq
        ∧ s.slc.run = some (turnOf e) ∧ s.slc.slots < s.hli.force.acqBudget ∧ (entryAt 0 s).corrupt = false
        ∧ e.settle ≠ .span ∧ isExcluded e.addr s = false)
      ∧ (let s := spanTurn; let e := { entryOn .read .span 1 with span := 2 };
        Live s ∧ s.dsc.gov ≠ .halted ∧ s.slc.loopState = .up ∧ s.slc.slot = none ∧ s.slc.phase = .acq
          ∧ s.slc.run = some (turnOf e) ∧ s.slc.slots < s.hli.force.acqBudget ∧ (entryAt 0 s).corrupt = false
          ∧ e.settle = .span ∧ 1 < e.span ∧ isExcluded (e.addr + 1) s = false ∧ isExcluded (e.addr + 0) s = true)
      ∧ (let s : State := { acqTurn .strict with
          slc.acq := driving.slc.acq.set 0 ⟨{ entryOn .read .strict 1 with corrupt := true }, []⟩ }
        (entryAt 0 s).corrupt = true ∧ 0 < s.slc.passIdx)
      ∧ (∀ c : Claimant, let s : State := { runningFrame .service with slc.queue := [waiting c 5] }
        Live s ∧ s.slc.loopState = .up ∧ s.slc.slot = none ∧ s.slc.queue = waiting c 5 :: []
          ∧ isExcluded 5 s = false ∧ s.slc.phase = .service ∧ s.dsc.gov ≠ .halted
          ∧ s.slc.slots < s.hli.force.serviceBudget)
      ∧ (let s : State := { enrolled .excluded 8 with slc.queue := [waiting .reinstate 5] }
        Live s ∧ s.slc.loopState = .up ∧ s.slc.slot = none ∧ s.slc.queue = waiting .reinstate 5 :: []
          ∧ s.dsc.gov = .halted ∧ s.slc.scan = none)
      ∧ (let s : State := { loopUp with slc.scan := some ⟨47, false, 0, 0, 46⟩ }
        Live s ∧ s.slc.loopState = .up ∧ s.slc.slot = none ∧ s.dsc.gov = .halted
          ∧ s.slc.scan = some ⟨47, false, 0, 0, 46⟩) := by
  refine ⟨by unfold Live; decide, by unfold Live; decide, by decide, ?_, by unfold Live; decide, by unfold Live; decide⟩
  intro c
  unfold Live
  cases c <;> decide

theorem test_slots_serve_spans_probes_and_no_corrupt_entry :
    (after .exchangeStart spanTurn).slc.slot.map (·.addr) = some 6
      ∧ (after .exchangeStart { enrolled .excluded 8 with slc.queue := [waiting .reinstate 5] }).slc.slot.map (·.addr) = some 5
      ∧ (after .exchangeStart { acqTurn .strict with
          slc.acq := driving.slc.acq.set 0 ⟨{ entryOn .read .strict 1 with corrupt := true }, []⟩ }).slc.slot = none := by
  decide

/-- R21, R23: idle words with no exchange in its slot, and after a command in its slot. -/
theorem test_loop_out :
    loopOut 0 driving = 0x0F0F
      ∧ (let s : State := { driving with slc.slot := some (slotOf .service) }
        (loopOut 0 s, loopOut 3 s) = (0x8500, 0x0F0F)) := by decide

def dispatchTurn (gov : Gov) (sig : Nat) (v : Int) : State :=
  { passing .dispatch (entryOn .write .strict sig) driving with
    dsc.gov := gov
    out := { Outputs.initial with tcL := ⟨v, some 0⟩, tcR := ⟨v, none⟩, mdL := ⟨v, some 0⟩, mdR := ⟨v, some 0⟩ } }

def dispatchReady (s : State) : Bool :=
  !s.pins.reset && s.dsc.gov != .halted && s.slc.loopState == .up && s.slc.slot.isNone && s.slc.phase == .dispatch
    && decide (s.slc.slots < s.hli.force.dispatchBudget)
    && s.slc.run.any (fun r => !(entryAt r.entry s).corrupt && r.e.settle != .span && !isExcluded r.e.addr s)

theorem test_witness_DispatchClampChangesOnlyTheValueSent :
    dispatchReady (dispatchTurn .drive 40 500) = true ∧ dispatchReady (dispatchTurn .drive 44 500) = true
      ∧ dispatchReady (dispatchTurn .safeHold 40 1) = true ∧ dispatchReady (dispatchTurn .safeHold 41 0) = true
      ∧ dispatchReady (dispatchTurn .standby 41 (-500)) = true ∧ dispatchReady (dispatchTurn .safeHold 42 5) = true
      ∧ dispatchReady (dispatchTurn .standby 43 6) = true
      ∧ (dispatchTurn .safeHold 40 1).out.tcL.frame = some (dispatchTurn .safeHold 40 1).slc.frameNo
      ∧ (dispatchTurn .safeHold 41 0).out.tcR.frame ≠ some (dispatchTurn .safeHold 41 0).slc.frameNo := by decide

theorem test_clamped_values :
    let sent := fun g sig v => (after .exchangeStart (dispatchTurn g sig v)).slc.slot.map (·.data)
    (sent .drive 40 500, sent .safeHold 40 500, sent .safeHold 40 (-1), sent .standby 40 (-1))
        = (some 500, some 0, some 65535, some 0)
      ∧ (sent .drive 42 5, sent .safeHold 42 5, sent .safeHold 42 6, sent .standby 42 6)
        = (some 5, some 4, some 6, some 4) := by decide

def inSlot (m : Settle) (used : Nat) : State :=
  { acqTurn m with
    slc.slot := some (slotOf (.acq 0)), slc.dir := [stationOf .enrolled 0]
    slc.run := some { turnOf (entryOn .read m 1) with begun := true, used := used } }

def spanRun (offset : Nat) : Run :=
  { turnOf { entryOn .read .span 1 with span := 3 } with begun := true, offset := offset }
def writeRun : Run := turnOf (entryOn .write .strict 40)

theorem test_witness_RunsEndByTheirSettleMode :
    (let s := inSlot .lenient 0;
      Live s ∧ s.slc.phase = .acq ∧ s.slc.slot = some (slotOf (.acq 0)) ∧ s.slc.run.map (·.entry) = some 0
        ∧ heardReply (slotOf (.acq 0)) (soundWords 0xC5C0 7) = some ⟨.takenReady, true, 7⟩
        ∧ heardReply (slotOf (.acq 0)) (soundWords 0xC580 7) = some ⟨.takenNotReady, false, 7⟩
        ∧ heardReply (slotOf (.acq 0)) (soundWords 0xC500 7) = some ⟨.untaken, false, 7⟩
        ∧ heardReply (slotOf (.acq 0)) (soundWords 0xC6C0 7) = some (.bare .check)
        ∧ (entryOn .read .lenient 1).func = .read ∧ isInput (entryOn .read .lenient 1).signal = true)
      ∧ (let s := inSlot .strict 0;
        Live s ∧ s.slc.phase = .acq ∧ stationAt 5 s = some (stationOf .enrolled 0)
          ∧ (stationOf .enrolled 0).streak + 1 < s.hli.force.streakSuspect
          ∧ s.hli.force.streakSuspect < s.hli.force.streakExclude ∧ s.hli.force.streakExclude ≤ 255
          ∧ (stationOf .enrolled 0).total < 65535 ∧ (entryOn .read .strict 1).settle = .strict)
      ∧ (let s := inSlot .persist 0;
        Live s ∧ s.slc.run.map (fun r => (r.e.settle, r.e.retry, r.used)) = some (.persist, 0, 0) ∧ lastAllowed s = true
          ∧ (0 : Nat) < { entryOn .read .persist 1 with retry := 1 }.retry ∧ isExcluded 5 s = false)
      ∧ lastAllowed halted = false
      ∧ (let s : State := { inSlot .span 0 with slc.run := some (spanRun 0) }
        Live s ∧ s.slc.slot = some (slotOf (.acq 0)) ∧ s.slc.run = some (spanRun 0) ∧ (spanRun 0).e.settle = .span
          ∧ (spanRun 0).offset < 2 ∧ 2 < (spanRun 0).e.span ∧ (spanRun 0).e.addr + 2 ≠ (slotOf (.acq 0)).addr
          ∧ isExcluded ((spanRun 0).e.addr + 2) s = false ∧ (spanRun 2).e.span ≤ (spanRun 2).offset + 1)
      ∧ (let s : State := { runningFrame .dispatch with slc.slot := some (slotOf (.dispatch 0)), slc.run := some writeRun }
        Live s ∧ s.slc.phase = .dispatch ∧ s.slc.slot = some (slotOf (.dispatch 0))
          ∧ (slotOf (.dispatch 0)).claim = .dispatch writeRun.entry ∧ s.slc.run = some writeRun
          ∧ heardReply (slotOf (.dispatch 0)) (soundWords 0xC500 7) = some ⟨.untaken, false, 7⟩) := by
  unfold Live
  decide

theorem test_span_and_persist_runs_go_on :
    let untaken := soundWords 0xC500 7
    let s : State := { inSlot .span 0 with slc.run := some (spanRun 0) }
    (after (.exchangeComplete untaken) s).slc.run.map (·.offset) = some 1
      ∧ (after (.exchangeComplete untaken) { s with slc.run := some (spanRun 2) }).slc.delivery.map (·.result)
        = [.missed .untaken]
      ∧ (after (.exchangeComplete (soundWords 0xC580 7)) { inSlot .persist 0 with
          slc.run := some { turnOf { entryOn .read .persist 1 with retry := 1 } with begun := true } }).slc.run.isSome
        = true := by decide

theorem test_runs_end :
    ((after (.exchangeComplete (soundWords 0xC5C0 7)) (inSlot .strict 0)).slc.delivery.map (·.result)
        = [.delivered 7])
      ∧ ((after (.exchangeComplete (soundWords 0xC580 7)) (inSlot .strict 0)).slc.delivery.map (·.result)
        = [.missed .notReady])
      ∧ ((after (.exchangeComplete (soundWords 0xC580 7)) (inSlot .lenient 0)).slc.delivery.map (·.result)
        = [.delivered 7])
      ∧ ((after .slotTimeout (inSlot .strict 0)).slc.delivery.map (·.result) = [.missed .noReply])
      ∧ ((after .persistRetryExhausted (inSlot .persist 0)).slc.delivery.map (·.result) = [.missed .notReady]) := by decide

theorem test_witness_PassesEndAndBeginAtTheirEvents :
    (Live halted ∧ budgetUsedUp halted = false)
      ∧ (let s : State := { acqTurn .strict with slc.slots := 32 }
        Live s ∧ s.slc.phase = .acq ∧ s.slc.run = some (turnOf (entryOn .read .strict 1)) ∧ s.slc.slot = none
          ∧ s.hli.force.acqBudget ≤ s.slc.slots ∧ ∀ p ∈ s.slc.acq, p.flips = [])
      ∧ (let s : State := { passing .dispatch (entryOn .write .strict 40) driving with slc.slots := 32 }
        Live s ∧ s.slc.phase = .dispatch ∧ s.slc.run = some writeRun ∧ s.slc.slot = none
          ∧ s.hli.force.dispatchBudget ≤ s.slc.slots)
      ∧ (Live halted ∧ halted.slc.phase = .idle)
      ∧ (Live (runningFrame .acqEnded) ∧ (runningFrame .acqEnded).slc.markReached = false)
      ∧ (let s : State := { runningFrame .published with slc.acq := driving.slc.acq.set 0 ⟨writeRun.e, []⟩ }
        Live s ∧ s.slc.markReached = false ∧ (∀ p ∈ s.slc.acq, p.flips = [])
          ∧ (after .dispatchMarkReached s).slc.run = some writeRun)
      ∧ { runningFrame .published with slc.markReached := true }.slc.markReached = true := by
  unfold Live
  decide

theorem test_budget_skips_the_entries_behind :
    let two : State := { acqTurn .strict with
      slc.slots := 32
      slc.acq := (acqTurn .strict).slc.acq.set 63 ⟨{ entryOn .read .strict 2 with corrupt := true }, []⟩ }
    let t := after .budgetExhaustion two
    (t.slc.delivery.map (fun d => (d.entry, d.result)), t.hli.counters.entriesSkipped.val, t.hli.firstSkipped)
        = ([(0, .missed .budget), (63, .missed .corrupt)], 2, some 0)
      ∧ (after .budgetExhaustion { passing .dispatch (entryOn .write .strict 40) driving with slc.slots := 32 }).slc.phase
        = .done := by decide

theorem test_witness_LoopLossSparesTheStations :
    (Live halted ∧ halted.slc.loopState = .down) ∧ (Live (syncing 5) ∧ (syncing 5).slc.loopState = .syncing)
      ∧ (let s : State := { inSlot .strict 0 with slc.held := [waiting .gridCheck 6] }
        Live s ∧ s.slc.loopState = .up ∧ ∀ it ∈ s.slc.held, it.claimant ≠ .reinstate) := by
  unfold Live
  decide

/-- A steering supply check in phase RELEASE with its release ACT in the slot. -/
def releasing : State :=
  { resting with
    sgv.run := some (steerRun .release (some (.pass, .none)) 20)
    slc.queue := [{ waiting .steerCheck 9 with started := true }], slc.slot := some (slotOf .service) }

/-- The clause of LoopLossSparesTheStations about a release in its slot. -/
theorem test_witness_ReleaseInItsSlotAtLoopLoss :
    Live releasing ∧ releasing.slc.loopState = .up ∧ (∀ it ∈ releasing.slc.held, it.claimant ≠ .reinstate)
      ∧ releasing.sgv.run = some (steerRun .release (some (.pass, .none)) 20)
      ∧ releasing.slc.slot = some (slotOf .service) ∧ (slotOf .service).claim = .service
      ∧ releasing.slc.queue = [{ waiting .steerCheck 9 with started := true }]
      ∧ ({ waiting .steerCheck 9 with started := true } : Item).discard = false := by
  unfold Live
  decide

theorem test_release_in_its_slot_at_loop_loss :
    let t := after .loopEdgeTimeout releasing
    (t.sgv.result.outcome, t.sgv.result.cause, t.sgv.result.unconfirmed) = (.aborted, .loopDown, true) := by decide

theorem test_loop_loss_charges_no_station :
    (after .loopEdgeTimeout (inSlot .strict 0)).slc.dir = [stationOf .enrolled 0]
      ∧ (after .loopEdgeTimeout (inSlot .strict 0)).slc.slot = none := by decide

def answering : State :=
  { loopUp with
    slc.queue := [{ waiting .loopExchange 5 with started := true }], slc.slot := some (slotOf .service)
    hli.deferred := some ⟨.loopExchange, 9⟩ }

def probeSlot : SlotEx := ⟨.service, 5, 7, .read, false, 0, false, false⟩
def probing : State :=
  { enrolled .excluded 8 with
    slc.queue := [waiting .reinstate 5], slc.slot := some probeSlot, hli.deferred := some ⟨.reinstate, 9⟩ }

theorem test_witness_ServiceItemsCompleteAndJoin :
    (Live answering ∧ answering.dsc.gov = .halted ∧ answering.slc.phase = .idle
        ∧ answering.slc.slot = some (slotOf .service)
        ∧ answering.slc.queue = { waiting .loopExchange 5 with started := true } :: [] ∧ answering.slc.held = []
        ∧ heardReply (slotOf .service) (soundWords 0xC5C0 7) = some ⟨.takenReady, true, 7⟩
        ∧ answering.hli.deferred = some ⟨.loopExchange, 9⟩ ∧ stationAt 5 answering = none)
      ∧ (Live probing ∧ probing.dsc.gov = .halted ∧ probing.slc.phase = .idle ∧ probing.slc.slot = some probeSlot
        ∧ probeSlot.claim = .service ∧ probing.slc.queue = waiting .reinstate 5 :: [] ∧ probing.slc.held = []
        ∧ probing.hli.deferred = some ⟨.reinstate, 9⟩ ∧ stationAt 5 probing = some (stationOf .excluded 8)
        ∧ heardReply probeSlot (soundWords 0xC5C0 0x1007) = some ⟨.takenReady, true, 0x1007⟩
        ∧ (0x1007 : Nat) / 4096 % 16 = kindCode .inverter ∧ (0x2007 : Nat) / 4096 % 16 ≠ kindCode .inverter
        ∧ heardReply probeSlot (soundWords 0xC580 7) = some ⟨.takenNotReady, false, 7⟩)
      ∧ Live { halted with slc.held := [waiting .gridCheck 6] } := by
  unfold Live
  decide

theorem test_loop_exchange_is_answered :
    (after (.exchangeComplete (soundWords 0xC5C0 7)) answering).hli.tx.getLast?
      = some (.reply true 0x8E 9 (.done [0, 1, 0, 0, 0, 7])) := by decide

theorem test_reinstate_probe :
    let t := after (.exchangeComplete (soundWords 0xC5C0 0x1007)) probing
    t.slc.dir = [{ stationOf .enrolled 0 with revision := 7 }] ∧ t.hli.deferred = none ∧ t.slc.queue = []
      ∧ (after (.exchangeComplete (soundWords 0xC5C0 0x2007)) probing).slc.dir = [stationOf .excluded 8]
      ∧ (after .slotTimeout probing).slc.dir.map (fun e => (e.state, e.streak)) = [(.excluded, 9)] := by decide

theorem test_held_item_joins :
    (after .heldItemJoin { halted with slc.held := [waiting .gridCheck 6] }).slc.queue = [waiting .gridCheck 6] := by decide

/-! #### Screening, the image and publication -/

theorem test_witness_HoldPathKeepsWithinTheAllowance :
    (imageOf .fresh 7 255).quality = .fresh ∧ (imageOf .absent 7 0).quality = .absent ∧ (imageOf .bad 7 3).quality = .bad
      ∧ holdAllowance 1 = 2 ∧ (imageOf .fresh 7 0).heldCount = 0 ∧ (holdPath 1 (imageOf .fresh 7 255)).heldCount = 255 := by
  decide

theorem test_witness_SignalsAreSubstitutedKeptOrTurnedBad :
    (1 ≤ holdAllowance 1 ∧ (imageOf .held 7 0).heldCount + 1 ≤ holdAllowance 1)
      ∧ holdAllowance 1 < (imageOf .held 7 2).heldCount + 1
      ∧ ((imageOf .subst 7 0).quality = .subst ∧ (imageOf .subst 7 0).partner = some 2)
      ∧ ((imageOf .absent 7 0).heldCount = 0 ∧ (imageOf .absent 7 1).heldCount ≠ 0)
      ∧ (let s : State := { driving with sgs.image := driving.sgs.image.set 33 ⟨imageOf .held 7 8, []⟩ };
        Live s ∧ isInput 34 = true ∧ s.sgs.image[34 - 1]? = some ⟨imageOf .held 7 8, []⟩
          ∧ (imageOf .held 7 8).quality ≠ .bad ∧ (imageOf .held 7 8).heldCount = holdAllowance 34) := by
  unfold Live
  decide

theorem test_hold_allowance_exceeded :
    let s : State := { driving with sgs.image := driving.sgs.image.set 0 ⟨imageOf .held 7 2, []⟩ }
    ((after (.holdAllowanceExceeded 1) s).sgs.image.map (fun p => (p.val.quality, p.val.latchedBad, p.val.value))).head?
      = some (.bad, true, 7) := by decide

def screened (e : ScreenEntry) : State := { driving with sgs.screen := driving.sgs.screen.set 95 ⟨e, []⟩ }
def rangeEntry : ScreenEntry := ⟨true, 3, .range, -5, 5, 0, .hold, 0, false⟩
def deliveryOf (v : Int) : Delivery := ⟨0, 3, 1, .delivered v⟩

theorem test_witness_DeliveriesAreScreenedByTheTable :
    (rangeEntry.test = .range ∧ { rangeEntry with test := .step }.test = .step
        ∧ { rangeEntry with test := .agree }.test = .agree)
      ∧ deliveredFor [deliveryOf 6] 3 = some 6 ∧ deliveredFor [] 3 = none
      ∧ (entryOf [imageOf .kept 1 0] 1).quality.usable = true ∧ (entryOf [] 1).quality.usable = false
      ∧ (∀ p ∈ driving.sgs.screen, p.val.valid = true → p.val.signal ≠ 3)
      ∧ (95 < 96 ∧ (screened rangeEntry).sgs.screen[95]? = some ⟨rangeEntry, []⟩ ∧ rangeEntry.valid = true
        ∧ rangeEntry.signal = 3 ∧ rangeEntry.corrupt = false ∧ (screened rangeEntry).imn.screen.inject = .none
        ∧ (∀ j, j < 96 → j ≠ 95 → (screened rangeEntry).sgs.screen[j]?.any (fun p => p.val.valid) = false))
      ∧ testPasses [] [deliveryOf 5] rangeEntry 3 5 = true ∧ testPasses [] [deliveryOf 6] rangeEntry 3 6 = false := by
  decide

/-- Signal 1 from -5 to 5: the bytes of the entry as table 2 lays them out. -/
def rangeBytes : List Byte := [0x80, 0x01, 0x00, 0x00, 0xFF, 0xFB, 0x00, 0x05, 0x00, 0x00, 0x00, 0x00]

def editing : State := { driving with hli.cursor := ⟨2, 95, .none⟩ }

/-- The clause of DeliveriesAreScreenedByTheTable about an edit. -/
theorem test_witness_ScreeningEntryEdit :
    CanTake editing ∧ editing.hli.cursor.table = 2 ∧ editing.hli.cursor.index < 96 ∧ editing.hli.cursor.mode = .none
      ∧ editing.imn.screen.inject = .none ∧ editing.sgs.screen.length = 96 ∧ rangeBytes.length = 12
      ∧ (let e := decodeScreen rangeBytes
        e.valid = true ∧ e.signal = 1 ∧ isInput e.signal = true ∧ e.test = .range ∧ e.action = .hold ∧ e.low = -5
          ∧ e.high = 5 ∧ e.low ≤ e.high ∧ e.partner = 0) := by
  exact ⟨can _ rfl, by decide⟩

theorem test_screening_edit_in_drive :
    (after (.tableWrite 1 rangeBytes) editing).sgs.screen[95]?.map (fun p => (p.val.valid, p.val.signal, p.val.low))
      = some (true, 1, -5) := by decide

theorem test_rejected_delivery_counts :
    let s := screened rangeEntry
    let r := screenSignal (List.replicate 34 (imageOf .fresh 4 0)) [deliveryOf 6] (screenContent s) 3 s
    (r.1.quality, r.1.heldCount, r.1.value) = (.held, 1, 4) ∧ r.2.hli.counters.screenRejects.val = 1
      ∧ r.2.sgs.screen[95]?.map (·.val.failCount) = some 1 := by decide

theorem test_witness_SignalReadClearsTheMarksItNames :
    CanTake halted ∧ 16 < (List.replicate 17 (1 : Byte)).length
      ∧ ([(1 : Byte), 35].map (·.toNat)).find? (fun n => !inCatalog n) = some 35
      ∧ ∀ n ∈ (List.replicate 16 (70 : Byte)).map (·.toNat), inCatalog n = true := by
  exact ⟨can _ rfl, by decide, by decide, by decide⟩

theorem test_signal_read_checks :
    (after (.signalRead 1 []) halted).hli.tx.getLast? = some (.reply false 0x89 1 (.refused .format .length 9))
      ∧ (after (.signalRead 1 [1, 35]) halted).hli.tx.getLast? = some (.reply false 0x89 1 (.refused .range .signal 35)) := by
  decide

theorem test_witness_PublicationPublishesTheFrame :
    (Live halted ∧ halted.slc.phase ≠ .acqEnded ∧ budgetUsedUp halted = false)
      ∧ (Live (runningFrame .acqEnded) ∧ (runningFrame .acqEnded).slc.markReached = false
        ∧ (runningFrame .acqEnded).dsc.gov = .drive)
      ∧ (let s : State := { runningFrame .acqEnded with dsc.gov := .standby }; s.dsc.gov ≠ .drive) := by
  unfold Live
  decide

/-- A frame whose acquisition has ended, with deliveries that a RANGE entry rejects (signal 3), that two entries pass (signal
4), that a CORRUPT entry meets (signal 5), and a MISSED item (signal 6). -/
def screening : State :=
  { runningFrame .acqEnded with
    slc.delivery := [deliveryOf 6, { deliveryOf 7 with signal := 4 }, { deliveryOf 1 with signal := 5 },
      ⟨1, 6, 1, .missed .noReply⟩]
    sgs.screen := (((driving.sgs.screen.set 0 ⟨{ rangeEntry with signal := 4, high := 9 }, []⟩).set 1
      ⟨{ rangeEntry with signal := 5, corrupt := true }, []⟩).set 2 ⟨{ rangeEntry with signal := 4, high := 8 }, []⟩).set 95
      ⟨rangeEntry, []⟩ }

/-- The clauses of PublicationPublishesTheFrame about the image published and what is computed from it. -/
theorem test_witness_PublishedImage :
    Live screening ∧ TablesWhole screening ∧ screening.slc.phase = .acqEnded
      ∧ (∀ p ∈ screening.sgs.image, p.flips = []) ∧ (∀ p ∈ screening.sgs.screen, p.flips = [])
      ∧ screening.imn.image.inject = .none ∧ screening.imn.screen.inject = .none
      ∧ { screening with slc.markReached := true }.slc.markReached = true
      ∧ (let t := after .publication screening
        (([3, 4, 5, 6, 7].map (fun id => (entryOf (t.sgs.image.map (·.val)) id).quality))
              = [.absent, .fresh, .bad, .absent, .absent]
          ∧ ([3, 4, 5, 6, 7].map (fun id => (entryOf (t.sgs.image.map (·.val)) id).heldCount)) = [1, 0, 0, 1, 0]
          ∧ ([0, 1, 2, 95].map (fun j => (t.sgs.screen[j]?.map (·.val.failCount)).getD 0)) = [0, 1, 0, 1]
          ∧ t.hli.counters.screenRejects.val = 2 ∧ standing .signalBad t = true)) := by
  unfold Live TablesWhole
  decide

theorem test_publication_sets_the_image_frame :
    let s : State := { runningFrame .acqEnded with slc.frameNo := 9 }
    (after .publication s).sgs.imageFrame = 9 := by decide

/-- The image with the given wheel motor, front wheel and strut entries. -/
def imageWith (ws fs sp : ImageEntry) : List ImageEntry :=
  [ws, ws, fs, fs] ++ List.replicate 19 (imageOf .absent 0 0) ++ List.replicate 4 sp ++ List.replicate 7 (imageOf .absent 0 0)

theorem test_witness_DerivedSignalsAreDrawnFromTheImage :
    (let es := imageWith (imageOf .fresh (-16000) 0) (imageOf .kept 500 0) (imageOf .subst 14500 0);
      ([es.getD 2 .initial, es.getD 3 .initial].filter (·.quality.usable) ≠ [])
        ∧ (∀ e ∈ [es.getD 23 .initial, es.getD 24 .initial, es.getD 25 .initial, es.getD 26 .initial],
          e.quality.usable = true))
      ∧ (let es := imageWith (imageOf .fresh (-16000) 0) (imageOf .held 500 0) (imageOf .bad 14500 0);
        ([es.getD 2 .initial, es.getD 3 .initial].filter (·.quality.usable) = [])
          ∧ ([es.getD 0 .initial, es.getD 1 .initial].filter (·.quality.usable) ≠ [])
          ∧ (∃ e ∈ [es.getD 23 .initial, es.getD 24 .initial, es.getD 25 .initial, es.getD 26 .initial],
            e.quality.usable = false))
      ∧ (Live (runningFrame .acqEnded) ∧ (runningFrame .acqEnded).slc.phase = .acqEnded
        ∧ (runningFrame .acqEnded).imn.image.inject = .none)
      ∧ CanTake standby ∧ standby.dsc.gov = .standby :=
  ⟨by decide, by decide, by unfold Live; decide, can _ rfl, rfl⟩

/-- R76, R77: the spec's figures; at 1780 mm and a gear ratio of 32.0, 50.0 wheel rpm is 33.6 km/h. -/
theorem test_derived_signals :
    let g : Settings := { Settings.default with wheelRadius := 1780, gearRatio := 320, strutTare := 22000, payloadGain := 10 }
    let es := imageWith (imageOf .fresh 1600 0) (imageOf .fresh 500 0) (imageOf .fresh 14500 0)
    vspdOf g es ⟨0, .absent⟩ = ⟨336, .fresh⟩
      ∧ vspdOf g (imageWith (imageOf .fresh (-1600) 0) (imageOf .bad 500 0) (imageOf .fresh 0 0)) ⟨0, .absent⟩ = ⟨336, .subst⟩
      ∧ vspdOf g (imageWith (imageOf .fresh 0 0) (imageOf .subst (-4000) 0) (imageOf .fresh 0 0)) ⟨0, .absent⟩
        = ⟨2684, .subst⟩
      ∧ payloadOf g es ⟨0, .absent⟩ = ⟨3600, .fresh⟩ := by decide +kernel

/-! #### Envelope, derates and trips -/

theorem test_witness_ConditionsAriseAndGo :
    (imageOf .bad 0 0).quality.usable = false ∧ (imageOf .kept 0 0).quality.usable = true
      ∧ (let s : State := { driving with epu.pres.dcLinkCount := 1, epu.pres.overspeedCount := 19 };
        Live s ∧ s.dsc.gov ≠ .halted ∧ s.epu.pres.dcLinkCount = 1 ∧ s.epu.pres.dcLinkOver = false
          ∧ s.epu.pres.overspeedCount = 19 ∧ s.epu.pres.overspeed = false) := by
  unfold Live
  decide

/-- Inputs of an evaluation with one value and quality for every signal. -/
def inputs (q : Quality) (v : Int) : EvalIn :=
  let e := imageOf q v 0
  ⟨e, e, e, e, e, e, e, e, e, List.replicate 34 e, .fresh, some (none, some 7)⟩

/-- The clauses of ConditionsAriseAndGo about thresholds, capacities and the image. -/
theorem test_witness_ThresholdsOfTheTables :
    (inputs .bad 0).mtL.quality.usable = false ∧ (inputs .kept 1501).mtL.quality.usable = true
      ∧ 1500 < (inputs .kept 1501).mtL.value ∧ (inputs .kept 1449).mtL.value < 1450
      ∧ ¬1500 < (inputs .kept 1500).mtL.value ∧ ¬(inputs .kept 1450).mtL.value < 1450
      ∧ 2850 < (inputs .kept 2851).vdc.value ∧ ¬2850 < (inputs .kept 2850).vdc.value
      ∧ (let s : State := { driving with rgv.cond := some ⟨51000, 0, 60000, 0, true, true⟩ };
        ∃ c, s.rgv.cond = some c ∧ 0 < c.emaxA ∧ 85 * c.emaxA ≤ 100 * c.energyA ∧ c.emaxB ≤ 0)
      ∧ driving.rgv.cond = none ∧ (∀ q ∈ driving.sgs.image, q.flips = []) :=
  ⟨rfl, rfl, by decide, by decide, by decide, by decide, by decide, by decide, ⟨_, rfl, by decide⟩, rfl, by decide⟩

/-- R85: MT_L at 165.0 degrees gives 65.0 %, a grid at 51 MJ of 60 MJ 50.0 km/h; R86, R87: thresholds included or not. -/
theorem test_conditions_at_their_thresholds :
    let s : State := { driving with rgv.cond := some ⟨51000, 0, 60000, 0, true, true⟩ }
    let p (v : Int) := nextPresences (inputs .fresh v) s
    (motorHotLimit 1650, gridHeatLimit 51000 60000, inverterHotLimit 950) = (650, 500, 400)
      ∧ ((p 1500).motorHotL, (p 1501).motorHotL, (p 1899).motorTripL, (p 1900).motorTripL) = (false, true, false, true)
      ∧ ((p 699).gridTripA, (p 700).gridTripA, (p 2850).dcLinkCount, (p 2851).dcLinkCount) = (false, true, 0, 1)
      ∧ (p 0).gridHeat = true
      ∧ ((tripViews (inputs .fresh 0) (p 0) s).filter (·.present)).map (fun v => (v.cause, v.detail)) = [(.screenFault, 7)]
      ∧ ((keyViews (inputs .bad 0) (p 0) s).filter (·.present)).map (fun k => (k.cause, k.limit))
        = [(.tempUnknown, some 500), (.tempUnknown, some 500), (.gridHeat, some 500), (.ambientUnknown, some 400)] := by
  decide

theorem test_dc_link_over_at_its_second_evaluation :
    let s : State := { driving with epu.pres.dcLinkCount := 1 }
    (after (.conditionCountReached .dcLinkOver) s).epu.pres.dcLinkOver = true
      ∧ (after (.conditionCountReached .overspeed) s).epu.pres.overspeed = false := by decide

def motorKey (p : Bool) : KeyView := { cause := .motorHot, target := .left, kind := .propel, present := p, limit := some 700 }

theorem test_witness_DeratesAreMadeHeldAndRemoved :
    ((motorKey true).limit = some 700 ∧ (motorKey true).present = true ∧ (motorKey false).present = false)
      ∧ (∀ d ∈ ([] : List Derate), d.hasKey (motorKey true).cause (motorKey true).target = false)
      ∧ ((derate true 1).cause = (motorKey true).cause ∧ (derate true 1).target = (motorKey true).target)
      ∧ (let s : State := { driving with epu.derates := [] ++ derate true 1 :: [] };
        Live s ∧ s.dsc.gov ≠ .halted ∧ (derate true 1).holding = true ∧ (derate true 1).holdRemaining ≤ 1)
      ∧ (Live halted ∧ halted.dsc.gov = .halted) := by
  unfold Live
  decide

theorem test_derate_list_meets_a_key :
    (updateDerate 3 50 (motorKey true) []).map (·.limit) = [700]
      ∧ (updateDerate 3 50 (motorKey false) [derate false 0]).map (·.holdRemaining) = [50]
      ∧ (updateDerate 3 50 (motorKey false) [derate true 1]) = []
      ∧ (updateDerate 3 50 (motorKey true) [derate true 9]).map (fun d => (d.holding, d.limit)) = [(false, 700)]
      ∧ (updateDerate 3 50 { motorKey true with limit := none } [derate true 9]).map (fun d => (d.holding, d.limit))
        = [(false, 500)]
      ∧ (after (.derateHoldExpiry .motorHot .left) { driving with epu.derates := [derate true 1] }).epu.derates = [] := by
  decide

def tripView (p : Bool) : TripView := { cause := .overspeed, present := p, detail := 3 }

theorem test_witness_TripsAreRecordedAndRaised :
    (driving.epu.trips.find? (·.cause == (tripView true).cause) = none
        ∧ driving.epu.pendingSet.any (·.cause == (tripView true).cause) = false
        ∧ driving.epu.trips.countP (·.cause != .overflow) < 7)
      ∧ (let s : State := { driving with epu.trips := List.replicate 7 (trip .gridOvertempA false) };
        s.epu.trips.find? (·.cause == (tripView true).cause) = none
          ∧ 7 ≤ s.epu.trips.countP (·.cause != .overflow))
      ∧ ({ driving with epu.pendingSet := [⟨.overspeed, 1, 0⟩] }.epu.pendingSet.any (·.cause == (tripView true).cause) = true)
      ∧ (let s : State := { driving with epu.trips := [trip .stopLine false] ++ trip .overspeed true :: [] };
        s.epu.trips = [trip .stopLine false] ++ trip .overspeed true :: [] ∧ (trip .overspeed true).cause = (tripView true).cause
          ∧ (∀ x ∈ [trip .stopLine false] ++ [], x.cause ≠ (tripView true).cause) ∧ (trip .overspeed true).clearable = true)
      ∧ (driving.dsc.gov = .drive ∧ tripSevere .stopLine = true ∧ tripSevere .overspeed = false
        ∧ driving.hli.force.noticeMask.testBit 1 = true ∧ driving.hli.tx.countP (·.isNotice) < 6)
      ∧ (let s : State := { driving with trc.st := .running, trc.params := ⟨true, 16, 200, false⟩ }
        s.trc.params.capture = true ∧ s.trc.params.severeOnly = false ∧ s.trc.st = .running ∧ 0 < s.trc.params.post)
      ∧ { driving with trc.params := ⟨true, 16, 0, true⟩ }.trc.params.post = 0
      ∧ (let s : State := { driving with trc.st := .post, trc.marks := List.replicate 3 (1, .stopLine) }
        s.trc.st = .post ∧ s.trc.marks.length < 4)
      ∧ (4 ≤ { driving with trc.marks := List.replicate 4 (1, .stopLine) }.trc.marks.length) := by decide

theorem test_raise_reaches_the_recorder :
    let s (st : RecState) (post : Nat) : State :=
      { driving with trc.st := st, trc.params := ⟨true, 16, post, true⟩, trc.marks := List.replicate 4 (1, .stopLine) }
    let seen (t : State) := (t.trc.st, t.trc.postCount, t.trc.marks.length, t.trc.missed)
    seen (raise .stopLine (s .running 200)) = (.post, 200, 1, 0) ∧ seen (raise .stopLine (s .running 0)) = (.frozen, 0, 1, 0)
      ∧ seen (raise .overspeed (s .running 200)) = (.running, 0, 4, 0)
      ∧ seen (raise .stopLine (s .post 200)) = (.post, 0, 4, 1) := by decide

theorem test_severe_raise_takes_drive_to_safe_hold :
    (raise .stopLine driving).dsc.gov = .safeHold ∧ (raise .overspeed driving).dsc.gov = .drive
      ∧ (raise .steerSupply driving).sgv.result.outcome = .none := by decide

theorem test_witness_TripClearRemovesClearableRecords :
    CanTake halted ∧ tripCode .overspeed = (BitVec.ofNat 8 (tripCode .overspeed) : Byte).toNat
      ∧ ((0xFE : Byte) ≠ 0xFF ∧ ∀ c, tripCode c ≠ (0xFE : Byte).toNat) :=
  ⟨can _ rfl, by decide, by decide, by intro c; cases c <;> decide⟩

theorem test_trip_clear :
    let s : State := { standby with epu.trips := [trip .stopLine false, trip .overspeed true] }
    (after (.tripClear 1 0xFF) s).epu.trips = [trip .stopLine false]
      ∧ (after (.tripClear 1 0xFE) s).hli.tx.getLast? = some (.reply false 0x8C 1 (.refused .range .field 1)) := by decide

theorem test_witness_EnvelopeAndHaulPayload :
    hasTrip .payloadGross driving = false ∧ hasTrip .screenFault driving = false
      ∧ hasTrip .payloadGross { driving with epu.trips := [trip .payloadGross false] } = true
      ∧ (let s : State := { driving with epu.restCount := 49 };
        atRest s = false ∧ 0 < s.epu.restCount ∧ s.epu.restCount < 50)
      ∧ (let s : State := { driving with epu.restCount := 50, epu.restWindow := List.replicate 50 (3600, true) };
        atRest s = false ∧ 50 ≤ s.epu.restCount ∧ s.epu.restWindow.all (·.2) = true)
      ∧ (let s : State := { driving with epu.restCount := 50, epu.restWindow := List.replicate 50 (3600, false) };
        s.epu.restWindow.all (·.2) = false) := by decide

theorem test_envelope_of_one_derate :
    let s : State := { driving with epu.derates := [derate false 0] }
    ((buildEnvelope s).propelL, (buildEnvelope s).propelR, (buildEnvelope s).speedLimit) = (500, 1000, 640)
      ∧ (buildEnvelope { s with epu.trips := [trip .payloadGross false, trip .screenFault false] }).speedLimit = 100 := by decide

/-! #### Traction allocation and retarding -/

theorem test_witness_SlipStatesAndPersistence :
    ((10 * ((Settings.default.slipLimit : Nat) : Int) < 151 ∧ (0 : Int) < 1)
        ∧ ((-151 : Int) < -(10 * ((Settings.default.slideLimit : Nat) : Int)) ∧ (-1 : Int) < 0))
      ∧ ((74 : Int) < 5 * ((Settings.default.slipLimit : Nat) : Int) ∧ 5 * ((Settings.default.slipLimit : Nat) : Int) ≤ 75)
      ∧ ((-74 : Int) > -(5 * ((Settings.default.slideLimit : Nat) : Int)))
      ∧ (let s : State := { driving with tal.wheelL := ⟨.spin, 100, 19, false⟩, tal.wheelR := ⟨.spin, 100, 19, false⟩ };
        Live s ∧ s.dsc.gov ≠ .halted ∧ s.tal.wheelL.slip = .spin ∧ s.tal.wheelL.spinCount = 19
          ∧ s.tal.wheelL.persist = false ∧ s.tal.wheelR = s.tal.wheelL)
      ∧ (Live halted ∧ halted.dsc.gov = .halted) := by
  unfold Live
  decide

/-- The clauses of SlipStatesAndPersistence about measured slip. -/
theorem test_witness_SlipIsMeasured :
    [imageOf .bad 5 0, imageOf .absent 5 0].filter (·.quality.usable) = []
      ∧ [imageOf .fresh 5 0, imageOf .absent 5 0].filter (·.quality.usable) ≠ []
      ∧ (imageOf .held 5 0).quality.usable = false ∧ (imageOf .subst 5 0).quality.usable = true
      ∧ 0 < Settings.default.gearRatio ∧ (∀ q ∈ driving.sgs.image, q.flips = []) := by decide

/-- R112: the reference at 25.0 km/h and the wheel at 20.5 km/h are a slip of -18.0 %. -/
theorem test_slip :
    (slipOf (some 250) (some 205), slipOf (some 19) (some 205), slipOf (some 20) (some 0), slipOf none (some 1))
      = (some (-180), some 0, some (-1000), none) := by decide

theorem test_slip_states_at_their_limits :
    ((slipState .default 150 1 .grip 1000).1, (slipState .default 151 0 .grip 1000).1,
        (slipState .default (-151) (-1) .grip 1000).1) = (.grip, .grip, .slide)
      ∧ slipState .default 74 1 .spin 950 = (.recover, 1000) ∧ slipState .default 0 1 .recover 900 = (.recover, 950)
      ∧ slipState .default 0 1 .recover 950 = (.grip, 1000) := by decide

theorem test_slip_persist_event :
    let s : State := { driving with tal.wheelR := ⟨.spin, 100, 19, false⟩ }
    (after (.slipPersistSet .right) s).tal.wheelR.persist = true
      ∧ (after (.slipPersistSet .left) s).tal.wheelL.persist = false := by decide

theorem test_witness_WheelCommandIsBounded :
    ((0 : Int) ≤ 1000 ∧ (0 : Int) < 5 ∧ (0 : Int) ≤ 0 ∧ (0 : Int) ≤ 1000 ∧ (-1000 : Int) ≤ 1000)
      ∧ commandOf .drive false 300 300 1000 5 = 300 ∧ commandOf .drive false 3 (-300) 1000 5 = 0
      ∧ commandOf .drive false 300 0 1000 5 = 295 ∧ commandOf .drive false (-300) 0 1000 5 = -295
      ∧ commandOf .safeHold false 300 300 1000 5 = 0 ∧ commandOf .standby false 300 300 1000 5 = 0
      ∧ (∀ q ∈ driving.sgs.image, q.flips = []) := by decide

theorem test_targets :
    nextTravel false .forward .reverse = (.reverse, true) ∧ nextTravel true .forward .reverse = (.forward, false)
      ∧ (baseTorque .drive 300 500, baseTorque .safeHold 0 0, baseTorque .standby 300 500) = (-300, 0, 0)
      ∧ (yawSplit 500 (-100) true, yawSplit 500 (-100) false, yawSplit (-500) 100 true) = (550, 450, -450)
      ∧ (targetOf 900 800 700 500, targetOf (-900) 800 700 500) = (400, -350) := by decide

def talStaged : TalStaged := ⟨9, 100, 100, 5, 5, 0, 0, ⟨false, false, false⟩⟩
def rgvStaged : RgvStaged := ⟨9, 0, 500, 50, 50, 0, 0, 0, 0, ⟨0, 0, 60000, 60000, true, true⟩⟩
def sgvStaged : SgvStaged := ⟨9, 10, 1, ⟨false, false, false⟩⟩
def posting : State :=
  { driving with tal.staged := some talStaged, rgv.staged := some rgvStaged, sgv.staged := some sgvStaged }

theorem test_witness_PostingReplacesTheProducersOutputs :
    (Live posting ∧ posting.tal.staged = some talStaged ∧ posting.rgv.staged = some rgvStaged
        ∧ posting.sgv.staged = some sgvStaged)
      ∧ (Live halted ∧ halted.tal.staged = none ∧ halted.rgv.staged = none ∧ halted.sgv.staged = none) := by
  unfold Live
  decide

theorem test_postings :
    (after (.outputPosting .tal) posting).out.tcL = ⟨100, some 9⟩ ∧ (after (.outputPosting .tal) posting).out.rcap = .initial
      ∧ (after (.outputPosting .rgv) posting).out.rcap = ⟨500, some 9⟩
      ∧ (after (.outputPosting .sgv) posting).out.svCmd = ⟨10, some 9⟩ := by decide

def descending : Demand := ⟨.forward, 0, 0, 200, 0, false⟩
def holding (h : Hold) : Rgv := { Rgv.initial with hold := h, integ := 500, holdOut := 300 }

theorem test_witness_DescentHoldEngagesAndGoesOff :
    (descending.hold ≠ 0 ∧ descending.dir ≠ .neutral ∧ descending.propel = 0 ∧ Quality.fresh.usable = true
        ∧ (30 : Int) ≤ 30 ∧ Quality.held.usable = false)
      ∧ (holding .engaged).hold ≠ .off ∧ (holding .short).hold = .short ∧ Demand.initial.hold = 0
      ∧ (nextHold .drive .default 0 1000 descending ⟨30, .fresh⟩ (holding .off)).hold = .engaged
      ∧ (nextHold .drive .default 0 1000 descending ⟨29, .fresh⟩ (holding .off)).hold = .off
      ∧ (nextHold .standby .default 0 1000 descending ⟨30, .fresh⟩ (holding .short)).hold = .off
      ∧ (nextHold .drive .default 0 1000 descending ⟨30, .fresh⟩ (holding .engaged)).hold ≠ .off
      ∧ (nextHold .drive .default 0 1000 descending ⟨30, .fresh⟩ (holding .short)).hold ≠ .off := by decide

/-- R124: 1.0 km/h above the set speed at a feed-forward of 20.0 %, in a frame of 10 ms. -/
theorem test_hold_output :
    let r := nextHold .drive { Settings.default with framePeriod := 10 } 200 1000 descending ⟨210, .fresh⟩ (holding .engaged)
    (r.integ, r.holdOut) = (520, 305) := by decide

theorem test_witness_HoldShortComesAndGoesAtTen :
    (let r : Rgv := { holding .engaged with shortCount := 9 };
        r.hold = .engaged ∧ (299 : Int) < r.holdOut ∧ ((descending.hold : Nat) : Int) + 30 < 231 ∧ r.shortCount = 9)
      ∧ (let r : Rgv := { holding .short with engageCount := 9 }; r.hold = .short ∧ r.holdOut ≤ 300 ∧ r.engageCount = 9)
      ∧ (let s : State := { driving with rgv.hold := .engaged, rgv.shortCount := 9 };
        Live s ∧ s.dsc.gov ≠ .halted ∧ s.rgv.hold = .engaged ∧ s.rgv.shortCount = 9)
      ∧ (let s : State := { driving with rgv.hold := .short, rgv.engageCount := 9 };
        Live s ∧ s.dsc.gov ≠ .halted ∧ s.rgv.hold = .short ∧ s.rgv.engageCount = 9) := by
  unfold Live
  decide

theorem test_hold_short_events :
    (after .holdShortEntry { driving with rgv.hold := .engaged, rgv.shortCount := 9 }).rgv.hold = .short
      ∧ (after .holdShortExit { driving with rgv.hold := .short, rgv.engageCount := 9 }).rgv.hold = .engaged := by decide

theorem test_witness_RetardRequestAndGridBudget :
    ((0 : Int) ≤ 60000 ∧ (0 : Int) ≤ 1000 ∧ (60000 : Int) ≤ 60000)
      ∧ retardRequest .drive descending 0 640 1000 ⟨100, .fresh⟩ (holding .engaged) = 300
      ∧ retardRequest .drive descending 0 640 299 ⟨100, .fresh⟩ (holding .engaged) = 299
      ∧ retardRequest .standby descending 0 640 1000 ⟨100, .fresh⟩ (holding .engaged) = 0
      ∧ atRest resting = true ∧ (blowerOf 0 12000 60000, blowerOf 0 12001 60000, blowerOf 1 0 0) = (30, 100, 100) := by decide

/-! #### The procedures -/

def checking (r : GridRun) : State := { resting with rgv.check.run := some r }

theorem test_witness_DeliveredStringIsClassed :
    (let r := gridRun .both .a 7 .read;
        (checking r).rgv.check.run = some r ∧ r.step = .read ∧ nextString r.grids r.grid r.string = some (.b, 0))
      ∧ resting.slc.queue.length < 8
      ∧ 8 ≤ { resting with slc.queue := List.replicate 8 (waiting .loopExchange 5) }.slc.queue.length := by decide

theorem test_witness_LastStringCompletesTheGridCheck :
    (let r := gridRun .a .a 7 .read; (checking r).rgv.check.run = some r ∧ nextString r.grids r.grid r.string = none)
      ∧ (let r := gridRun .b .b 7 .read; (checking r).rgv.check.run = some r ∧ nextString r.grids r.grid r.string = none)
      ∧ (let r := gridRun .both .b 7 .read; (checking r).rgv.check.run = some r ∧ nextString r.grids r.grid r.string = none) := by
  decide

theorem test_last_string_short_degrades :
    let t := gridOutcome .takenReady 600 (checking (gridRun .a .a 7 .read))
    (t.rgv.check.last.outcome, t.rgv.check.run.isNone) = (.degraded, true)
      ∧ t.rgv.check.anomalies = [⟨.a, 7, .short, 600⟩] ∧ t.rgv.check.more = false := by decide

theorem test_witness_GridCheckStartsAndStops :
    CanTake resting ∧ CanTake (checking (gridRun .a .a 0 .act)) ∧ halted.rgv.check.run = none
      ∧ (checking (gridRun .a .a 0 .act)).rgv.check.run = some (gridRun .a .a 0 .act)
      ∧ (checking (gridRun .a .a 0 .act)).slc.slot = none
      ∧ (let s : State := { checking (gridRun .a .a 0 .act) with slc.phase := .service, slc.queue := [waiting .gridCheck 6] }
        s.slc.phase = .service ∧ s.slc.slot = none ∧ s.slc.slots < s.hli.force.serviceBudget) :=
  ⟨can _ rfl, can _ rfl, rfl, rfl, rfl, by decide⟩

theorem test_stop_ends_a_service_pass_it_empties :
    (after (.gridCheckStop 2) { checking (gridRun .a .a 0 .act) with
      slc.phase := .service, slc.queue := [waiting .gridCheck 6] }).slc.phase = .done := by decide

theorem test_grid_check_begins_and_stops :
    let s := after (.gridCheckStart 1 3) resting
    (s.rgv.check.run.map (·.grids), s.slc.queue.length) = (some .both, 1)
      ∧ (after (.gridCheckStart 1 4) resting).hli.tx.getLast? = some (.reply false 0x90 1 (.refused .range .field 1))
      ∧ (after (.gridCheckStop 2) (after .messageSent (after .messageSent s))).rgv.check.last.outcome = .aborted
      ∧ (after (.gridCheckStop 2) (after .messageSent (after .messageSent s))).slc.queue = [] := by decide

def watching : State :=
  { resting with
    sgv.run := some (steerRun .watch none 19), sgs.image := resting.sgs.image.set 29 ⟨imageOf .fresh 1350 0, []⟩ }

theorem test_witness_SteeringCheckStartsWatchesAndReleases :
    CanTake resting
      ∧ (Live watching ∧ watching.sgv.run = some (steerRun .watch none 19) ∧ (steerRun .watch none 19).init = some 1500
        ∧ watching.sgs.image[29]? = some ⟨imageOf .fresh 1350 0, []⟩ ∧ watching.slc.queue = [] ∧ watching.slc.held = [])
      ∧ (let r := steerRun .release (some (.pass, .none)) 20;
        { resting with sgv.run := some r }.sgv.run = some r ∧ r.phase = .release ∧ r.pending = some (.pass, .none))
      ∧ (steerRun .release (some (.aborted, .stop)) 20).pending = some (.aborted, .stop) := by
  refine ⟨can _ rfl, ?_⟩
  unfold Live
  decide

theorem test_watch_ends_with_pass_at_the_boundary :
    ((after .steerCheckWatchEnd watching).sgv.run.map (·.pending)) = some (some (.pass, .none))
      ∧ (after (.steerCheckStart 1) resting).sgv.run.map (·.phase) = some .isolate
      ∧ (steerOutcome .untaken { resting with sgv.run := some (steerRun .release (some (.pass, .none)) 20) }).sgv.result.outcome
        = .fail
      ∧ (steerOutcome .excluded { resting with sgv.run := some (steerRun .release (some (.pass, .none)) 20) }).sgv.result.outcome
        = .aborted := by decide

theorem test_witness_SteeringCountsAnglesAndValve :
    (Live halted ∧ halted.dsc.gov = .halted)
      ∧ (let s : State := { driving with sgv.wide := 9, sgv.supplyCount := 2, sgv.accCount := 2 };
        Live s ∧ s.dsc.gov ≠ .halted ∧ s.sgv.wide = 9 ∧ s.sgv.track = false ∧ s.sgv.supplyCount = 2
          ∧ s.sgv.supply = false ∧ s.sgv.accCount = 2 ∧ s.sgv.accLow = false)
      ∧ (let s : State := { driving with sgv.narrow := 9, sgv.track := true };
        s.dsc.gov ≠ .halted ∧ s.sgv.narrow = 9 ∧ s.sgv.track = true)
      ∧ (valveCommand false (imageOf .fresh 0 0) (some 2000) = 1000 ∧ valveCommand false (imageOf .fresh 0 0) (some 1999) = 999
        ∧ valveCommand false (imageOf .fresh 0 0) (some (-1999)) = -999
        ∧ valveCommand true (imageOf .fresh 0 0) (some 2000) = 0) := by
  unfold Live
  decide

theorem test_steering_counts :
    let s : State := { driving with sgv.wide := 9, sgv.supplyCount := 2, sgv.accCount := 2 }
    (after .steerTrackArise s).sgv.track = true ∧ (after .steerSupplyArise s).sgv.supply = true
      ∧ (after .accLowArise s).sgv.accLow = true
      ∧ (after .steerTrackGo { driving with sgv.narrow := 9, sgv.track := true }).sgv.track = false := by decide

/-! #### The recorder -/

def recording (st : RecState) (capture : Bool) (unread : Nat) : State :=
  { driving with
    trc.st := st, trc.params := ⟨capture, 1, 200, false⟩, trc.unread := unread
    trc.recset := driving.trc.recset.set 0 (some 1), trc.ring := [⟨0, [⟨9, []⟩, ⟨0, []⟩, ⟨0, []⟩, ⟨0, []⟩]⟩] }

theorem test_witness_RecorderStartsStopsAndReports :
    CanTake halted ∧ CanTake (recording .running false 0) ∧ halted.trc.st = .idle ∧ (recording .frozen true 0).trc.st = .frozen
      ∧ (recording .post true 0).trc.st = .post
      ∧ (∀ d, (recording .running false 0).hli.deferred = some d → d.kind ≠ .recordRead)
      ∧ { recording .running false 0 with hli.deferred := some ⟨.recordRead, 3⟩ }.hli.deferred = some ⟨.recordRead, 3⟩ :=
  ⟨can _ rfl, can _ rfl, rfl, rfl, rfl, ⟨(by intro d h; cases h), rfl⟩⟩

theorem test_recorder_starts_and_stops :
    (after (.recordStart 1) halted).hli.tx.getLast? = some (.reply false 0x94 1 (.refused .state .noRecordSet 0))
      ∧ (after (.recordStart 1) (recording .idle true 0)).trc.st = .running
      ∧ (after (.recordStart 1) (recording .idle true 0)).trc.ring = []
      ∧ (after (.recordStop 1) (recording .post true 0)).trc.st = .idle
      ∧ (after (.recordStop 1) (recording .post true 0)).trc.ring.length = 1 := by decide

theorem test_witness_RecordsAreReadAndFound :
    CanTake (recording .running false 0) ∧ (recording .running false 0).trc.unread < 1 ∧ (0 : Byte).getLsbD 0 = false
      ∧ (1 : Byte).getLsbD 0 = true ∧ CanTake (recording .running false 1) ∧ 1 ≤ (recording .running false 1).trc.unread
      ∧ CanTake (recording .running true 0) ∧ CanTake (recording .frozen true 0)
      ∧ (recK (recording .frozen true 0) ≤ (1 : Byte).toNat ∧ (0 : Byte).toNat < recK (recording .frozen true 0)
        ∧ 2 < (3 : Byte).toNat ∧ 1 < (2 : Byte).toNat)
      ∧ { recording .frozen true 0 with hli.deferred := some ⟨.loopScan, 3⟩ }.hli.deferred.isSome = true
      ∧ (let s : State := { recording .frozen true 0 with
          trc.find := some ⟨some (0, 9), 0⟩, hli.deferred := some ⟨.recordFind, 3⟩ };
        Live s ∧ s.trc.find = some ⟨some (0, 9), 0⟩ ∧ s.hli.deferred = some ⟨.recordFind, 3⟩)
      ∧ deferredUnsent (recording .running false 0) = false
      ∧ (let s := recording .running false 1; s.trc.unread ≤ s.trc.ring.length
        ∧ ∀ r ∈ s.trc.ring, r.words.length = recK s + 3 ∧ ∀ w ∈ r.words, w.flips = [])
      ∧ (deferredUnsent (recording .frozen true 0) = false ∧ (recording .frozen true 0).hli.deferred = none) :=
  ⟨can _ rfl, by decide, by decide, by decide, can _ rfl, by decide, can _ rfl, can _ rfl, by decide, by decide,
    ⟨rfl, rfl, rfl⟩, rfl, by decide, rfl, rfl⟩

/-- What a RECORD-FIND of the condition finds in one record of frame 9 whose value is 5 and quality 1. -/
def foundBy (cmp : Byte) (v : BitVec 32) : Option (Option (Nat × Nat)) :=
  (after (.recordFind 1 0 cmp 0 0 v)
    { recording .frozen true 0 with trc.ring := [⟨0, [⟨9, []⟩, ⟨0, []⟩, ⟨1, []⟩, ⟨5, []⟩]⟩] }).trc.find.map (·.found)

theorem test_record_find_compares_as_stated :
    [foundBy 0 5, foundBy 0 6, foundBy 1 5, foundBy 1 4, foundBy 2 0]
      = [some (some (0, 9)), some none, some (some (0, 9)), some none, some (some (0, 9))] := by decide

theorem test_record_reads :
    (after (.recordRead 1 0) (recording .running false 0)).hli.tx.getLast?
        = some (.reply false 0x97 1 (.refused .resource .notReady 0))
      ∧ (after (.recordRead 1 1) (recording .running false 0)).hli.deferred = some ⟨.recordRead, 1⟩
      ∧ (after (.recordRead 1 0) (recording .running false 1)).trc.unread = 0
      ∧ (after (.recordRead 1 2) { recording .frozen true 0 with trc.cursor := 1 }).trc.cursor = 1
      ∧ (after .recordFindComplete { recording .frozen true 0 with
          trc.find := some ⟨some (0, 9), 0⟩, hli.deferred := some ⟨.recordFind, 3⟩, trc.cursor := 1 }).trc.cursor = 0 := by
  decide

theorem test_witness_RecordsJoinAndTheRecorderFreezes :
    (Live halted ∧ halted.trc.st ≠ .running ∧ halted.trc.st ≠ .post)
      ∧ (let s := recording .running false 1;
        Live s ∧ s.trc.st = .running ∧ s.trc.params.capture = false ∧ s.trc.unread = s.trc.params.block
          ∧ s.trc.announced = false ∧ s.hli.deferred = none)
      ∧ (let s : State := { recording .running false 1 with hli.deferred := some ⟨.recordRead, 3⟩ };
        s.hli.deferred = some ⟨.recordRead, 3⟩)
      ∧ (let s : State := { recording .post true 0 with trc.postCount := 1, trc.marks := [(9, .stopLine)] };
        Live s ∧ s.trc.st = .post ∧ s.trc.postCount ≤ 1 ∧ s.trc.marks = (9, .stopLine) :: [])
      ∧ (driving.imn.record.inject = .none ∧ driving.trc.ring.length < capacity driving) := by
  unfold Live
  decide

/-- The clause of RecordsJoinAndTheRecorderFreezes about the words of a record. -/
theorem test_witness_RecordHoldsItsWords :
    let s := recording .running true 0
    s.trc.recset.length = 12 ∧ (∀ q ∈ s.sgs.image, q.flips = []) ∧ (s.trc.recset.filterMap id)[0]? = some 1
      ∧ s.trc.st = .running ∧ s.trc.params.capture = true ∧ (recording .running false 0).trc.params.capture = false
      ∧ (recording .frozen true 0).trc.st = .frozen := by decide

/-- R163: the record of frame 7 in SAFE-HOLD with a SEVERE and a LIMITING record, of signals 1 (KEPT), 60 and 40. -/
theorem test_words_of_a_record :
    let s : State := { recording .running true 0 with
      dsc.gov := .safeHold, hli.flags := 0x8001, sgs.vspd := ⟨33, .fresh⟩, out.tcL := ⟨-5, some 6⟩
      epu.trips := [⟨.stopLine, true, 1, 1, 0, false, 0⟩, ⟨.overspeed, false, 1, 1, 0, false, 0⟩]
      trc.recset := [some 1, some 60, some 40] ++ List.replicate 9 none
      sgs.image := driving.sgs.image.set 0 ⟨imageOf .kept (-9) 0, []⟩ }
    (recordWords 7 s).1.map (·.toInt) = [7, 3 + 8 + 64 + 0x80010000, 2 + 4 * 3, -9, 33, -5] := by decide

/-- R133: the duty ceilings stay from 0 to 100 with a capacity below 0 too. -/
theorem test_duty_ceilings :
    (ceilingDuty true 500 1000, ceilingDuty true 1 3, ceilingDuty true (-1000) (-3001), ceilingDuty true (-300) 100,
      ceilingDuty true 400 100, ceilingDuty true 0 0, ceilingDuty false 5 10) = (50, 33, 33, 0, 100, 0, 0) := by decide

theorem test_recorder_freezes :
    (after .recorderFrozen { recording .post true 0 with trc.postCount := 1, trc.marks := [(9, .stopLine)] }).trc.st = .frozen
      ∧ (after .streamBlockReady (recording .running false 1)).trc.announced = true := by decide

/-! #### Invariants -/

theorem test_witness_EveryStepKeepsTheTablesWhole :
    TablesWhole State.reset ∧ step { State.reset with pending := [.messageSent] } = .next (after .messageSent State.reset) :=
  ⟨by unfold TablesWhole; decide, rfl⟩

theorem test_witness_EveryStepKeepsDriveSafe :
    DriveSafe driving ∧ driving.dsc.gov = .drive
      ∧ step { driving with pending := [.stopLineAssert] } = .next (after .stopLineAssert driving) :=
  ⟨by unfold DriveSafe; decide, rfl, rfl⟩

/-! ### Other commands on small states -/

theorem test_host_bytes_reach_the_owner :
    (after (.hostFrameReceived (Frame.mk 0x01 1 []).bytes) halted).hli.tx.length = 2
      ∧ (after (.hostFrameReceived [0xA7, 0x00, 0x01, 0x01, 0x00, 0x00]) halted).hli.counters.hostFramesBad.val = 1
      ∧ (after .hostInterByteGap (after (.hostFrameReceived [0xA7, 0x00]) halted)).hli.counters.hostFramesBad.val = 1 := by
  decide

theorem test_unknown_kind_is_refused :
    (after (.unknownRequestKind 0x1D 1 []) halted).hli.tx.getLast? = some (.reply false 0x9D 1 (.refused .format .kind 0x1D)) := by
  decide

theorem test_resets :
    (after (.powerOn true) driving).dsc.stopLine = true ∧ (after .resetPinRelease (after .resetPinAssert driving)).dsc.gov = .halted
      ∧ (after .frameStart (after .resetPinAssert driving)).slc.frameNo = 0
      ∧ (after (.governorReset 1) driving).dsc.gov = .halted := by decide

theorem test_frame_start_counts_the_frame :
    (after .frameStart { driving with slc.frameNo := 281474976710655 }).slc.frameNo = 0
      ∧ (after .frameStart { driving with slc.firstFrame := true }).slc.phase = .acqEnded := by decide

theorem test_budget_and_mark :
    (after .budgetExhaustion { acqTurn .strict with slc.slots := 32 }).slc.delivery.map (·.result) = [.missed .budget]
      ∧ (after .dispatchMarkReached (runningFrame .acq)).slc.markReached = true
      ∧ (after .dispatchMarkReached (runningFrame .published)).slc.run = none := by decide

theorem test_threshold_rows :
    (after (.stationSuspect 5) (enrolled .enrolled 2)).slc.dir.map (·.state) = [.suspect]
      ∧ (after (.stationExcluded 5) (enrolled .suspect 7)).slc.dir.map (·.state) = [.excluded]
      ∧ (after .loopSyncReached (syncing 31)).slc.loopState = .up
      ∧ (after .demandTimerExpiry { driving with dsc.timerRunning := true, dsc.fresh := true }).dsc.gov = .safeHold := by decide

theorem test_bits_flip_in_the_word_named :
    (after (.storedBitFlipped .acq 63 [0]) halted).slc.acq[63]?.map (·.flips) = some [0]
      ∧ (after (.integrityRead 1 1 3) { halted with imn.acq.corrected := 9 }).imn.acq.corrected = 0
      ∧ (after (.countsRead 1) { halted with hli.counters.recLost := ⟨5, true⟩ }).hli.counters = .zero := by decide

theorem test_reports_change_nothing :
    (after (.statusQuery 1) driving).dsc = driving.dsc
      ∧ (after (.procResult 1 3) halted).hli.tx.getLast? = some (.reply false 0x93 1 (.refused .range .field 1))
      ∧ (after (.recordStatus 1) halted).trc = halted.trc := by decide

/-! ### Clauses about replies, damage, injections and aborts -/

def idle : RxWord := ⟨idleWord, false⟩

theorem test_witness_OwnCommandIsNoReply :
    let x := slotOf .service
    let own := (commandWords x).map (fun w => (⟨w, false⟩ : RxWord))
    Live answering ∧ answering.slc.slot = some x ∧ (commandWords x).length = 3 ∧ idle.cleanIdle = true
      ∧ [idle, own.getD 0 idle].filter (fun w => !w.cleanIdle) = [own.getD 0 idle]
      ∧ (own ++ [idle]).filter (fun w => !w.cleanIdle) = own
      ∧ ((⟨0xC5C0, false⟩ : RxWord).cleanIdle = false ∧ (⟨idleWord, true⟩ : RxWord).cleanIdle = false) := by
  unfold Live
  decide

theorem test_reply_behind_the_own_command :
    let x := slotOf .service
    let own := (commandWords x).map (fun w => (⟨w, false⟩ : RxWord))
    after (.exchangeComplete [own.getD 0 idle, idle]) answering = answering
      ∧ heardReply x (own ++ soundWords 0xC5C0 7) = some ⟨.takenReady, true, 7⟩
      ∧ (heardReply x (own ++ [⟨1, false⟩])).map (·.outcome) = some .check := by decide

/-- LOOP-EXCHANGE to an enrolled station in the service pass of a frame, with one item behind it. -/
def answeringInFrame : State :=
  { driving with
    slc.dir := [stationOf .suspect 7], slc.phase := .service, slc.slots := 3
    slc.queue := [{ waiting .loopExchange 5 with started := true }, waiting .gridCheck 6], slc.slot := some (slotOf .service)
    hli.deferred := some ⟨.loopExchange, 9⟩ }

theorem test_witness_LoopExchangeIsAnsweredAtItsCompletion :
    let it : Item := { waiting .loopExchange 5 with started := true }
    (slotOf .service).tolerate = false ∧ (slotOf .service).afterReset = false ∧ it.discard = false ∧ it.retry = none
      ∧ (Live answering ∧ answering.dsc.gov = .halted ∧ answering.slc.phase = .idle ∧ answering.slc.queue = it :: []
        ∧ answering.rgv.check.run = none ∧ answering.sgv.run = none)
      ∧ (let s := answeringInFrame;
        Live s ∧ s.dsc.gov ≠ .halted ∧ s.slc.phase = .service ∧ s.slc.slot = some (slotOf .service)
          ∧ s.slc.queue = it :: [waiting .gridCheck 6] ∧ s.slc.held = [] ∧ s.rgv.check.run = none ∧ s.sgv.run = none
          ∧ s.hli.deferred = some ⟨.loopExchange, 9⟩ ∧ stationAt 5 s = some (stationOf .suspect 7))
      ∧ [heardReply (slotOf .service) (soundWords 0xC5C0 7), heardReply (slotOf .service) (soundWords 0xC540 7),
          heardReply (slotOf .service) (soundWords 0xC6C0 7)].map (fun h => h.map (·.outcome))
        = [some .takenReady, some .untaken, some .check] := by
  unfold Live
  decide

theorem test_loop_exchange_in_a_frame :
    let seen (t : State) := (t.slc.dir.map (fun e => (e.state, e.streak)), t.slc.phase)
    seen (after (.exchangeComplete (soundWords 0xC5C0 7)) answeringInFrame) = ([(.enrolled, 0)], .service)
      ∧ seen (after .slotTimeout answeringInFrame) = ([(.excluded, 8)], .service)
      ∧ (after .slotTimeout answeringInFrame).hli.tx.getLast? = some (.reply true 0x8E 9 (.done [3, 0, 0, 0, 0, 0]))
      ∧ (after .slotTimeout { answeringInFrame with slc.slots := 4 }).slc.phase = .done := by decide

/-- The clauses of SignalReadClearsTheMarksItNames about the image: sound, and with flipped bits named and not named. -/
theorem test_witness_SignalReadImages :
    (∀ p ∈ driving.sgs.image, p.flips = []) ∧ CanTake driving
      ∧ (∀ n ∈ [(1 : Byte), 34, 60, 61, 70].map (·.toNat), inCatalog n = true)
      ∧ (let s : State := { driving with
          sgs.image := (driving.sgs.image.set 0 ⟨imageOf .bad 7 0, [3]⟩).set 33 ⟨imageOf .kept 7 0, [3, 9]⟩ }
        CanTake s ∧ s.sgs.image[0]? = some ⟨imageOf .bad 7 0, [3]⟩ ∧ 0 + 1 ∈ [(1 : Byte), 34].map (·.toNat)
          ∧ s.sgs.image[33]? = some ⟨imageOf .kept 7 0, [3, 9]⟩ ∧ 33 + 1 ∈ [(1 : Byte), 34].map (·.toNat)
          ∧ 33 + 1 ∉ [(1 : Byte)].map (·.toNat)) :=
  ⟨by decide, can _ rfl, by decide, can _ rfl, by decide⟩

theorem test_signal_read_items :
    let e : ImageEntry := { imageOf .kept 7 2 with age := 5, latchedBad := true }
    let s : State := { driving with
      sgs.image := driving.sgs.image.set 33 ⟨e, []⟩, sgs.vspd := ⟨9, .fresh⟩, sgs.imageFrame := 3 }
    let t := after (.signalRead 1 [34, 60]) s
    t.sgs.image[33]? = some ⟨{ e with latchedBad := false }, []⟩ ∧ t.sgs.image.take 33 = s.sgs.image.take 33
      ∧ t.hli.tx.getLast? = some (.reply false 0x89 1 (.done
        ([2] ++ vQuant 7 ++ vEnum (qualityCode .kept) ++ vCount 5 ++ vCount 2 ++ vMark true
          ++ vQuant 9 ++ vEnum (qualityCode .fresh) ++ vFrame 3))) := by decide

theorem test_witness_GuardedReadsOfTheOtherMemories :
    (∀ fs ∈ [[], [3], [3, 9]], { screened rangeEntry with
        sgs.screen := (screened rangeEntry).sgs.screen.set 95 ⟨rangeEntry, fs⟩ }.sgs.screen[95]? = some ⟨rangeEntry, fs⟩)
      ∧ rangeEntry.corrupt = false ∧ { rangeEntry with corrupt := true }.corrupt = true
      ∧ (∀ fs ∈ [[], [3], [3, 9]], { driving with
        sgs.image := driving.sgs.image.set (34 - 1) ⟨imageOf .kept 7 0, fs⟩ }.sgs.image[34 - 1]?
          = some ⟨imageOf .kept 7 0, fs⟩)
      ∧ (∀ fs ∈ [[], [4], [4, 5]], (let r : RingRecord := ⟨3, [⟨10, []⟩, ⟨0, []⟩, ⟨0, fs⟩]⟩;
        { halted with trc.ring := [r] }.trc.ring[0]? = some r ∧ r.words[2]? = some ⟨0, fs⟩)) := by decide

theorem test_guarded_reads :
    let s : State := { driving with sgs.image := driving.sgs.image.set 33 ⟨imageOf .kept 7 0, [3, 9]⟩ }
    let t := (readImage 34 s).2
    (t.sgs.image[33]?.map (fun p => (p.val.quality, p.val.latchedBad, p.flips)) = some (.bad, true, [])
        ∧ standing .signalBad t = true ∧ t.imn.image.capUncorrectable = some 34)
      ∧ (let r := readRingWord 0 2 ringed;
        r.2.1 = false ∧ r.2.2.imn.record.capCorrected = some 2
          ∧ r.2.2.trc.ring.map (·.words.map (·.flips)) = [[[], [], []], [[], [], []]])
      ∧ (let u : State := { halted with trc.ring := [⟨3, [⟨10, []⟩, ⟨0, []⟩, ⟨0, [4, 5]⟩]⟩] };
        let r := readRingWord 0 2 u;
        r.2.1 = true ∧ r.2.2.trc.ring = u.trc.ring ∧ (readRingWord 0 2 r.2.2).2.2.imn.record.uncorrectable = 2) := by decide

/-- A state with an injection pending in every memory. -/
def injected (i : Inject) (s : State) : State :=
  { s with imn.acq.inject := i, imn.screen.inject := i, imn.image.inject := i, imn.record.inject := i }

theorem test_witness_PendingInjectionStrikesTheNextWrite :
    ∀ i ∈ [Inject.none, .single, .double],
      (∃ t, writeAcq 63 [entryOn .read .strict 1] (injected i halted) = .ok t)
        ∧ (∃ t, writeScreen 95 [rangeEntry] (injected i driving) = .ok t)
        ∧ CanTake (injected i standby) ∧ (injected i standby).dsc.gov = .standby := by
  intro i h
  simp only [List.mem_cons, List.not_mem_nil, or_false] at h
  rcases h with rfl | rfl | rfl <;> exact ⟨⟨_, rfl⟩, ⟨_, rfl⟩, can _ rfl, rfl⟩

/-- Struck at its bounds: no bit, one and two different bits. -/
theorem test_struck_bits : Struck .none [] ∧ Struck .single [3] ∧ Struck .double [3, 9] ∧ ¬Struck .double [3, 3] := by
  refine ⟨rfl, ⟨3, rfl⟩, ⟨3, 9, by decide, rfl⟩, ?_⟩
  rintro ⟨a, b, h, e⟩
  simp only [List.cons.injEq, and_true] at e
  exact h (e.1.symm.trans e.2)

theorem test_injection_is_taken_by_one_write :
    let t := after (.tableWrite 1 rangeBytes) (injected .single editing)
    (t.sgs.screen[95]?.map (·.flips.length), t.imn.screen.inject) = (some 1, .none)
      ∧ (let u := after (.modeRequest 1 0) (injected .single standby);
        (u.sgs.image.map (·.flips.length)).take 2 = [1, 0] ∧ u.imn.image.inject = .none)
      ∧ ((joinRecord [9, 0, 0] (injected .single halted)).trc.ring.map (·.words.map (·.flips.length))) = [[1, 0, 0]] := by
  decide

/-- Both checks running with a deferred request outstanding. -/
def bothDeferred : State :=
  { bothRunning with hli.force := { Settings.default with noticeMask := 31 }, hli.deferred := some ⟨.recordFind, 5⟩ }

theorem test_witness_EntryToHaltedEndsTheChecks :
    let r := steerRun .release (some (.aborted, .halted)) 0
    let s : State := { releasing with dsc.gov := .halted, sgv.run := some r }
    let it : Item := { waiting .steerCheck 9 with started := true }
    (Live s ∧ s.dsc.gov = .halted ∧ s.slc.phase = .idle ∧ s.slc.slot = some (slotOf .service) ∧ s.slc.queue = it :: []
        ∧ it.discard = false ∧ it.retry = none ∧ s.slc.held = [] ∧ s.rgv.check.run = none ∧ s.sgv.run = some r
        ∧ heardReply (slotOf .service) (soundWords 0xC5C0 7) = some ⟨.takenReady, true, 7⟩)
      ∧ (CanTake bothDeferred ∧ bothDeferred.dsc.gov = .standby ∧ bothDeferred.rgv.check.run = some (gridRun .a .a 0 .act)
        ∧ bothDeferred.sgv.run = some (steerRun .isolate none 0) ∧ bothDeferred.slc.slot = none
        ∧ bothDeferred.hli.force.noticeMask.testBit 0 = true ∧ bothDeferred.hli.force.noticeMask.testBit 3 = true
        ∧ bothDeferred.hli.tx.countP (·.isNotice) ≤ 4)
      ∧ (CanTake releasing ∧ releasing.dsc.gov = .standby
        ∧ releasing.sgv.run = some (steerRun .release (some (.pass, .none)) 20)) ∧ CanTake standby ∧ standby.sgv.run = none :=
  ⟨by unfold Live; decide, ⟨can _ rfl, by decide⟩, ⟨can _ rfl, by decide⟩, can _ rfl, rfl⟩

theorem test_witness_GovernorResetAnswersInItsSteps :
    CanTake bothDeferred ∧ bothDeferred.hli.force.noticeMask.testBit 0 = true
      ∧ bothDeferred.hli.force.noticeMask.testBit 3 = true ∧ bothDeferred.hli.tx.countP (·.isNotice) ≤ 3
      ∧ bothDeferred.rgv.check.run = some (gridRun .a .a 0 .act) ∧ bothDeferred.sgv.run = some (steerRun .isolate none 0)
      ∧ CanTake halted ∧ halted.sgv.run = none :=
  ⟨can _ rfl, by decide, by decide, by decide, rfl, rfl, can _ rfl, rfl⟩

theorem test_both_checks_end_at_entry_to_halted_and_reset :
    let t := after (.modeRequest 1 0) bothDeferred
    (t.hli.tx.drop 1 = [.notice (.proc 1 3 .halted 0), .notice (.state .standby .halted .request), .reply false 0x82 1 (.done [])]
        ∧ t.sgv.run.map (fun r => (r.phase, r.pending)) = some (.release, some (.aborted, .halted)))
      ∧ (after (.governorReset 1) bothDeferred).hli.tx.drop 1 = [.reply true 0x98 5 (.refused .fault .aborted 1),
        .notice (.proc 1 3 .reset 0), .notice (.proc 2 3 .reset 0), .notice (.state .standby .halted .governorReset),
        .reply false 0x9B 1 (.done [])]
      ∧ (after .slotTimeout { releasing with
          dsc.gov := .halted, sgv.run := some (steerRun .release (some (.aborted, .halted)) 0) }).sgv.result.unconfirmed = true := by
  decide

theorem test_witness_EvaluationPostsItsEnvelope :
    Live (runningFrame .acqEnded) ∧ (runningFrame .acqEnded).slc.phase = .acqEnded := by
  unfold Live
  decide

theorem test_evaluation_posts :
    let s : State := { runningFrame .acqEnded with
      slc.frameNo := 9, epu.trips := [trip .inverterFaultR false, trip .payloadGross false] }
    let t := after .publication s
    (t.epu.posting.inverterFaultR, t.epu.posting.inverterFaultL) = (true, false)
      ∧ t.out.speedLimit = ⟨(buildEnvelope t).speedLimit, some 9⟩ := by decide

/-- Seven ordinary records, with an OVERFLOW record among them or not. -/
def sevenTrips (ofl : Bool) : State :=
  { driving with
    epu.trips := List.replicate 6 (trip .gridOvertempA false) ++ [trip .stopLine false]
      ++ if ofl then [{ trip .overflow true with detail := 65535 }] else [] }

theorem test_witness_TripListMeetsEachCause :
    (let s := sevenTrips false;
        s.epu.trips.find? (·.cause == (tripView true).cause) = none
          ∧ s.epu.pendingSet.any (·.cause == (tripView true).cause) = false ∧ 7 ≤ s.epu.trips.countP (·.cause != .overflow) ∧ s.epu.trips.any (·.cause == .overflow) = false)
      ∧ (let s := sevenTrips true;
        let pre := List.replicate 6 (trip .gridOvertempA false) ++ [trip .stopLine false];
        let o : Trip := { trip .overflow true with detail := 65535 };
        s.epu.trips.find? (·.cause == (tripView true).cause) = none ∧ 7 ≤ s.epu.trips.countP (·.cause != .overflow)
          ∧ s.epu.trips = pre ++ o :: [] ∧ o.cause = .overflow ∧ ∀ x ∈ pre ++ [], x.cause ≠ .overflow)
      ∧ (let s : State := { driving with epu.trips := [] ++ trip .overspeed false :: [] };
        s.epu.trips = [] ++ trip .overspeed false :: [] ∧ (trip .overspeed false).cause = (tripView true).cause
          ∧ (trip .overspeed false).clearable = false) := by decide

theorem test_witness_PendingCausesArePlaced :
    (let s : State := { driving with epu.pendingSet := [⟨.overspeed, 1, 4⟩] };
        s.epu.pendingSet = ⟨.overspeed, 1, 4⟩ :: [] ∧ ¬7 ≤ s.epu.trips.countP (·.cause != .overflow))
      ∧ (∀ ofl ∈ [true, false], let s : State := { sevenTrips ofl with epu.pendingSet := [⟨.overspeed, 1, 4⟩] };
        s.epu.pendingSet ≠ [] ∧ 7 ≤ s.epu.trips.countP (·.cause != .overflow)
          ∧ s.epu.trips.any (·.cause == .overflow) = ofl) := by decide

theorem test_overflow_and_pending_causes :
    let seen (t : State) := (t.epu.trips.getLast?.map (fun r => (r.cause, r.clearable, r.detail)), t.epu.pendingSet.length)
    seen (updateTrip (tripView true) (sevenTrips false)) = (some (.overflow, true, 1), 1)
      ∧ seen (updateTrip (tripView true) (sevenTrips true)) = (some (.overflow, true, 65535), 1)
      ∧ seen (takePending [tripView true] { driving with epu.pendingSet := [⟨.overspeed, 1, 4⟩] })
        = (some (.overspeed, false, 4), 0)
      ∧ seen (takePending [tripView false] { driving with epu.pendingSet := [⟨.overspeed, 1, 4⟩] })
        = (some (.overspeed, true, 4), 0) := by decide

/-- A steering supply check in the phase, at rest or not, with the front accumulator's pressure of the quality. -/
def steering (p : SteerPhase) (rest : Bool) (q : Quality) (n : Nat) : State :=
  { (if rest then resting else driving) with
    sgv.run := some (steerRun p none n), slc.queue := [waiting .steerCheck 9]
    sgs.image := driving.sgs.image.set 29 ⟨imageOf q 1350 0, []⟩ }

theorem test_witness_SteeringCheckPhasesAndAborts :
    (∀ p ∈ [SteerPhase.isolate, .settle, .watch, .release], ∀ q ∈ [Quality.fresh, .kept], ∀ n ∈ [18, 19],
        (steering p true q n).sgv.run = some (steerRun p none n)
          ∧ ((steering p true q n).sgs.image[29]?).map (·.val.quality) = some q)
      ∧ (∀ rest ∈ [true, false], (∀ q ∈ (steering .watch rest .fresh 0).sgs.image, q.flips = [])
        ∧ atRest (steering .watch rest .fresh 0) = rest ∧ (steering .watch rest .fresh 0).slc.slot = none)
      ∧ (steerRun .watch none 19).init = some 1500 := by decide

theorem test_steering_check_phases :
    let out (x : ExOutcome) := (steerOutcome x (steering .isolate true .fresh 0)).sgv.run
    let next (p : SteerPhase) (rest : Bool) (q : Quality) (n : Nat) := (computeSgv .standby 0 0 (steering p rest q n)).sgv.run
    (out .takenReady = some (steerRun .settle none 0) ∧ out .check = some (steerRun .release (some (.aborted, .exchange)) 0))
      ∧ next .settle true .fresh 0 = some { steerRun .watch none 0 with init := some 1350 }
      ∧ next .watch true .fresh 18 = some (steerRun .watch none 19)
      ∧ next .watch true .fresh 19 = some { steerRun .release (some (.pass, .none)) 20 with final := some 1350 }
      ∧ next .settle true .kept 0 = some (steerRun .release (some (.aborted, .accNotFresh)) 0)
      ∧ next .watch true .kept 19 = some (steerRun .release (some (.aborted, .accNotFresh)) 19)
      ∧ next .watch false .kept 19 = some (steerRun .release (some (.aborted, .moved)) 19) := by decide

theorem test_witness_GridBudgetHasItsValues :
    (0 : Int) ≤ 0 ∧ (∀ q ∈ driving.sgs.image, q.flips = []) ∧ atRest resting = true
      ∧ atRest { driving with rgv.check.run := some (gridRun .a .a 0 .act) } = false := by decide

theorem test_grid_budget_values :
    (rcapOf true 300 0 60000, rcapOf false 300 0 60000) = (1300, 0)
      ∧ (nextEnergy .default 700 100 0 60000, nextEnergy .default 0 700 0 60000, nextEnergy .default 0 0 70000 60000)
        = (6, 0, 60000)
      ∧ (let t := computeRgv .drive descending driving.epu.posting { driving with rgv.check.run := some (gridRun .a .a 0 .act) };
        (t.rgv.check.run.isNone, t.rgv.check.last.outcome, t.rgv.check.last.cause) = (true, .aborted, .moved)) := by decide

/-- The clauses of RecordsJoinTheRingAtItsCapacity in POST: the last record and one before it. -/
theorem test_witness_PostRecords :
    (let s : State := { injected .double (recording .post true 0) with trc.postCount := 2, slc.frameNo := 7 };
        s.trc.st = .post ∧ s.trc.params.capture = true ∧ 1 < s.trc.postCount)
      ∧ (let s : State := { recording .post true 0 with trc.postCount := 1, trc.marks := [(9, .stopLine)] };
        s.trc.st = .post ∧ s.trc.postCount ≤ 1 ∧ s.trc.marks = (9, .stopLine) :: []) := by decide

theorem test_post_records_count_down :
    let s (n : Nat) : State := { recording .post true 0 with trc.postCount := n, trc.marks := [(9, .stopLine)] }
    let seen (t : State) := (t.trc.st, t.trc.postCount, t.trc.ring.length)
    (seen (recordFrame (s 2)), seen (recordFrame (s 1))) = ((.post, 1, 2), (.frozen, 0, 2)) := by decide

/-! ### Bytes, words and computations that the statements spell out -/

/-- The clauses of TableRequestsMoveEntriesAndTheCursor about the bytes of entries. -/
theorem test_witness_TableEntriesReadBack :
    (∀ b ∈ [0x00#8, 0xFF#8], ∀ c ∈ [true, false],
        (let p : Prot AcqEntry := ⟨{ decodeAcq (List.replicate 8 b) with corrupt := c }, []⟩;
          { halted with slc.acq := halted.slc.acq.set 63 p }.slc.acq[63]? = some p)
        ∧ (let p : Prot ScreenEntry := ⟨{ decodeScreen (List.replicate 12 b) with failCount := 65535, corrupt := c }, []⟩;
          { halted with sgs.screen := halted.sgs.screen.set 95 p }.sgs.screen[95]? = some p))
      ∧ ((editingSet 1).trc.recset[0]? = some (some 1) ∧ (editingSet 1).trc.recset[11]? = some none)
      ∧ (halted.rgv.check.results[0]?.isSome ∧ halted.rgv.check.results[15]?.isSome)
      ∧ (∀ q ∈ halted.slc.acq, q.flips = []) ∧ ∀ q ∈ halted.sgs.screen, q.flips = [] := by decide

/-- The layouts of "FMT: TABLE ENTRIES", and of each table a place past its last record. -/
theorem test_table_entry_bytes :
    let s : State := { enrolled .suspect 3 with
      epu.derates := [⟨.stationSuspect, .vehicle, .speed, 250, 258, true, 50⟩], epu.trips := [trip .overspeed true]
      rgv.check.results := [⟨600, .short, 9⟩], rgv.check.anomalies := [⟨.b, 7, .short, 600⟩] }
    [(4, 0), (5, 0), (6, 0), (7, 0), (7, 16), (7, 20)].map (fun p => (readEntry p.1 p.2 s).1)
        = [[0x81, 5, 1, 0, 3, 0, 0, 0], [0xE3, 12, 0, 250, 0, 50, 0, 0, 0, 0, 1, 2],
          [0xF3, 0, 0, 0, 0, 0, 1, 0, 0, 0, 0, 0, 1, 0, 0, 0], [4, 0, 2, 88, 0, 0, 0, 0, 0, 9, 0, 0],
          [0x80, 2, 7, 4, 2, 88, 0, 0, 0, 0, 0, 0], [0, 1, 0, 8, 8, 0, 0, 0, 0, 0, 0, 0]]
      ∧ [(3, 11), (4, 1), (5, 1), (6, 1), (7, 17)].all (fun p => (readEntry p.1 p.2 s).1.all (· == 0)) = true
      ∧ (readEntry 1 0 (after (.tableWrite 1 [0xB8, 5, 0xF9, 1, 0xF9, 1, 2, 3]) (editingAcq 0))).1
        = [0xB8, 5, 0x71, 1, 0x31, 0, 0, 0] := by decide

/-- The clauses of SlotStartsServeEntriesAndTheHead about the words of a command: the largest address and channel. -/
theorem test_witness_CommandWords :
    ∀ w ∈ [true, false], let x : SlotEx := ⟨.service, 63, 7, .act, w, 0xFFFF1234, false, false⟩
      x.addr < 64 ∧ x.channel < 8 ∧ x.size32 = w := by decide

theorem test_command_words :
    (commandWords ⟨.service, 63, 7, .act, true, 0xFFFF1234, false, false⟩).take 3 = [0xBFF4, 0xFFFF, 0x1234]
      ∧ (commandWords probeSlot).take 2 = [0x85E0, 0] ∧ (dataOf false (-2), dataOf true (-2)) = (65534, 4294967294) := by decide

/-- The clauses of RunsEndByTheirSettleMode about what a reply says. -/
theorem test_witness_ReplyIsJudged :
    let x := slotOf .service
    let wide : SlotEx := { x with size32 := true }
    let ends (h : LoopWord) (c : LoopWord) (a : Nat) : Prop := h.toNat / 2 ^ 14 = 3 ∧ h.toNat / 2 ^ 8 % 64 = a ∧ c = checkWord [h, 7]
    (x.addr < 64 ∧ x.size32 = false ∧ wide.size32 = true)
      ∧ (ends 0xC5C0 (checkWord [0xC5C0, 7]) 5 ∧ ¬ends 0xC6C0 (checkWord [0xC6C0, 7]) 5 ∧ ¬ends 0xC5C0 0 5
        ∧ ¬ends 0x85C0 (checkWord [0x85C0, 7]) 5)
      ∧ (soundWords 0xC5C0 7).length < 4 ∧ ((soundWords 0xC5C0 7).take 2).length < 3
      ∧ (∃ w ∈ [idle, ⟨7, true⟩, idle].take 3, w.lineError = true)
      ∧ (∀ v ∈ [idle, idle], v.cleanIdle = true) ∧ (⟨0xC5C0, false⟩ : RxWord).cleanIdle = false
      ∧ (commandWords x).head? = some 0x8500 ∧ (⟨0xC5C0, false⟩ : RxWord) ≠ ⟨0x8500, false⟩
      ∧ (1 ∈ [1, 2, 5, 6, 9, 10, 11, 12, 18, 19, 28, 32, 34] ∧ 3 ∉ [1, 2, 5, 6, 9, 10, 11, 12, 18, 19, 28, 32, 34]) := by decide

theorem test_replies_and_values :
    let wide : SlotEx := { slotOf .service with size32 := true }
    let ws : List LoopWord := [0xC5C0, 0x8000, 1]
    heardReply wide ([idle] ++ (ws ++ [checkWord ws]).map (⟨·, false⟩)) = some ⟨.takenReady, true, 0x80000001⟩
      ∧ heardReply wide (soundWords 0xC5C0 7) = some ⟨.check, false, 0⟩
      ∧ [deliveredValue 1 false 32768, deliveredValue 1 false 32767, deliveredValue 1 true 0x80000000,
          deliveredValue 3 false 65535] = [-32768, 32767, -2147483648, 65535] := by decide

/-- The clauses of RetardRequestAndGridBudget about the sources. -/
theorem test_witness_RetardSourcesAndDensity :
    (imageOf .fresh 129 0).quality.usable = true ∧ (imageOf .held 129 0).quality.usable = false
      ∧ (nextRtr .safeHold .default 0 false ⟨200, .fresh⟩ (holding .off)).rtr = some 20000
      ∧ (nextRtr .safeHold .default 0 false ⟨200, .held⟩ (holding .off)).rtr = none
      ∧ (imageOf .fresh (-2729) 0).value + 2730 ≠ 0 := by decide

/-- The figures of R121, R124, R126, R127 and R129. -/
theorem test_retard_figures :
    let g : Settings := { Settings.default with ratedRetardPower := 4400, baseSpeed := 20, emptyMass := 250, framePeriod := 10 }
    let p : EpuPosting := { EpuPosting.initial with cls := .loaded, haul := 3600 }
    (torqueFor g ⟨220, .fresh⟩ 2200 1, torqueFor g ⟨100, .fresh⟩ 2200 1, powerFor g ⟨100, .fresh⟩ 1000) = (500, 1000, 2200)
      ∧ (feedForward g p ⟨220, .fresh⟩ (downhill (imageOf .fresh 129 0) .forward),
          feedForward g p ⟨220, .fresh⟩ (downhill (imageOf .fresh (-129) 0) .reverse),
          feedForward g p ⟨220, .fresh⟩ (downhill (imageOf .held 129 0) .forward)) = (905, 905, 0)
      ∧ (limitHold .drive 905 250 ⟨283, .fresh⟩, limitHold .drive 0 250 ⟨251, .fresh⟩, limitHold .drive 905 250 ⟨250, .fresh⟩)
        = (1000, 10, 0)
      ∧ (let r := nextRtr .safeHold g 0 false ⟨200, .fresh⟩ { holding .off with rtr := some 19000 };
        (r.rtr, r.rtrOut, (nextRtr .drive g 0 false ⟨200, .fresh⟩ r).rtr)) = (some 18990, 101, none)
      ∧ densityRatio (imageOf .fresh 710 0) (imageOf .fresh 200 0) = 70 := by
  refine ⟨by decide, by decide, by decide, by decide, ?_⟩
  unfold densityRatio roundNearest
  decide

/-- The item of the check at the head of the queue, its exchange in the slot, the station with a streak. -/
def gridSlot : SlotEx := ⟨.service, 6, 6, .read, false, 0, false, false⟩
def gridServing (st : GridStep) (used streak : Nat) : State :=
  { checking (gridRun .a .a 0 st) with
    slc.phase := .service, slc.slot := some gridSlot, slc.dir := [⟨6, .chopper, 0, .enrolled, streak, 0, .none⟩]
    slc.queue := [{ gridItem 6 0 st with started := true, used := used }] }

/-- The clauses of LastStringCompletesTheGridCheck about the outcomes handed to the check. -/
theorem test_witness_GridStepsAndFailures :
    (∀ st ∈ [GridStep.act, .read], ∀ used ∈ [6, 7], ∀ streak ∈ [0, 7],
        let s := gridServing st used streak
        let it : Item := { gridItem 6 0 st with started := true, used := used }
        (s.pins.reset = false ∧ s.slc.slot = some gridSlot ∧ s.slc.queue = it :: [] ∧ it.claimant = .gridCheck
            ∧ it.discard = false ∧ it.retry = (if st = .read then some 7 else none) ∧ s.slc.held = []
            ∧ s.rgv.check.run = some (gridRun .a .a 0 st))
          ∧ stationAt 6 s = some ⟨6, .chopper, 0, .enrolled, streak, 0, .none⟩
          ∧ (gridSlot.addr = (gridRun .a .a 0 st).addr .a ∧ gridSlot.claim = .service ∧ gridSlot.afterReset = false
            ∧ gridSlot.tolerate = false))
      ∧ (0 + 1 < Settings.default.streakExclude ∧ Settings.default.streakExclude ≤ 7 + 1)
      ∧ [soundWords 0xC6C0 7, soundWords 0xC680 7, soundWords 0xC640 7, soundWords 0xC5C0 7].map
          (fun ws => (heardReply gridSlot ws).map (·.outcome))
        = [some .takenReady, some .takenNotReady, some .untaken, some .check] := by decide

theorem test_grid_steps_and_failures :
    let seen (c : Instr) (st : GridStep) (used streak : Nat) : Option GridStep × GridOutcome × ProcCause × Nat :=
      let t := after c (gridServing st used streak)
      (t.rgv.check.run.map (·.step), t.rgv.check.last.outcome, t.rgv.check.last.cause, t.slc.queue.length)
    seen (.exchangeComplete (soundWords 0xC680 7)) .act 0 0 = (some .read, .none, .none, 1)
      ∧ seen (.exchangeComplete (soundWords 0xC680 7)) .read 6 0 = (some .read, .none, .none, 1)
      ∧ seen (.exchangeComplete (soundWords 0xC680 7)) .read 7 0 = (none, .failedExchange, .none, 0)
      ∧ seen .slotTimeout .act 0 0 = (none, .failedExchange, .none, 0)
      ∧ seen .slotTimeout .act 0 7 = (none, .aborted, .stationExcluded, 0)
      ∧ seen (.exchangeComplete (soundWords 0xC6C0 1200)) .read 0 0 = (some .act, .none, .none, 1) := by decide

/-- The clauses of SteeringCountsAnglesAndValve about a computation: the inputs usable, lost and BAD, with and without a
commanded angle and a run. -/
def steeringBy (ang prs acc : ImageEntry) : State :=
  { driving with
    sgv.ac := some 3200, sgv.wide := 9, sgv.narrow := 9, sgv.supplyCount := 2, sgv.accCount := 2, sgs.vspd := ⟨400, .fresh⟩
    sgs.image := ((driving.sgs.image.set 27 ⟨ang, []⟩).set 28 ⟨prs, []⟩).set 29 ⟨acc, []⟩ }

theorem test_witness_SteeringComputation :
    (∀ q ∈ [Quality.fresh, .held, .bad], ∀ p ∈ (steeringBy (imageOf q 0 0) (imageOf q 1199 0) (imageOf q 0 0)).sgs.image,
        p.flips = [])
      ∧ (let s := steeringBy (imageOf .fresh 3000 0) (imageOf .fresh 1200 0) (imageOf .kept 1350 0);
        nextAngle s.sgv.run.isSome s.hli.force 200 3200 (imageOf .fresh 3000 0) s.sgv.ac = some 3200
          ∧ s.sgv.run.isSome = false)
      ∧ (let s : State := { steeringBy (imageOf .held 0 0) (imageOf .bad 0 0) (imageOf .held 0 0) with
          sgv.ac := none, sgv.run := some (steerRun .isolate none 0) };
        s.sgv.run.isSome = true ∧ nextAngle true s.hli.force 200 0 (imageOf .held 0 0) s.sgv.ac = none) := by decide

/-- R150 to R154 at their boundaries, and the figures of R152. -/
theorem test_steering_computation :
    let t (ang prs acc : Int) := (computeSgv .drive 3200 200 (steeringBy (imageOf .fresh ang 0) (imageOf .fresh prs 0)
      (imageOf .fresh acc 0))).sgv
    let g : Settings := { Settings.default with accMin := 12, yawGain := 6 }
    ((t 2699 1199 0).track, (t 2699 1199 0).supply, (t 2699 1199 0).accLow, (t 2699 1199 0).wide) = (true, true, true, 10)
      ∧ ((t 2700 1200 3000).track, (t 2700 1200 3000).supplyCount, (t 2700 1200 3000).accCount, (t 2700 1200 3000).narrow)
        = (false, 0, 0, 0)
      ∧ (t 3000 1200 3000).narrow = 10
      ∧ ((t 3000 1200 3000).staged.map (fun x => (x.frame, x.svCmd, x.cond))) = some (0, 100, ⟨false, false, false⟩)
      ∧ (yawBias .drive g ⟨400, .fresh⟩ (some 3200), yawBias .safeHold { g with yawGain := 15 } ⟨50, .fresh⟩ (some (-4000)),
          yawBias .drive g ⟨401, .fresh⟩ (some 3200), yawBias .drive g ⟨49, .fresh⟩ (some 3200),
          yawBias .drive g ⟨400, .fresh⟩ (some 300), yawBias .standby g ⟨400, .fresh⟩ (some 3200)) = (48, -150, 0, 0, 0, 0) := by
  decide

/-- R176, R177, R181 for an entry that is CORRUPT: the fail count update takes the injection, and the next read meets it
once; a SINGLE is corrected and the mark stays. -/
def struckCorrupt (i : Inject) : State :=
  countFailure 95 { rangeEntry with corrupt := true } (injected i (screened { rangeEntry with corrupt := true }))

theorem test_injection_in_a_corrupt_entry_is_met_once :
    let seen (i : Inject) : Bool × Nat × Nat × Nat × Bool × Bool :=
      let r := readScreen 95 (struckCorrupt i)
      let t := (readScreen 95 r.2).2
      (r.1.corrupt, r.1.failCount, t.imn.screen.corrected, t.imn.screen.uncorrectable, standing .integCorrected t,
        standing .integUncorrectable t)
    seen .none = (true, 1, 0, 0, false, false) ∧ seen .single = (true, 1, 1, 0, true, false)
      ∧ (readScreen 95 (struckCorrupt .single)).2.imn.screen.capCorrected = some 95 := by decide

theorem test_double_error_in_a_corrupt_entry_is_counted_once :
    let s := screened { rangeEntry with corrupt := true }
    let t := (readScreen 95 { s with sgs.screen := s.sgs.screen.set 95 ⟨{ rangeEntry with corrupt := true }, [3, 9]⟩ }).2
    (t.imn.screen.uncorrectable, t.imn.screen.capUncorrectable, standing .integUncorrectable t,
      t.sgs.screen[95]?.map (fun p => (p.val.corrupt, p.flips))) = (1, some 95, true, some (true, [])) := by decide

/-- The clauses of SettingsAreCheckedStoredAndRead about the ranges and the values held, at the first and the last id. -/
theorem test_witness_SettingRanges :
    settingInRange 1 20 = true ∧ settingInRange 1 15 = false ∧ settingInRange 2 195 = true ∧ settingInRange 34 31 = true
      ∧ settingInRange 34 32 = false ∧ settingInRange 5 0 = true ∧ settingInRange 9 1 = false := by decide

/-- The clauses of LoopScanBeginsAndEnrols about a probe in its slot: below the last address, and at it. -/
def scanning (addr : Nat) : State :=
  { loopUp with
    slc.scan := some ⟨addr + 1, false, 0, 2, addr⟩, hli.deferred := some ⟨.loopScan, 9⟩
    slc.slot := some ⟨.scan, addr, 7, .read, false, 0, false, false⟩ }

theorem test_witness_ScanProbeInItsSlot :
    ∀ a ∈ [46, 47], ∀ ws ∈ [soundWords 0xEEC0 0x1003, soundWords 0xEFC0 0x1003],
      let x : SlotEx := ⟨.scan, a, 7, .read, false, 0, false, false⟩
      (scanning a).pins.reset = false ∧ (scanning a).slc.slot = some x ∧ x.claim = .scan ∧ x.afterReset = false
        ∧ (scanning a).slc.scan = some ⟨a + 1, false, 0, 2, a⟩ ∧ stationAt a (scanning a) = none
        ∧ (heardReply x ws).isSome ∧ (scanning 47).hli.deferred = some ⟨.loopScan, 9⟩ := by decide

theorem test_scan_goes_on_and_ends :
    let t := after (.exchangeComplete (soundWords 0xEFC0 0x1003)) (scanning 47)
    (after (.exchangeComplete (soundWords 0xEEC0 0x1003)) (scanning 46)).slc.scan = some ⟨47, false, 0, 2, 46⟩
      ∧ (t.slc.scan, t.hli.deferred, t.slc.slot, t.slc.dir.map (·.addr)) = (none, none, none, [47])
      ∧ t.hli.tx.getLast? = some (.reply true 0x8D 9 (.done [0, 0, 1, 0, 0, 0, 0, 2, 0, 47])) := by decide

/-- The clauses of FrameStartBeginsTheNextFrame about the steps of a frame start. -/
theorem test_witness_FrameStartInSteps :
    (∀ ph ∈ [Phase.idle, .done, .acq, .dispatch, .service], ∀ b ∈ [true, false],
        let s : State := { runningFrame ph with slc.firstFrame := b }
        s.pins.reset = false ∧ s.slc.frameTimer = true ∧ ∀ p ∈ s.slc.acq, p.flips = [])
      ∧ (let s := passing .dispatch (entryOn .write .strict 40) driving; (∀ p ∈ s.slc.acq, p.flips = []) ∧ s.slc.run.isSome) := by
  decide

/-- R55, R167: the skips of an unfinished frame, and its record. -/
theorem test_frame_start_skips_and_records :
    let s := passing .dispatch (entryOn .write .strict 40) (recording .running true 0)
    let t (ph : Phase) (begun : Bool) : State :=
      after .frameStart { s with slc.phase := ph, slc.run := some { turnOf (entryOn .write .strict 40) with begun := begun } }
    [((t .dispatch false).hli.counters.entriesSkipped.val, (t .dispatch false).trc.ring.length),
        ((t .dispatch true).hli.counters.entriesSkipped.val, (t .dispatch true).trc.ring.length),
        ((t .published false).hli.counters.entriesSkipped.val, (t .published false).trc.ring.length),
        ((t .service false).hli.counters.entriesSkipped.val, (t .service false).trc.ring.length)]
      = [(1, 2), (0, 2), (1, 2), (0, 2)] := by decide

/-- The clauses of DeliveriesAreScreenedByTheTable about a write of any number of entries. -/
def editingTwo (gov : Gov) : State := { driving with dsc.gov := gov, hli.cursor := ⟨2, 94, .none⟩ }

theorem test_witness_ScreeningTableWrites :
    (∀ g ∈ [Gov.halted, .drive], (editingTwo g).hli.cursor.table = 2 ∧ (editingTwo g).hli.cursor.mode = .none
        ∧ (editingTwo g).sgs.screen.length = 96 ∧ (editingTwo g).hli.cursor.index + 2 ≤ 96)
      ∧ (let d := rangeBytes ++ List.replicate 12 0
        d ≠ [] ∧ d.length % 12 = 0 ∧ d.length ≤ 240 ∧ d.length / 12 = 2 ∧ (decodeScreen (d.drop 12)).valid = false)
      ∧ CanTake (editingTwo .drive) :=
  ⟨by decide, by decide, can _ rfl⟩

/-- R68: the refusals in their order, each with the index of the entry, and an entry written not valid. -/
theorem test_screening_writes_and_refusals :
    let last (g : Gov) (d : List Byte) := (after (.tableWrite 1 d) (editingTwo g)).hli.tx.getLast?
    let no (d : Detail) (n : Nat) : Option Msg := some (.reply false 0x87 1 (.refused .range d n))
    last .drive (rangeBytes ++ rangeBytes) = some (.reply false 0x87 1 (.refused .state .notHalted 0))
      ∧ last .halted (rangeBytes ++ rangeBytes.set 1 35) = no .signalClass 95
      ∧ last .halted (rangeBytes.set 6 0x80 ++ rangeBytes.set 1 35) = no .field 94
      ∧ last .drive (rangeBytes.set 2 2) = no .partner 94
      ∧ last .drive (rangeBytes.set 0 0xA0) = no .partner 94
      ∧ ((after (.tableWrite 1 (rangeBytes ++ rangeBytes.set 0 0)) (editingTwo .halted)).sgs.screen.drop 93).map (·.val.signal)
        = [0, 1, 0] := by decide

/-- The clauses of EnvelopeAndHaulPayload about rest frames, at an empty and a full window. -/
theorem test_witness_RestFrames :
    atRest resting = true ∧ (atRest driving = false ∧ driving.epu.restCount = 0)
      ∧ (let s : State := { resting with epu.restCount := 65535, epu.restWindow := List.replicate 50 (7, false), sgs.payload := ⟨9, .fresh⟩ }
        let t := weighPayload s
        (t.epu.restCount, t.epu.restWindow.length, t.epu.restWindow.head?, t.epu.restWindow.getLast?)
          = (65535, 50, some (7, false), some (9, true))) := by decide

/-- The clauses of WheelCommandIsBounded about PROPEL_RETARD and the conditions staged. -/
theorem test_witness_PropelRetardAndConditions :
    let t (p : Nat) (r : Int) := computeTal .drive { descending with propel := p } .initial
      { driving with out.rreq := ⟨r, some 9⟩, tal.wheelL.persist := true }
    (∀ q ∈ driving.sgs.image, q.flips = [])
      ∧ [(1, 1), (1, 0), (0, 1)].map (fun x => ((t x.1 x.2).tal.propelRetard, standing .propelRetard (t x.1 x.2)))
        = [(true, true), (false, false), (false, false)]
      ∧ (t 1 1).tal.staged.map (·.cond) = some ⟨false, false, true⟩ := by decide

/-- The clauses of HoldShortComesAndGoesAtTen about a computation. -/
theorem test_witness_HoldIsCountedInAComputation :
    (descending.hold ≠ 0 ∧ descending.propel = 0 ∧ descending.dir ≠ .neutral ∧ Quality.fresh.usable = true ∧ (30 : Int) ≤ 231)
      ∧ (nextHold .drive .default 0 0 descending ⟨231, .fresh⟩ { holding .engaged with shortCount := 9 }).hold = .short
      ∧ (nextHold .drive .default 0 0 descending ⟨230, .fresh⟩ { holding .engaged with shortCount := 9 }).shortCount = 0
      ∧ (nextHold .drive .default 0 1000 descending ⟨231, .fresh⟩ { holding .short with engageCount := 9 }).hold = .engaged
      ∧ (nextHold .drive .default 0 0 descending ⟨231, .fresh⟩ (holding .off)).shortCount = 1 := by decide

/-- The steering check's ACT at the head of the queue, its exchange in the slot, the station with a streak. -/
def steerSlot : SlotEx := ⟨.service, 9, 6, .act, false, 0, false, false⟩
def steerServing (p : SteerPhase) (streak : Nat) : State :=
  { resting with
    sgv.run := some (steerRun p (if p = .release then some (.pass, .none) else none) 0), sgv.isolation := true
    slc.phase := .service, slc.slot := some steerSlot, slc.dir := [⟨9, .steer, 0, .enrolled, streak, 0, .none⟩]
    slc.queue := [{ steerItem 9 0 with started := true }] }

/-- The clauses of SteeringCheckStartsWatchesAndReleases about the ACT in a run. -/
theorem test_witness_SteeringActInItsSlot :
    (∀ p ∈ [SteerPhase.isolate, .release], ∀ streak ∈ [0, 7],
        let s := steerServing p streak
        let it : Item := { steerItem 9 0 with started := true }
        (s.pins.reset = false ∧ s.slc.slot = some steerSlot ∧ s.slc.queue = it :: [] ∧ it.claimant = .steerCheck
            ∧ it.discard = false ∧ it.retry = none ∧ s.slc.held = [] ∧ s.rgv.check.run = none)
          ∧ s.sgv.run = some (steerRun p (if p = .release then some (.pass, .none) else none) 0)
          ∧ stationAt 9 s = some ⟨9, .steer, 0, .enrolled, streak, 0, .none⟩)
      ∧ (steerSlot.addr = (steerRun .isolate none 0).addr ∧ steerSlot.claim = .service ∧ steerSlot.afterReset = false
        ∧ steerSlot.tolerate = false ∧ 0 + 1 < Settings.default.streakExclude ∧ Settings.default.streakExclude ≤ 7 + 1)
      ∧ [soundWords 0xC9C0 7, soundWords 0xC980 7, soundWords 0xC940 7].map (fun ws => (heardReply steerSlot ws).map (·.outcome))
        = [some .takenReady, some .takenNotReady, some .untaken] := by decide

theorem test_steering_act_in_its_slot :
    let seen (c : Instr) (p : SteerPhase) (streak : Nat) : Option SteerPhase × SteerResult × Bool × Nat :=
      let t := after c (steerServing p streak)
      (t.sgv.run.map (·.phase), t.sgv.result, t.sgv.isolation, t.slc.queue.length)
    let before : SteerResult := resting.sgv.result
    let ended (o : SteerOutcome) (c : ProcCause) (b : Bool) : SteerResult := ⟨o, c, some 1500, none, 0, b⟩
    seen (.exchangeComplete (soundWords 0xC980 7)) .isolate 0 = (some .settle, before, true, 0)
      ∧ seen .slotTimeout .isolate 0 = (some .release, before, true, 1)
      ∧ seen .slotTimeout .isolate 7 = (some .release, before, true, 1)
      ∧ seen (.exchangeComplete (soundWords 0xC9C0 7)) .release 0 = (none, ended .pass .none false, false, 0)
      ∧ seen .slotTimeout .release 0 = (none, ended .fail .none true, true, 0)
      ∧ seen .slotTimeout .release 7 = (none, ended .aborted .stationExcluded true, true, 0) := by decide

/-- The clauses of RecordsJoinAndTheRecorderFreezes about a record below capacity, at the block size and below it. -/
theorem test_witness_StreamRecordBelowCapacity :
    let s (block : Nat) : State := { recording .running false 0 with trc.params := ⟨false, block, 200, false⟩ }
    let w : State := { s 1 with hli.deferred := some ⟨.recordRead, 3⟩ }
    ((s 1).trc.unread < capacity (s 1) ∧ (s 1).trc.unread + 1 = (s 1).trc.params.block)
      ∧ ((s 2).trc.unread + 1 ≠ (s 2).trc.params.block ∧ (s 1).hli.deferred = none ∧ w.hli.deferred = some ⟨.recordRead, 3⟩)
      ∧ [s 2, s 1, w].map (fun u => let t := streamRecord [9, 0, 0, 0] u; (t.trc.unread, t.trc.announced, t.hli.deferred.isSome))
        = [(1, false, false), (1, true, false), (0, false, false)] := by decide

end Sys2Proof.Tests
end

