-- ==== Sys2Proof/Proofs/DispatchClamp.lean ====
section
/-! SUPPORT. The dispatch clamp (R51, R53): what the clamp makes of a posted value in each governing state, what a dispatch
exchange puts into its slot and leaves unchanged, and when a slot start begins one. -/

namespace Sys2Proof.Machine

/-! ### The clamp, by governing state and source (R53) -/

/-- In DRIVE nothing is clamped. -/
@[simp] theorem clampDispatch_drive (sig : Nat) (v : Int) : clampDispatch .drive sig v = v := by
  simp [clampDispatch]

/-- A source that is neither a torque command nor a mode word is never clamped. -/
theorem clampDispatch_of_not_traction {sig : Nat} (h : sig ≠ 40 ∧ sig ≠ 41 ∧ sig ≠ 42 ∧ sig ≠ 43) (gov : Gov) (v : Int) :
    clampDispatch gov sig v = v := by
  obtain ⟨h40, h41, h42, h43⟩ := h
  simp [clampDispatch, h40, h41, h42, h43]

theorem clampDispatch_torque_safeHold {sig : Nat} (h : sig = 40 ∨ sig = 41) (v : Int) :
    clampDispatch .safeHold sig v = if 0 < v then 0 else v := by
  simp [clampDispatch, h]

theorem clampDispatch_torque_standby {sig : Nat} (h : sig = 40 ∨ sig = 41) (v : Int) :
    clampDispatch .standby sig v = 0 := by
  simp [clampDispatch, h]

/-- A mode word is its direction times four plus its mode; SAFE-HOLD takes a PROPEL mode (1) away. -/
theorem clampDispatch_mode_safeHold {sig : Nat} (h : sig = 42 ∨ sig = 43) (v : Int) :
    clampDispatch .safeHold sig v / 4 = v / 4
      ∧ clampDispatch .safeHold sig v % 4 = if v % 4 = 1 then 0 else v % 4 := by
  have not_torque : ¬ (sig = 40 ∨ sig = 41) := by omega
  simp only [clampDispatch, if_neg not_torque, if_pos h]
  split <;> omega

theorem clampDispatch_mode_standby {sig : Nat} (h : sig = 42 ∨ sig = 43) (v : Int) :
    clampDispatch .standby sig v / 4 = v / 4 ∧ clampDispatch .standby sig v % 4 = 0 := by
  have not_torque : ¬ (sig = 40 ∨ sig = 41) := by omega
  simp only [clampDispatch, if_neg not_torque, if_pos h]
  omega

/-! ### An exchange of the dispatch pass (R51) -/

/-- An exchange that goes into its slot changes the station loop only. -/
@[simp] theorem putExchange_frame (r : Run) (off : Nat) (c : Claim) (d : Nat) (s : State) :
    OnlySlc (putExchange r off c d s) s := by
  simp [putExchange]

/-- The flag and the counter of a stale dispatch are the host link's: the rest is the exchange put into its slot. -/
theorem startWrite_frame (r : Run) (off : Nat) (s : State) : OnlySlcHli (startWrite r off s) s := by
  simp only [startWrite]
  split <;> simp

/-- The exchange in the slot carries the posted value as it stands, clamped, in the width of the entry. -/
theorem startWrite_slot (r : Run) (off : Nat) (s : State) :
    (startWrite r off s).slc.slot = some ⟨.dispatch r.entry, r.e.addr + off, r.e.channel, r.e.func, r.e.size32,
      dataOf r.e.size32 (clampDispatch s.dsc.gov r.e.signal (s.out.get r.e.signal).value), r.e.tolerate, false⟩ := by
  simp only [startWrite]
  split <;> simp [putExchange]

/-- A value posted for the frame now running leaves the flags and the counters. -/
theorem startWrite_hli_of_fresh {r : Run} {s : State} (h : (s.out.get r.e.signal).frame = some s.slc.frameNo)
    (off : Nat) : (startWrite r off s).hli = s.hli := by
  simp [startWrite, putExchange, h]

/-- A value not posted for the frame now running is counted and latched stale. -/
theorem startWrite_hli_of_stale {r : Run} {s : State} (h : (s.out.get r.e.signal).frame ≠ some s.slc.frameNo)
    (off : Nat) : (startWrite r off s).hli =
      { s.hli with flags := s.hli.flags ||| Flag.staleDispatch.mask
                   counters.staleDispatches := s.hli.counters.staleDispatches.rise } := by
  simp [startWrite, putExchange, h, Counters.rise]

/-! ### The slot start that begins it (R25, R51) -/

/-- A run that is no SPAN run addresses its entry's own station (R45, R46). -/
theorem nextOffset_of_not_span {e : AcqEntry} {s : State} (h : e.settle ≠ .span) (hx : isExcluded e.addr s = false)
    (k : Nat) : nextOffset e k s = some 0 := by
  simp [nextOffset, h, hx]

theorem budgetUsedUp_of_slots_lt {s : State} (h : s.slc.slots < passBudget s) : budgetUsedUp s = false := by
  simp [budgetUsedUp, h]

/-- The run of the dispatch pass begins its exchange when the budget has a slot left, its entry is not CORRUPT and it has a
station to address. -/
theorem startPass_eq_startWrite {r : Run} {off : Nat} {s : State} (hp : s.slc.phase = .dispatch)
    (hr : s.slc.run = some r) (hb : budgetUsedUp s = false) (hc : (entryAt r.entry s).corrupt = false)
    (ho : nextOffset r.e r.offset s = some off) (n : Nat) : startPass (n + 1) s = startWrite r off s := by
  simp [startPass, hp, hr, hb, hc, ho]

/-- The service pass begins no exchange while one is in its slot. -/
theorem startService_of_slot {x : SlotEx} {s : State} (h : s.slc.slot = some x) : startService s = s := by
  simp [startService, h]

/-- With the loop UP and no exchange in its slot, a slot start of the dispatch pass begins the exchange of its run. -/
theorem exchangeStart_eq_startWrite {r : Run} {off : Nat} {s : State} (hg : s.dsc.gov ≠ .halted)
    (hl : s.slc.loopState = .up) (hs : s.slc.slot = none) (hp : s.slc.phase = .dispatch) (hr : s.slc.run = some r)
    (hb : budgetUsedUp s = false) (hc : (entryAt r.entry s).corrupt = false)
    (ho : nextOffset r.e r.offset s = some off) : exchangeStart s = startWrite r off s := by
  calc exchangeStart s = startService (startPass 65 s) := by simp [exchangeStart, hg, hl, hs, hp]
    _ = startService (startWrite r off s) := by rw [startPass_eq_startWrite hp hr hb hc ho]
    _ = startWrite r off s := startService_of_slot (startWrite_slot r off s)

/-- Settles O28: the slot start is `startWrite`, whose exchange carries `clampDispatch` of the posted value; the clamp's
equations give the value sent in each governing state. -/
theorem dispatchClampChangesOnlyTheValueSent : Obligations.DispatchClampChangesOnlyTheValueSent := by
  intro r s live not_halted up no_slot in_dispatch run slots_left e not_corrupt not_span not_excluded p
  have budget_left : budgetUsedUp s = false :=
    budgetUsedUp_of_slots_lt (by simpa [passBudget, in_dispatch] using slots_left)
  have starts : exchangeStart s = startWrite r 0 s :=
    exchangeStart_eq_startWrite not_halted up no_slot in_dispatch run budget_left not_corrupt
      (nextOffset_of_not_span not_span not_excluded r.offset)
  obtain ⟨-, -, posted_kept, -⟩ := startWrite_frame r 0 s
  refine ⟨startWrite r 0 s, clampDispatch s.dsc.gov e.signal p.value, ?next, posted_kept, startWrite_slot r 0 s,
    ?as_posted, ?torque_safeHold, ?torque_standby, ?mode_safeHold, ?mode_standby,
    fun fresh => startWrite_hli_of_fresh fresh 0, fun stale => startWrite_hli_of_stale stale 0⟩
  case next => exact (live_of_run exchangeStart live).trans (congrArg _ starts)
  case as_posted =>
    rintro (drive | other)
    · rw [drive, clampDispatch_drive]
    · exact clampDispatch_of_not_traction other _ _
  case torque_safeHold => intro gov torque; rw [gov, clampDispatch_torque_safeHold torque]
  case torque_standby => intro gov torque; rw [gov, clampDispatch_torque_standby torque]
  case mode_safeHold => intro gov mode; rw [gov]; exact clampDispatch_mode_safeHold mode p.value
  case mode_standby => intro gov mode; rw [gov]; exact clampDispatch_mode_standby mode p.value

end Sys2Proof.Machine
end

