-- ==== Sys2Proof/Proofs/HoldPath.lean ====
section
/-! SUPPORT. The hold path (R71): its effect by the quality in image N-1, one miss within the hold allowance and one past it,
and a run of misses. -/

namespace Sys2Proof.Machine

/-- The qualities from which the hold path keeps the value: the first row of R71. -/
def Quality.KeepsValue (q : Quality) : Prop := q = .fresh ∨ q = .kept ∨ q = .subst ∨ q = .held

/-! ### The rows of R71 -/

theorem holdPath_of_keepsValue {e : ImageEntry} (h : e.quality.KeepsValue) (id : Nat) :
    holdPath id e = { e with
      heldCount := satSucc 255 e.heldCount
      quality := if satSucc 255 e.heldCount ≤ holdAllowance id then .held else .bad } := by
  obtain fresh | kept | subst | held := h
  · simp [holdPath, fresh]
  · simp [holdPath, kept]
  · simp [holdPath, subst]
  · simp [holdPath, held]

theorem holdPath_of_absent {e : ImageEntry} (h : e.quality = .absent) (id : Nat) :
    holdPath id e = { e with
      value := 0
      heldCount := satSucc 255 e.heldCount
      quality := if satSucc 255 e.heldCount ≤ holdAllowance id then .absent else .bad } := by
  simp [holdPath, h]

theorem holdPath_of_bad {e : ImageEntry} (h : e.quality = .bad) (id : Nat) : holdPath id e = e := by
  simp [holdPath, h]

/-! ### Misses within the hold allowance, and the one that passes it -/

/-- Every row of R63 keeps far below 255, where the held count saturates. -/
theorem holdAllowance_le_eight (id : Nat) : holdAllowance id ≤ 8 := by
  simp [holdAllowance, apply_ite (· ≤ 8)]

theorem satSucc_of_lt {top n : Nat} (h : n < top) : satSucc top n = n + 1 := if_pos h

theorem satSucc_of_le_holdAllowance {n id : Nat} (h : n ≤ holdAllowance id) : satSucc 255 n = n + 1 :=
  satSucc_of_lt (by have := holdAllowance_le_eight id; omega)

/-- A miss below the hold allowance keeps the value and leaves the signal HELD. -/
theorem holdPath_within_allowance {id : Nat} {e : ImageEntry} (hq : e.quality.KeepsValue)
    (hc : e.heldCount < holdAllowance id) :
    holdPath id e = { e with heldCount := e.heldCount + 1, quality := .held } := by
  rw [holdPath_of_keepsValue hq, satSucc_of_le_holdAllowance hc.le, if_pos (Nat.succ_le_of_lt hc)]

/-- The miss at the hold allowance passes it: the signal is BAD, its value still the last good one. -/
theorem holdPath_past_allowance {id : Nat} {e : ImageEntry} (hq : e.quality.KeepsValue)
    (hc : e.heldCount = holdAllowance id) :
    holdPath id e = { e with heldCount := e.heldCount + 1, quality := .bad } := by
  rw [holdPath_of_keepsValue hq, satSucc_of_le_holdAllowance hc.le, if_neg (by omega)]

/-- Misses in a row keep the last good value while they stay within the hold allowance. -/
theorem holdPath_iterate_within_allowance {id : Nat} {e : ImageEntry} (hq : e.quality.KeepsValue) (k : Nat)
    (hk : e.heldCount + (k + 1) ≤ holdAllowance id) :
    (holdPath id)^[k + 1] e = { e with heldCount := e.heldCount + (k + 1), quality := .held } := by
  induction k with
  | zero => exact holdPath_within_allowance hq hk
  | succ k ih =>
    have held_after : (holdPath id)^[k + 1] e = { e with heldCount := e.heldCount + (k + 1), quality := .held } :=
      ih (by omega)
    rw [Function.iterate_succ_apply', held_after]
    exact holdPath_within_allowance (.inr (.inr (.inr rfl))) hk

/-- In a run of misses, the one that finds the held count at the hold allowance turns the signal BAD. -/
theorem holdPath_iterate_past_allowance {id : Nat} {e : ImageEntry} (hq : e.quality.KeepsValue) (k : Nat)
    (hk : e.heldCount + (k + 1) = holdAllowance id) :
    (holdPath id)^[k + 2] e = { e with heldCount := e.heldCount + (k + 2), quality := .bad } := by
  rw [Function.iterate_succ_apply', holdPath_iterate_within_allowance hq k hk.le]
  exact holdPath_past_allowance (.inr (.inr (.inr rfl))) hk

/-- Settles O33: the rows of R71, and its figure as the run of misses at a hold allowance of 2. -/
theorem holdPathKeepsWithinTheAllowance : Obligations.HoldPathKeepsWithinTheAllowance := by
  refine ⟨fun id e => ⟨fun keeps => holdPath_of_keepsValue keeps id, fun absent => holdPath_of_absent absent id,
    fun bad => holdPath_of_bad bad id⟩, ?three_misses⟩
  case three_misses =>
    intro id e allowance fresh count a b c
    have keeps : e.quality.KeepsValue := .inl fresh
    have first : a = { e with heldCount := 1, quality := .held } := by
      simpa [count] using holdPath_iterate_within_allowance keeps 0 (by omega : _ ≤ holdAllowance id)
    have second : b = { e with heldCount := 2, quality := .held } := by
      simpa [count] using holdPath_iterate_within_allowance keeps 1 (by omega : _ ≤ holdAllowance id)
    have third : c = { e with heldCount := 3, quality := .bad } := by
      simpa [count] using holdPath_iterate_past_allowance keeps 1 (by omega : _ = holdAllowance id)
    rw [first, second, third]
    exact ⟨rfl, rfl, rfl, rfl, rfl, rfl⟩

end Sys2Proof.Machine
end

