-- ==== Sys2Proof/Proofs/IntegrityInject.lean ====
section
/-! SUPPORT. INTEGRITY-INJECT (R180): how a request that needs no deferred slot reaches its owner, the codes of the memories
and of the injections, and the request's outcome at each of its checks and when it is taken. -/

namespace Sys2Proof.Machine

/-! ### A request taken at once (R184) -/

/-- A request that can be taken, reads back from its frame and asks for no deferred slot is handed to its owner. -/
theorem exec_eq_take {c : Instr} {f : Frame} {s : State} (frame : frameOf c = some f) (reads_back : requestOf f = .ok c)
    (can_take : CanTake s) (no_slot : asksSlot c s = false) : exec c s = .next (take c s) := by
  have waits_not : frameWaits f s = false := by rw [frameWaits_of_ok reads_back, no_slot, Bool.and_false]
  rw [exec_runFrame frame can_take waits_not, runFrame, reads_back]

theorem requestOf_integrityInject {tag : Byte} (h : tag ≠ 0#8) (mem kind : Byte) :
    requestOf ⟨0x1A, tag, [mem, kind]⟩ = .ok (.integrityInject tag mem kind) :=
  if_neg h

theorem exec_integrityInject {tag : Byte} {s : State} (h : CanTake s) (ht : tag ≠ 0#8) (mem kind : Byte) :
    exec (.integrityInject tag mem kind) s = .next (takeIntegrityInject tag mem kind s) :=
  exec_eq_take rfl (requestOf_integrityInject ht mem kind) h rfl

/-! ### The codes of the memories and of the injections (R180) -/

/-- The codes of the four memories are 1 to 4. -/
theorem memOfCode_eq_none : ∀ {n : Nat}, n < 1 ∨ 4 < n → memOfCode n = none
  | 0, _ | _ + 5, _ => rfl
  | 1, h | 2, h | 3, h | 4, h => absurd h (by decide)

/-- The codes of the injections are 0 to 2. -/
theorem injectOfCode_eq_none : ∀ {n : Nat}, 2 < n → injectOfCode n = none
  | _ + 3, _ => rfl
  | 0, h | 1, h | 2, h => absurd h (by decide)

/-- The code of a memory, which `memOfCode` reads back. -/
def memCode : Mem → Byte
  | .acq => 1 | .screen => 2 | .image => 3 | .record => 4

theorem memOfCode_memCode (m : Mem) : memOfCode (memCode m).toNat = some m := by
  cases m <;> rfl

/-- A byte in the range of the memory codes is the code of a memory. -/
theorem exists_memCode_eq {mem : Byte} (h : ¬ (mem.toNat < 1 ∨ 4 < mem.toNat)) : ∃ m : Mem, mem = memCode m := by
  have one_of_four : mem = 1#8 ∨ mem = 2#8 ∨ mem = 3#8 ∨ mem = 4#8 := by bv_omega
  obtain acq | screen | image | record := one_of_four
  · exact ⟨.acq, acq⟩
  · exact ⟨.screen, screen⟩
  · exact ⟨.image, image⟩
  · exact ⟨.record, record⟩

/-- A byte in the range of the injection codes names NONE, SINGLE or DOUBLE. -/
theorem injectOfCode_of_kind {kind : Byte} (h : ¬ 2 < kind.toNat) :
    injectOfCode kind.toNat = some (if kind = 0#8 then .none else if kind = 1#8 then .single else .double) := by
  have one_of_three : kind = 0#8 ∨ kind = 1#8 ∨ kind = 2#8 := by bv_omega
  obtain rfl | rfl | rfl := one_of_three <;> rfl

/-! ### The three checks, in order (R180) -/

theorem takeIntegrityInject_of_no_memory {mem : Byte} (h : mem.toNat < 1 ∨ 4 < mem.toNat) (tag kind : Byte) (s : State) :
    takeIntegrityInject tag mem kind s = s.turnedAway 0x9A tag .range .field 1 := by
  rw [takeIntegrityInject, memOfCode_eq_none h]
  exact refuse_eq (by decide) ..

theorem takeIntegrityInject_of_no_kind {kind : Byte} (h : 2 < kind.toNat) (tag : Byte) (m : Mem) (s : State) :
    takeIntegrityInject tag (memCode m) kind s = s.turnedAway 0x9A tag .range .field 2 := by
  simp only [takeIntegrityInject, memOfCode_memCode, injectOfCode_eq_none h]
  exact refuse_eq (by decide) ..

/-- HALTED and STANDBY are the governing states other than DRIVE and SAFE-HOLD (R1). -/
theorem not_halted_standby_iff (g : Gov) : (g ≠ .halted ∧ g ≠ .standby) ↔ (g = .drive ∨ g = .safeHold) := by
  cases g <;> decide

theorem takeIntegrityInject_of_governing {kind : Byte} {k : Inject} {s : State} (hk : injectOfCode kind.toNat = some k)
    (hg : s.dsc.gov = .drive ∨ s.dsc.gov = .safeHold) (tag : Byte) (m : Mem) :
    takeIntegrityInject tag (memCode m) kind s = s.turnedAway 0x9A tag .state .governing (govCode s.dsc.gov) := by
  simp only [takeIntegrityInject, memOfCode_memCode, hk, if_pos ((not_halted_standby_iff _).mpr hg)]
  exact refuse_eq (by decide) ..

/-- Past the three checks the kind becomes the pending injection of the memory named. -/
theorem takeIntegrityInject_of_taken {kind : Byte} {k : Inject} {s : State} (hk : injectOfCode kind.toNat = some k)
    (hg : ¬ (s.dsc.gov = .drive ∨ s.dsc.gov = .safeHold)) (tag : Byte) (m : Mem) :
    takeIntegrityInject tag (memCode m) kind s = (updGuard m ({ · with inject := k }) s).answered 0x9A tag [] := by
  simp only [takeIntegrityInject, memOfCode_memCode, hk, if_neg (mt (not_halted_standby_iff _).mp hg)]
  exact done_eq (by decide) ..

/-- Settles O12: the request is handed to its owner, each check that fails gives its refusal, and past the three the guard of
the memory named, alone, is updated. -/
theorem integrityInjectChecksInOrderAndPends : Obligations.IntegrityInjectChecksInOrderAndPends := by
  intro tag mem kind s can_take tag_ne no k
  rw [exec_integrityInject can_take tag_ne]
  by_cases no_memory : mem.toNat < 1 ∨ 4 < mem.toNat
  · rw [if_pos no_memory, takeIntegrityInject_of_no_memory no_memory]
  obtain ⟨m, rfl⟩ := exists_memCode_eq no_memory
  rw [if_neg no_memory]
  by_cases no_kind : 2 < kind.toNat
  · rw [if_pos no_kind, takeIntegrityInject_of_no_kind no_kind]
  rw [if_neg no_kind]
  have names_k : injectOfCode kind.toNat = some k := injectOfCode_of_kind no_kind
  by_cases governing : s.dsc.gov = .drive ∨ s.dsc.gov = .safeHold
  · rw [if_pos governing, takeIntegrityInject_of_governing names_k governing]
  rw [if_neg governing, takeIntegrityInject_of_taken names_k governing]
  cases m with
  | acq => rfl
  | screen => rfl
  | image => rfl
  | record => rfl

end Sys2Proof.Machine
end

section
/-! SUPPORT. What every step keeps: the step is the front command's `exec`, and every command, a request's frame or an event,
keeps the table sizes and the DRIVE invariant. -/

namespace Sys2Proof.Machine

/-- Settles O1: both are the branches of `step`. -/
theorem stepRunsTheFrontCommand : Obligations.StepRunsTheFrontCommand := by
  refine ⟨fun c rest s front => ?_, fun s empty => ?_⟩
  · simp [step, front]
  · simp [step, empty]

/-- A step idles, or runs the front command on a state that differs in the queue alone. -/
theorem step_cases {s t : State} (h : step s = .next t) :
    t = s ∨ ∃ c rest, s.pending = c :: rest ∧ exec c { s with pending := rest } = .next t := by
  cases front : s.pending with
  | nil => simp only [step, front] at h; cases h; exact .inl rfl
  | cons c rest => exact .inr ⟨c, rest, rfl, by rw [← h, stepRunsTheFrontCommand.1 c rest s front]⟩

theorem fullResetEffect_whole (s : State) (h : TablesWhole s) : TablesWhole (fullResetEffect s) := by
  unfold fullResetEffect
  split
  · exact fullResetTo_whole _ _ _
  · exact h

/-- Every command keeps the table sizes: a request as its frame submitted, an event by its own lemma. -/
theorem exec_whole {c : Instr} {s t : State} (hs : TablesWhole s) (h : exec c s = .next t) : TablesWhole t := by
  cases is_request : frameOf c with
  | some f => exact live_whole (request_whole c s) hs (exec_request is_request s ▸ h)
  | none =>
    cases c
    case powerOn => cases h; exact fullResetTo_whole _ _ _
    case resetPinAssert => cases h; split; exacts [hs, fullResetTo_whole _ _ _]
    case resetPinRelease => cases h; split; exacts [fullResetTo_whole _ _ _, hs]
    case stopLineAssert => cases h; (repeat' split); exacts [hs, hs, tablesWhole_of_sizes (stopAssert_sizes s) hs]
    case stopLineRelease => cases h; split; exacts [hs, tablesWhole_of_sizes (stopRelease_kept s).1 hs]
    case fullResetTakesEffect => exact live_whole (fullResetEffect_whole s) hs h
    case hostFrameReceived bytes => exact live_whole (receiveBytes_whole bytes s) hs h
    case messageSent => exact live_whole (messageSent_whole s) hs h
    case publication => exact live_whole (publication_whole s) hs h
    all_goals cases is_request
    all_goals exact live_whole (tablesWhole_of_sizes (by simp)) hs h

/-- Settles O57. -/
theorem everyStepKeepsTheTablesWhole : Obligations.EveryStepKeepsTheTablesWhole := by
  intro s t whole stepped
  obtain rfl | ⟨c, rest, -, runs⟩ := step_cases stepped
  · exact whole
  · exact exec_whole (s := { s with pending := rest }) whole runs

/-- Every command keeps DRIVE safe: the events that move the governing state, the trips or the steering supply check by
their own lemmas, the others because they leave all three. -/
theorem exec_safe {c : Instr} {s t : State} (hs : DriveSafe s) (h : exec c s = .next t) : DriveSafe t := by
  cases is_request : frameOf c with
  | some f => exact live_safe (request_safe c s) hs (exec_request is_request s ▸ h)
  | none =>
    cases c
    case powerOn => cases h; exact fullResetTo_safe _ _ _
    case resetPinAssert => cases h; split; exacts [hs, fullResetTo_safe _ _ _]
    case resetPinRelease => cases h; split; exacts [fullResetTo_safe _ _ _, hs]
    case stopLineAssert => cases h; (repeat' split); exacts [hs, hs, stopAssert_safe s hs]
    case stopLineRelease => cases h; split; exacts [hs, safe_of_guard (stopRelease_kept s).2 hs]
    case fullResetTakesEffect => exact live_safe (fullResetEffect_safe s) hs h
    case demandTimerExpiry => exact live_safe (demandExpiry_safe s) hs h
    case hostFrameReceived bytes => exact live_safe (receiveBytes_safe bytes s) hs h
    case messageSent => exact live_safe (messageSent_safe s) hs h
    case loopEdgeTimeout => exact live_safe (edgeTimeout_safe s) hs h
    case exchangeStart => exact live_safe (exchangeStart_safe s) hs h
    case exchangeComplete words => exact live_safe (exchangeComplete_safe words s) hs h
    case slotTimeout => exact live_safe (complete_safe _ s) hs h
    case stationSuspect addr => exact live_safe (streakReaches_safe _ addr s) hs h
    case stationExcluded addr => exact live_safe (streakReaches_safe _ addr s) hs h
    case persistRetryExhausted => exact live_safe (persistExhausted_safe s) hs h
    case publication => exact live_safe (publication_safe s) hs h
    case steerCheckWatchEnd => exact live_safe (steerWatchEnd_safe s) hs h
    all_goals cases is_request
    all_goals exact live_safe (safe_of_guard (by simp)) hs h

/-- Settles O58. -/
theorem everyStepKeepsDriveSafe : Obligations.EveryStepKeepsDriveSafe := by
  intro s t safe stepped
  obtain rfl | ⟨c, rest, -, runs⟩ := step_cases stepped
  · exact safe
  · exact exec_safe (s := { s with pending := rest }) safe runs

/-- Settles O59: the reset state has the tables of the initial state, and is HALTED. -/
theorem invariantsHoldAtReset : Obligations.InvariantsHoldAtReset :=
  ⟨initial_whole false false [], safe_of_notDrive (by simp [State.reset, State.initial, Dsc.initial])⟩

end Sys2Proof.Machine
end

section
/-! SUPPORT. The host link (R183, R184, R188, R195 to R198): a request's frame reads back as the request, its bytes as the
frame; what becomes of a frame that is submitted, and of a message that is sent. -/

namespace Sys2Proof.Machine

/-! ### The frame of a request (R197) -/

theorem isRequestKind_of_frameOf {c : Instr} {f : Frame} (h : frameOf c = some f)
    (known : ∀ k t p, c ≠ .unknownRequestKind k t p) : isRequestKind f.kind = true := by
  cases c
  case unknownRequestKind k t p => exact absurd rfl (known k t p)
  all_goals cases h <;> rfl

/-- The payload of a request's frame is read back as the request: the fields of one byte as they stand, the wider ones
from their bytes. -/
theorem requestIn_of_frameOf {c : Instr} {f : Frame} (h : frameOf c = some f)
    (known : ∀ k t p, c ≠ .unknownRequestKind k t p) : requestIn f.tag f.kind.toNat f.payload = some c := by
  cases c
  case unknownRequestKind k t p => exact absurd rfl (known k t p)
  case demand => cases h; simp [requestIn, demandIn, be2, of2_be2]
  case settingWrite => cases h; simp [requestIn, settingIn, be4, of4_be4]
  case tableCursor => cases h; simp [requestIn, cursorIn, be2, of2_be2]
  case loopExchange => cases h; simp [requestIn, exchangeIn, be4, of4_be4]
  case recordFind => cases h; simp [requestIn, findIn, be4, of4_be4]
  all_goals cases h <;> rfl

theorem requestOf_of_frameOf {c : Instr} {f : Frame} (h : frameOf c = some f) (tag_ne : f.tag ≠ 0#8)
    (known : ∀ k t p, c ≠ .unknownRequestKind k t p) : requestOf f = .ok c := by
  simp [requestOf, isRequestKind_of_frameOf h known, tag_ne, requestIn_of_frameOf h known]

/-- Settles O2. -/
theorem everyRequestFrameReadsBack : Obligations.EveryRequestFrameReadsBack :=
  fun _ _ frame _ tag_ne known => requestOf_of_frameOf frame tag_ne known

/-! ### A request that is taken, waits or is dropped (R184, R188) -/

/-- A request that can be taken, and need not wait for the reply to a deferred request, is handed to its owner. -/
theorem exec_take {c : Instr} {f : Frame} {s : State} (frame : frameOf c = some f) (can_take : CanTake s)
    (tag_ne : f.tag ≠ 0#8) (known : ∀ k t p, c ≠ .unknownRequestKind k t p)
    (free : deferredUnsent s = false ∨ asksSlot c s = false) : exec c s = .next (take c s) := by
  have reads_back : requestOf f = .ok c := requestOf_of_frameOf frame tag_ne known
  have waits_not : frameWaits f s = false := by
    rw [frameWaits_of_ok reads_back]
    obtain h | h := free <;> simp [h]
  rw [exec_runFrame frame can_take waits_not, runFrame, reads_back]

theorem exec_submit {c : Instr} {f : Frame} {s : State} (frame : frameOf c = some f) (live : Live s) :
    exec c s = .next (submit f s) := by
  rw [exec_request frame, live_of_run _ live, request, frame]

/-- Nothing is taken while the frame at the head of the receive queue waits. -/
theorem drain_of_head_waits {g : Frame} {gs : List Frame} {s : State} (head : s.hli.rx = g :: gs)
    (waits : frameWaits g s = true) (n : Nat) : drain n s = s := by
  cases n with
  | zero => rfl
  | succ n => simp [drain, head, waits]

/-- A frame submitted while nothing can be taken joins the receive queue, or is dropped where 4 are held. -/
theorem submit_of_blocked (f : Frame) {s : State}
    (blocked : ready s = false ∨ ∃ g gs, s.hli.rx = g :: gs ∧ frameWaits g s = true) :
    submit f s = if s.hli.rx.length < 4 then { s with hli.rx := s.hli.rx ++ [f] }
      else { s with hli.counters.hostRxDropped := s.hli.counters.hostRxDropped.rise } := by
  have stays : drainAll { s with hli.rx := s.hli.rx ++ [f] } = { s with hli.rx := s.hli.rx ++ [f] } := by
    obtain not_ready | ⟨g, gs, head, waits⟩ := blocked
    · exact drain_of_not_ready (s := { s with hli.rx := s.hli.rx ++ [f] }) not_ready _
    · exact drain_of_head_waits (s := { s with hli.rx := s.hli.rx ++ [f] }) (gs := gs ++ [f]) (by simp [head]) waits _
  rw [submit, stays]
  rfl

/-- Settles O4. -/
theorem requestIsTakenOrWaitsOrIsDropped : Obligations.RequestIsTakenOrWaitsOrIsDropped := by
  refine ⟨fun c f s frame tag_ne known can_take free => exec_take frame can_take tag_ne known free,
    fun c f s frame live blocked => ?_, fun c f s frame tag_ne known can_take unsent asks => ?_⟩
  · rw [exec_submit frame live, submit_of_blocked f blocked]
  · obtain ⟨live, -, no_frame⟩ := can_take
    have waits : frameWaits f s = true := by
      rw [frameWaits_of_ok (requestOf_of_frameOf frame tag_ne known), unsent, asks]; rfl
    rw [exec_submit frame live, submit, no_frame]
    exact congrArg _ (drain_of_head_waits (s := { s with hli.rx := [f] }) rfl waits _)

/-! ### The receiver (R183, R196) -/

/-- The state while the receiver has gathered the bytes given. -/
def gathering (buf : List Byte) (s : State) : State := { s with hli.rxBuf := buf }

theorem gathering_nil {s : State} (h : s.hli.rxBuf = []) : gathering [] s = s := by
  rw [gathering, ← h]

theorem receiveBytes_cons (b : Byte) (bs : List Byte) (s : State) :
    receiveBytes (b :: bs) s = receiveBytes bs (receiveByte b s) := rfl

theorem receiveByte_start {s : State} (h : s.hli.rxBuf = []) : receiveByte 0xA7#8 s = gathering [0xA7#8] s := by
  simp [receiveByte, h, gathering]

theorem receiveByte_not_start {b : Byte} {s : State} (h : s.hli.rxBuf = []) (hb : b ≠ 0xA7#8) : receiveByte b s = s := by
  simp [receiveByte, h, hb]

/-- A length byte of 240 or less is gathered. -/
theorem receiveByte_length {n : Byte} (h : n.toNat ≤ 240) (s : State) :
    receiveByte n (gathering [0xA7#8] s) = gathering [0xA7#8, n] s := by
  simp [receiveByte, gathering, byteAt, show ¬ 240 < n.toNat by omega]

theorem receiveByte_length_bad {n : Byte} (h : 240 < n.toNat) (s : State) :
    receiveByte n (gathering [0xA7#8] s) = frameBad (gathering [0xA7#8] s) := by
  simp [receiveByte, gathering, h]

/-- Bytes short of the frame's last are gathered. -/
theorem receiveBytes_gather (n : Byte) (bs : List Byte) (s : State) :
    ∀ got : List Byte, got.length + bs.length < n.toNat + 4 →
      receiveBytes bs (gathering (0xA7#8 :: n :: got) s) = gathering (0xA7#8 :: n :: (got ++ bs)) s := by
  induction bs with
  | nil => intro got _; simp [receiveBytes]
  | cons b bs ih =>
    intro got short
    have next : receiveByte b (gathering (0xA7#8 :: n :: got) s) = gathering (0xA7#8 :: n :: (got ++ [b])) s := by
      simp only [List.length_cons] at short
      simp [receiveByte, gathering, byteAt, show got.length ≠ n.toNat + 3 by omega]
    rw [receiveBytes_cons, next, ih _ (by simp at short ⊢; omega)]
    simp

/-- The last byte of a frame ends it. -/
theorem receiveBytes_done {n : Byte} (h : n.toNat ≤ 240) {bs : List Byte} (hl : bs.length = n.toNat + 3) (b : Byte) {s : State}
    (hunts : s.hli.rxBuf = []) :
    receiveBytes (0xA7#8 :: n :: (bs ++ [b])) s = frameDone (0xA7#8 :: n :: (bs ++ [b])) (gathering (0xA7#8 :: n :: bs) s) := by
  have gathered : receiveBytes bs (gathering [0xA7#8, n] s) = gathering (0xA7#8 :: n :: bs) s :=
    receiveBytes_gather n bs s [] (by simp; omega)
  have last : receiveByte b (gathering (0xA7#8 :: n :: bs) s) =
      frameDone (0xA7#8 :: n :: (bs ++ [b])) (gathering (0xA7#8 :: n :: bs) s) := by
    simp [receiveByte, gathering, byteAt, hl]
  calc receiveBytes (0xA7#8 :: n :: (bs ++ [b])) s
      = receiveBytes [b] (receiveBytes bs (gathering [0xA7#8, n] s)) := by
        rw [receiveBytes_cons, receiveBytes_cons, receiveByte_start hunts, receiveByte_length h]
        simp [receiveBytes]
    _ = _ := by rw [gathered, receiveBytes_cons, last]; rfl

/-- A frame's bytes with two last bytes: the frame is submitted where they are its CRC, and else discarded. -/
theorem receiveBytes_frame {f : Frame} (h : f.payload.length ≤ 240) (hi lo : Byte) {s : State} (hunts : s.hli.rxBuf = []) :
    receiveBytes (0xA7#8 :: (f.body ++ [hi, lo])) s =
      if wordBytes (crc16 f.body) = [hi, lo] then submit f s else frameBad s := by
  obtain ⟨k, t, p⟩ := f
  have len : (BitVec.ofNat 8 p.length : Byte).toNat = p.length := by
    simp only [BitVec.toNat_ofNat]; exact Nat.mod_eq_of_lt (by simp at h; omega)
  have split_last : (0xA7#8 :: ((Frame.mk k t p).body ++ [hi, lo]) : List Byte) =
      0xA7#8 :: BitVec.ofNat 8 p.length :: ((k :: t :: p ++ [hi]) ++ [lo]) := by simp [Frame.body]
  rw [split_last, receiveBytes_done (by rw [len]; exact h) (by simp [len]) lo hunts]
  have body : ((k :: t :: p ++ [hi]) ++ [lo]).take (p.length + 2) = k :: t :: p := by simp
  have crc : ((k :: t :: p ++ [hi]) ++ [lo]).drop (p.length + 2) = [hi, lo] := by simp
  simp only [frameDone, byteAt, List.getD_cons_succ, List.getD_cons_zero, len, List.drop_succ_cons, List.drop_zero,
    List.take_succ_cons, body, crc]
  have hunts_again : ({ gathering (0xA7#8 :: BitVec.ofNat 8 p.length :: (k :: t :: p ++ [hi])) s with
      hli.rxBuf := [] } : State) = s := gathering_nil hunts
  rw [hunts_again]
  have bad : ∀ buf, frameBad (gathering buf s) = frameBad s := fun _ => rfl
  rw [bad]
  rfl

theorem receiveBytes_frame_bytes {f : Frame} (h : f.payload.length ≤ 240) {s : State} (hunts : s.hli.rxBuf = []) :
    receiveBytes f.bytes s = submit f s :=
  (receiveBytes_frame h _ _ hunts).trans (if_pos rfl)

theorem exec_frame_bytes {f : Frame} (h : f.payload.length ≤ 240) {s : State} (hunts : s.hli.rxBuf = []) :
    exec (.hostFrameReceived f.bytes) s = live (submit f) s := by
  show live (receiveBytes f.bytes) s = _
  rw [live, live, receiveBytes_frame_bytes h hunts]

/-- Settles O3. -/
theorem frameBytesActAsTheirRequest : Obligations.FrameBytesActAsTheirRequest := by
  intro c f s frame short hunts
  have same : exec (.hostFrameReceived f.bytes) s = exec c s := by
    rw [exec_frame_bytes short hunts, exec_request frame, live, live, request, frame]
  exact ⟨same, fun can_take tag_ne known free => same.trans (exec_take frame can_take tag_ne known free)⟩

/-! ### Frames refused or discarded (R183 to R185, R198) -/

theorem runFrame_of_error {f : Frame} {d : Detail} (h : requestOf f = .error d) (s : State) :
    runFrame f s = s.turnedAway (replyKind f.kind) f.tag .format d f.kind.toNat := by
  rw [runFrame, h]
  rfl

/-- A frame that holds no request is refused at once when the HLI can take one. -/
theorem submit_of_error {f : Frame} {d : Detail} (h : requestOf f = .error d) {s : State} (can_take : CanTake s) :
    submit f s = s.turnedAway (replyKind f.kind) f.tag .format d f.kind.toNat := by
  have waits_not : frameWaits f s = false := by simp [frameWaits, h]
  rw [submit_take f s can_take waits_not, runFrame_of_error h]

theorem replyKind_of_request {k : Byte} (h : isRequestKind k = true) : replyKind k = k + 0x80#8 := by
  simp only [isRequestKind, Bool.and_eq_true, decide_eq_true_eq] at h
  simp [replyKind, show k.toNat < 128 by omega]

/-! #### The length of a payload (R197) -/

theorem payload0_eq_none {c : Instr} {p : List Byte} (h : p.length ≠ 0) : payload0 c p = none := by
  match p, h with
  | _ :: _, _ => rfl

theorem payload1_eq_none {c : Byte → Instr} {p : List Byte} (h : p.length ≠ 1) : payload1 c p = none := by
  match p, h with
  | [], _ | _ :: _ :: _, _ => rfl

theorem payload2_eq_none {c : Byte → Byte → Instr} {p : List Byte} (h : p.length ≠ 2) : payload2 c p = none := by
  match p, h with
  | [], _ | [_], _ | _ :: _ :: _ :: _, _ => rfl

theorem settingIn_eq_none {t : Byte} {p : List Byte} (h : p.length ≠ 5) : settingIn t p = none := by
  unfold settingIn
  split <;> simp_all

theorem cursorIn_eq_none {t : Byte} {p : List Byte} (h : p.length ≠ 4) : cursorIn t p = none := by
  unfold cursorIn
  split <;> simp_all

theorem exchangeIn_eq_none {t : Byte} {p : List Byte} (h : p.length ≠ 8) : exchangeIn t p = none := by
  unfold exchangeIn
  split <;> simp_all

theorem findIn_eq_none {t : Byte} {p : List Byte} (h : p.length ≠ 8) : findIn t p = none := by
  unfold findIn
  split <;> simp_all

theorem demandIn_eq_none {t : Byte} {p : List Byte} (h : p.length ≠ 10) : demandIn t p = none := by
  unfold demandIn
  split <;> simp_all

/-- The lengths of the 28 payloads, in the order of their kinds (R197); those of kinds 7 and 9 are their owners'. -/
def payloadLengths : List Nat := [0, 1, 10, 5, 1, 4, 0, 1, 0, 0, 0, 1, 0, 8, 1, 1, 0, 0, 1, 0, 0, 0, 1, 8, 2, 2, 0, 0]

/-- A payload of another length than its kind's holds no request. -/
theorem requestIn_eq_none {k : Nat} {p : List Byte} (low : 1 ≤ k) (high : k ≤ 28) (not_write : k ≠ 7) (not_read : k ≠ 9)
    (h : payloadLengths[k - 1]? ≠ some p.length) (t : Byte) : requestIn t k p = none := by
  have ne : ∀ n, payloadLengths[k - 1]? = some n → p.length ≠ n := fun n e l => h (l ▸ e)
  match k, low, high, not_write, not_read, ne with
  | 3, _, _, _, _, ne => exact demandIn_eq_none (ne _ rfl)
  | 4, _, _, _, _, ne => exact settingIn_eq_none (ne _ rfl)
  | 6, _, _, _, _, ne => exact cursorIn_eq_none (ne _ rfl)
  | 14, _, _, _, _, ne => exact exchangeIn_eq_none (ne _ rfl)
  | 24, _, _, _, _, ne => exact findIn_eq_none (ne _ rfl)
  | 25, _, _, _, _, ne | 26, _, _, _, _, ne => exact payload2_eq_none (ne _ rfl)
  | 2, _, _, _, _, ne | 5, _, _, _, _, ne | 8, _, _, _, _, ne | 12, _, _, _, _, ne | 15, _, _, _, _, ne | 16, _, _, _, _, ne
  | 19, _, _, _, _, ne | 23, _, _, _, _, ne => exact payload1_eq_none (ne _ rfl)
  | 1, _, _, _, _, ne | 10, _, _, _, _, ne | 11, _, _, _, _, ne | 13, _, _, _, _, ne | 17, _, _, _, _, ne
  | 18, _, _, _, _, ne | 20, _, _, _, _, ne | 21, _, _, _, _, ne | 22, _, _, _, _, ne | 27, _, _, _, _, ne
  | 28, _, _, _, _, ne => exact payload0_eq_none (ne _ rfl)
  | 7, _, _, not_write, _, _ => exact absurd rfl not_write
  | 9, _, _, _, not_read, _ => exact absurd rfl not_read
  | 0, low, _, _, _, _ => exact absurd low (by decide)
  | n + 29, _, high, _, _, _ => exact absurd high (by omega)

/-- A SIGNAL-READ of no ids or of more than 16 is refused by its owner. -/
theorem takeSignalRead_of_length {ids : List Byte} (h : ids.length = 0 ∨ 16 < ids.length) (tag : Byte) (s : State) :
    takeSignalRead tag ids s = s.turnedAway 0x89 tag .format .length 9 := by
  rw [takeSignalRead, if_pos (by simpa using h)]
  exact refuse_eq (by decide) ..

/-- A frame whose payload has not its kind's length is refused, by the HLI or by the owner of SIGNAL-READ. -/
theorem submit_of_wrong_length {f : Frame} {k : Nat} {s : State} (can_take : CanTake s) (tag_ne : f.tag ≠ 0#8)
    (kind : f.kind = BitVec.ofNat 8 k) (low : 1 ≤ k) (high : k ≤ 28) (not_write : k ≠ 7)
    (wrong : if k = 9 then f.payload.length = 0 ∨ 16 < f.payload.length else payloadLengths[k - 1]? ≠ some f.payload.length) :
    submit f s = s.turnedAway (f.kind + 0x80#8) f.tag .format .length k := by
  have kind_nat : f.kind.toNat = k := by rw [kind, BitVec.toNat_ofNat]; omega
  have known : isRequestKind f.kind = true := by simp [isRequestKind, kind_nat, low, high]
  by_cases is_read : k = 9
  · subst is_read
    obtain ⟨kd, t, p⟩ := f
    obtain rfl : kd = 9#8 := kind
    have frame : frameOf (.signalRead t p) = some ⟨9#8, t, p⟩ := rfl
    have reads_back := requestOf_of_frameOf frame tag_ne (by simp)
    have waits_not : frameWaits ⟨9#8, t, p⟩ s = false := by
      rw [frameWaits_of_ok reads_back]; exact Bool.and_false _
    rw [submit_take _ s can_take waits_not, runFrame, reads_back]
    exact takeSignalRead_of_length wrong t s
  · rw [if_neg is_read] at wrong
    have no_request : requestOf f = .error .length := by
      simp [requestOf, known, tag_ne, kind_nat, requestIn_eq_none low high not_write is_read wrong]
    rw [submit_of_error no_request can_take, replyKind_of_request known, kind_nat]

/-- Settles O5. -/
theorem malformedFramesAreRefusedOrDiscarded : Obligations.MalformedFramesAreRefusedOrDiscarded := by
  refine ⟨⟨?unknown_kind, ?no_tag⟩, ?wrong_length, ?gap, ?bytes⟩
  case unknown_kind =>
    intro k t p s can_take unknown
    rw [exec_submit (f := ⟨k, t, p⟩) rfl can_take.1, submit_of_error (d := .kind) (by simp [requestOf, unknown]) can_take]
  case no_tag =>
    intro c f s can_take frame known no_tag
    rw [exec_submit frame can_take.1, submit_of_error (d := .tag) (by simp [requestOf, known, no_tag]) can_take,
      replyKind_of_request known, no_tag]
  case wrong_length =>
    intro f k s can_take hunts tag_ne short kind low high not_write lengths wrong
    rw [exec_frame_bytes short hunts, live_of_run _ can_take.1,
      submit_of_wrong_length can_take tag_ne kind low high not_write wrong]
  case gap =>
    intro s live
    refine (live_of_run interByteGap live).trans (congrArg _ ?_)
    simp only [interByteGap, List.isEmpty_iff]
    rfl
  case bytes =>
    intro s live hunts bad
    have discards : Host.Outcome.next (frameBad s) = bad := by
      show Host.Outcome.next (latch .hostFramesBad (bump .hostFramesBad (gathering [] s))) = bad
      rw [gathering_nil hunts]
      rfl
    refine ⟨fun b not_start => ?_, fun n long => ?_, fun f hi lo short wrong => ?_⟩
    · refine (live_of_run (receiveBytes [b]) live).trans (congrArg _ ?_)
      exact receiveByte_not_start hunts not_start
    · refine (live_of_run (receiveBytes _) live).trans ?_
      rw [receiveBytes_cons, receiveByte_start hunts, receiveBytes_cons, receiveByte_length_bad long, ← discards]
      rfl
    · refine (live_of_run (receiveBytes _) live).trans ?_
      rw [receiveBytes_frame short hi lo hunts, if_neg (Ne.symm wrong), discards]

/-! ### Messages sent (R184, R188, R195) -/

/-- The state once the message at the head has been sent. -/
def afterSent (m : Msg) (ms : List Msg) (s : State) : State := { s with hli.tx := ms, pins.hostTx := m.bytes }

theorem messageSent_of_cons {m : Msg} {ms : List Msg} {s : State} (none_taken : s.hli.fullReset = .none)
    (queue : s.hli.tx = m :: ms) : messageSent s = drainAll (afterSent m ms s) := by
  rw [messageSent, if_neg (by simp [none_taken]), queue]
  simp only [none_taken, reduceCtorEq, false_and, if_false]
  rw [← none_taken]
  rfl

theorem drainAll_of_no_frame {s : State} (h : s.hli.rx = []) : drainAll s = s := by
  rw [drainAll, h]; rfl

/-- The frame at the head of the receive queue is taken, and those behind it wait where the HLI takes no other then. -/
theorem drainAll_takes_head {f : Frame} {fs : List Frame} {s : State} (can : ready s = true) (queue : s.hli.rx = f :: fs)
    (waits_not : frameWaits f s = false)
    (rest : fs = [] ∨ ready (runFrame f { s with hli.rx := fs }) = false) :
    drainAll s = runFrame f { s with hli.rx := fs } := by
  have first : drainAll s = drain fs.length (runFrame f { s with hli.rx := fs }) := by
    simp [drainAll, queue, drain, can, waits_not]
  rw [first]
  obtain rfl | not_ready := rest
  · rfl
  · exact drain_of_not_ready not_ready _

/-- Settles O6. -/
theorem sentMessageLeavesTheQueue : Obligations.SentMessageLeavesTheQueue := by
  intro s live
  have exec_eq : exec .messageSent s = .next (messageSent s) := live_of_run messageSent live
  simp only [exec_eq]
  refine ⟨?nothing, ?no_frame, ?takes_head, ?head_waits, ?full_reset, ?after_reset⟩
  case nothing => intro none_taken empty _; simp [messageSent, none_taken, empty]
  case no_frame =>
    intro m ms none_taken queue no_frame
    rw [messageSent_of_cons none_taken queue, drainAll_of_no_frame (s := afterSent m ms s) no_frame]
    rfl
  case takes_head =>
    intro m ms f fs none_taken queue no_reply frames waits_not rest
    have can : ready (afterSent m ms s) = true := by simp [ready, afterSent, none_taken, no_reply]
    rw [messageSent_of_cons none_taken queue, drainAll_takes_head (s := afterSent m ms s) can frames waits_not rest]
    rfl
  case head_waits =>
    intro m ms f fs none_taken queue frames blocked
    have stays : drainAll (afterSent m ms s) = afterSent m ms s := by
      obtain reply | waits := blocked
      · exact drain_of_not_ready (by simp [ready, afterSent, reply]) _
      · exact drain_of_head_waits (s := afterSent m ms s) frames waits _
    rw [messageSent_of_cons none_taken queue, stays]
    rfl
  case full_reset =>
    intro m ms taken queue ordinary
    have stays : ∀ t : State, t.hli.fullReset = .replySent → drainAll t = t :=
      fun t sent => drain_of_not_ready (by simp [ready, sent]) _
    rw [messageSent, if_neg (by simp [taken]), queue]
    simp only [taken, ordinary, and_self, if_true]
    rw [stays _ rfl]
  case after_reset => intro sent; simp [messageSent, sent]

end Sys2Proof.Machine
end

section
/-! SUPPORT. The HLI's own requests and the resets (R188 to R195): notices, reports, settings, flags and counters, what a
reset sets, and the postings of the producers' outputs (R50). -/

namespace Sys2Proof.Machine

/-! ### Notices and reports (R188, R189, R146, R160) -/

/-- Settles O7: the branches of `notify`, with the count and the flag of a drop written out. -/
theorem noticesAreQueuedWithinTheirRoom : Obligations.NoticesAreQueuedWithinTheirRoom := by
  refine ⟨fun n s => ?_, fun g c s => rfl⟩
  by_cases masked : s.hli.force.noticeMask.testBit n.maskBit = true
  · simp only [notify, masked, if_true, Bool.true_eq_false, if_false]
    rfl
  · simp only [notify, masked, Bool.false_eq_true, if_false, if_true]

/-- Settles O8. -/
theorem statusAndProcedureReportsChangeNothing : Obligations.StatusAndProcedureReportsChangeNothing := by
  refine ⟨fun tag s can_take tag_ne => ?status, fun tag proc s can_take tag_ne => ?result⟩
  case status =>
    rw [exec_take (c := .statusQuery tag) rfl can_take tag_ne (by simp) (.inr rfl)]
    exact congrArg _ (done_eq (by decide) ..)
  case result =>
    rw [exec_take (c := .procResult tag proc) rfl can_take tag_ne (by simp) (.inr rfl)]
    refine congrArg _ ?_
    show takeProcResult tag proc s = _
    unfold takeProcResult
    split_ifs
    · exact done_eq (by decide) ..
    · exact done_eq (by decide) ..
    · exact refuse_eq (by decide) ..

/-! ### Settings (R192) -/

/-- The values of the settings, in the order of their ids. -/
def Settings.values (g : Settings) : List Nat :=
  [g.framePeriod, g.dispatchMark, g.acqBudget, g.dispatchBudget, g.serviceBudget, g.demandTimeout, g.restSpeed,
    g.streakSuspect, g.streakExclude, g.wheelRadius, g.gearRatio, g.strutTare, g.payloadGain, g.ratedPayload, g.derateHold,
    g.steerRate, g.torqueSlew, g.slipLimit, g.slideLimit, g.ratedRetardPower, g.baseSpeed, g.emptyMass, g.gridCool,
    g.gridEmax, g.stringNominal, g.yawGain, g.accMin, g.accDropMax, g.recordMode, g.recordBlock, g.recordPost,
    g.recordTrigger, g.integCapture, g.noticeMask]

theorem Settings.values_getElem? (g : Settings) {n : Nat} (low : 1 ≤ n) (high : n ≤ 34) :
    g.values[n - 1]? = some (g.get n) := by
  interval_cases n <;> rfl

theorem Settings.values_set (g : Settings) (v : Nat) {n : Nat} (low : 1 ≤ n) (high : n ≤ 34) :
    (g.set v n).values = g.values.set (n - 1) v := by
  interval_cases n <;> rfl

/-- Ids outside 1 to 34 name no setting. -/
theorem Settings.get_of_unknown (g : Settings) {n : Nat} (h : ¬ (1 ≤ n ∧ n ≤ 34)) : g.get n = 0 := by
  unfold Settings.get
  split <;> first | rfl | (exfalso; omega)

theorem Settings.get_set_same (g : Settings) (v : Nat) {n : Nat} (low : 1 ≤ n) (high : n ≤ 34) :
    (g.set v n).get n = v := by
  have stored := (g.set v n).values_getElem? low high
  have in_list : n - 1 < g.values.length := by simp only [Settings.values, List.length_cons, List.length_nil]; omega
  rw [Settings.values_set g v low high, List.getElem?_set_self in_list] at stored
  exact (Option.some.inj stored).symm

theorem Settings.get_set_other (g : Settings) (v : Nat) {n m : Nat} (low : 1 ≤ n) (high : n ≤ 34) (ne : m ≠ n) :
    (g.set v n).get m = g.get m := by
  by_cases known : 1 ≤ m ∧ m ≤ 34
  · obtain ⟨mlow, mhigh⟩ := known
    have after := (g.set v n).values_getElem? mlow mhigh
    rw [Settings.values_set g v low high, List.getElem?_set_ne (by omega), g.values_getElem? mlow mhigh] at after
    exact (Option.some.inj after).symm
  · rw [Settings.get_of_unknown _ known, Settings.get_of_unknown _ known]

/-- The lowest and the highest values, in the order of the ids (R192). -/
def settingRanges : List (Int × Int) :=
  [(5, 20), (5, 195), (1, 64), (1, 64), (0, 64), (20, 2000), (1, 30), (1, 254), (2, 255), (500, 2500), (50, 600),
    (0, 200000), (1, 100), (10, 600), (1, 500), (1, 40), (1, 100), (2, 50), (2, 50), (500, 10000), (5, 60), (20, 600),
    (100, 10000), (1, 500), (100, 30000), (0, 15), (5, 30), (1, 100), (0, 1), (1, 64), (0, 4096), (0, 1), (0, 1), (0, 31)]

theorem settingRanges_getElem? {n : Nat} (low : 1 ≤ n) (high : n ≤ 34) : settingRanges[n - 1]? = some (settingRange n) := by
  interval_cases n <;> rfl

theorem settingRange_nonneg {n : Nat} (low : 1 ≤ n) (high : n ≤ 34) : 0 ≤ (settingRange n).1 := by
  interval_cases n <;> decide

theorem settingInRange_iff {n : Nat} (v : Int) :
    settingInRange n v = true ↔
      ((settingRange n).1 ≤ v ∧ v ≤ (settingRange n).2) ∧ (n = 1 → v = 5 ∨ v = 10 ∨ v = 20) := by
  unfold settingInRange
  split
  next is_period =>
    subst is_period
    simp only [settingRange, Bool.or_eq_true, beq_iff_eq, true_implies]
    omega
  next other => simp [other]

/-- The seven checks in their order: the first that fails is the refusal, else the value is stored, and in HALTED comes
into force (R192). -/
theorem takeSettingWrite_eq (tag id : Byte) (value : BitVec 32) (s : State) :
    let n := id.toNat
    let g := s.hli.stored.set value.toInt.toNat n
    takeSettingWrite tag id value s = (settingFailure n value.toInt g s).elim
      ({ s with
          hli.stored := g
          hli.force := if s.dsc.gov = Gov.halted then s.hli.force.set value.toInt.toNat n else s.hli.force }.answered 0x84 tag [])
      (fun failure => s.turnedAway 0x84 tag failure.1 failure.2 n) := by
  unfold takeSettingWrite
  dsimp only
  split
  next c d fails => rw [fails]; exact refuse_eq (by decide) ..
  next passes => rw [passes]; exact done_eq (by decide) ..

/-- Settles O9. -/
theorem settingsAreCheckedStoredAndRead : Obligations.SettingsAreCheckedStoredAndRead := by
  refine ⟨?write, ?read, ?ranges⟩
  case write =>
    intro tag id value s can_take tag_ne n g no
    rw [exec_take (c := .settingWrite tag id value) rfl can_take tag_ne (by simp) (.inr rfl)]
    refine (congrArg Host.Outcome.next (takeSettingWrite_eq tag id value s)).trans ?_
    simp only [settingFailure, Bool.not_eq_true']
    split_ifs <;> rfl
  case read =>
    intro tag id s can_take tag_ne
    rw [exec_take (c := .settingRead tag id) rfl can_take tag_ne (by simp) (.inr rfl)]
    refine congrArg _ ?_
    show takeSettingRead tag id s = _
    unfold takeSettingRead
    dsimp only
    split_ifs
    · exact refuse_eq (by decide) ..
    · exact done_eq (by decide) ..
  case ranges =>
    intro ranges value n v g low high
    have range_of_n : ranges[n - 1]? = some (settingRange n) := settingRanges_getElem? low high
    refine ⟨?_, g.values_getElem? low high, fun in_range => ?_, fun m ne => g.get_set_other _ low high ne⟩
    · rw [settingInRange_iff, range_of_n]
      simp [Prod.ext_iff]
    · have nonneg := settingRange_nonneg low high
      have bounds := ((settingInRange_iff v).mp in_range).1
      rw [g.get_set_same _ low high]
      omega

/-! ### Flags and counters (R193, R194) -/

/-- A flag's bit in a set of one flag. -/
theorem getLsbD_mask (f g : Flag) : g.mask.getLsbD f.bit = decide (f = g) := by
  cases f <;> cases g <;> rfl

theorem getLsbD_mask_if (b : Bool) (f g : Flag) : (if b then g.mask else 0).getLsbD f.bit = (b && decide (f = g)) := by
  cases b
  · simp
  · simp [getLsbD_mask]

/-- A flag of the set of present conditions stands exactly where it is one of the six and its condition is present. -/
theorem conditionFlags_getLsbD (f : Flag) (s : State) : (conditionFlags s).getLsbD f.bit =
    match f with
    | .loopWasDown => loopNotUp s
    | .stationSuspect => anyStation .suspect s
    | .stationExcluded => anyStation .excluded s
    | .signalBad => anyBad s
    | .propelRetard => s.tal.propelRetard
    | .retardShort => holdIsShort s
    | _ => false := by
  simp only [conditionFlags, BitVec.getLsbD_or, getLsbD_mask_if]
  cases f <;> simp

/-- Settles O11. -/
theorem flagsAndCountersAreReturnedAndCleared : Obligations.FlagsAndCountersAreReturnedAndCleared := by
  refine ⟨fun tag s can_take tag_ne => ⟨conditionFlags s, ?flags, fun f => ?bits⟩, fun tag s can_take tag_ne => ?counts,
    fun c bounded => ?rise⟩
  case flags =>
    rw [exec_take (c := .flagsRead tag) rfl can_take tag_ne (by simp) (.inr rfl)]
    exact congrArg _ (done_eq (by decide) ..)
  case bits => exact (conditionFlags_getLsbD f s).trans (by cases f <;> rfl)
  case counts =>
    rw [exec_take (c := .countsRead tag) rfl can_take tag_ne (by simp) (.inr rfl)]
    exact congrArg _ (done_eq (by decide) ..)
  case rise =>
    unfold Counter.rise
    split
    next below => exact ⟨Nat.succ_le_of_lt below, fun top => absurd top (by omega), fun _ => rfl⟩
    next at_top => exact ⟨Nat.zero_le _, fun _ => rfl, fun below => absurd below at_top⟩

/-! ### Resets (R19, R195) -/

/-- The part that comes out of a full reset with the RESET pin released sends the STATE notice first. -/
theorem fullResetTo_running (stop : Bool) (s : State) :
    fullResetTo stop false s = { State.initial stop false s.pending with hli.tx := [resetNotice] } := rfl

/-- While the RESET pin holds the part, a command that is neither power-on nor a pin's changes nothing. -/
theorem exec_of_reset {c : Instr} {s : State} (held : s.pins.reset = true) (not_power : ∀ b, c ≠ .powerOn b)
    (not_release : c ≠ .resetPinRelease) (not_stop : c ≠ .stopLineAssert) (not_stop' : c ≠ .stopLineRelease) :
    exec c s = .next s := by
  cases is_request : frameOf c with
  | some f => rw [exec_request is_request, live_of_reset _ held]
  | none =>
    cases c
    case powerOn b => exact absurd rfl (not_power b)
    case resetPinAssert => exact congrArg _ (if_pos held)
    case resetPinRelease => exact absurd rfl not_release
    case stopLineAssert => exact absurd rfl not_stop
    case stopLineRelease => exact absurd rfl not_stop'
    all_goals cases is_request
    all_goals exact live_of_reset _ held

/-- Settles O20. -/
theorem resetsResetThePart : Obligations.ResetsResetThePart := by
  refine ⟨⟨?request, ?effect⟩, ?pins, fun c s => exec_of_reset⟩
  case request =>
    intro tag s can_take tag_ne
    rw [exec_take (c := .fullReset tag) rfl can_take tag_ne (by simp) (.inr rfl)]
    exact congrArg (fun t : State => Host.Outcome.next { t with hli.fullReset := .taken }) (done_eq (k := 0x1C) (by decide) ..)
  case effect =>
    intro s live
    have exec_eq : exec .fullResetTakesEffect s = .next (fullResetEffect s) := live_of_run fullResetEffect live
    refine ⟨fun sent => ?_, fun unsent => ?_⟩
    · rw [exec_eq, fullResetEffect, if_pos sent, live, fullResetTo_running]; rfl
    · rw [exec_eq, fullResetEffect, if_neg unsent]
  case pins =>
    intro s
    refine ⟨fun b runs => ?_, fun b held => ?_, fun runs => ?_, fun held => ?_, fun held => ?_, fun runs => ?_⟩
    · show Host.Outcome.next (fullResetTo b s.pins.reset s) = _
      rw [runs]; rfl
    · show Host.Outcome.next (fullResetTo b s.pins.reset s) = _
      rw [held]; rfl
    · exact congrArg _ (if_neg (by simp [runs]))
    · exact congrArg _ (if_pos held)
    · exact congrArg _ (if_pos held)
    · exact congrArg _ (if_neg (by simp [runs]))

/-- Settles O21: every value is the initial one of its block, and the tables hold one entry over and over. -/
theorem resetStateIsAsTheChaptersSay : Obligations.ResetStateIsAsTheChaptersSay := by
  have empty_acq : ∀ p ∈ State.reset.slc.acq, p.val.valid = false :=
    fun p h => by rw [List.eq_of_mem_replicate h]; rfl
  have absent_image : ∀ p ∈ State.reset.sgs.image, p.val.quality = .absent :=
    fun p h => by rw [List.eq_of_mem_replicate h]; rfl
  have empty_screen : ∀ p ∈ State.reset.sgs.screen, p.val.valid = false :=
    fun p h => by rw [List.eq_of_mem_replicate h]; rfl
  exact ⟨rfl, rfl, rfl, rfl, rfl, rfl, rfl, rfl, rfl, empty_acq, absent_image, empty_screen, rfl, rfl, rfl, rfl, rfl, rfl,
    rfl, rfl, rfl, rfl, rfl, rfl, rfl, rfl, rfl, rfl, rfl, rfl⟩

/-! ### Postings (R50) -/

theorem exec_outputPosting {s : State} (live : Live s) (p : Producer) :
    exec (.outputPosting p) s = .next (outputPosting p s) := live_of_run (outputPosting p) live

/-- Settles O45. -/
theorem postingReplacesTheProducersOutputs : Obligations.PostingReplacesTheProducersOutputs := by
  intro s live
  simp only [exec_outputPosting live, outputPosting]
  refine ⟨fun g staged => ?_, fun g staged => ⟨postRgv s, rfl, ?_⟩, fun g staged => ?_, fun none => ?_, fun none => ?_,
    fun none => ?_⟩
  · simp [postTal, staged]
  · simp [postRgv, staged]
  · simp [postSgv, staged]
  · simp [postTal, none]
  · simp [postRgv, none]
  · simp [postSgv, none]

end Sys2Proof.Machine
end

section
/-! SUPPORT. The two procedures (R143, R157 to R159): what a notice adds to the outgoing queue, what leaves the service queue
with an abort, and the state after an abort or an end of either check. -/

namespace Sys2Proof.Machine

/-! ### Notices in the outgoing queue (R188) -/

/-- The notice as it joins the outgoing queue: when its kind is in the mask in force and there is room. -/
def sentNotice (n : Notice) (h : Hli) : List Msg :=
  if h.force.noticeMask.testBit n.maskBit = true ∧ h.tx.countP (·.isNotice) < 6 then [.notice n] else []

theorem sentNotice_of_room {n : Notice} {h : Hli} (mask : h.force.noticeMask.testBit n.maskBit = true)
    (room : h.tx.countP (·.isNotice) < 6) : sentNotice n h = [.notice n] := if_pos ⟨mask, room⟩

/-- A notice joins or it does not. -/
theorem sentNotice_cases (n : Notice) (h : Hli) : sentNotice n h = [.notice n] ∨ sentNotice n h = [] := by
  unfold sentNotice
  split
  · exact .inl rfl
  · exact .inr rfl

theorem notify_tx (n : Notice) (s : State) : (notify n s).hli.tx = s.hli.tx ++ sentNotice n s.hli := by
  unfold notify sentNotice noticeCount
  split_ifs <;> simp_all [Counters.rise]

/-! ### Items of a claimant leave the queue (R58) -/

/-- The items of the service queue and those held, in their order. -/
abbrev State.items (s : State) : List Item := s.slc.queue ++ s.slc.held

/-- An abort leaves the items of every other claimant in their places. -/
theorem removeItems_filter_ne (c : Claimant) (s : State) :
    (removeItems c s).items.filter (·.claimant != c) = s.items.filter (·.claimant != c) := by
  rw [State.items, removeItems, joinHeld_order, State.items, List.filter_append, List.filter_append]
  congr 1
  · dsimp only
    split
    · cases s.slc.queue with
      | nil => rfl
      | cons it its =>
        by_cases mine : it.claimant = c <;>
          simp [mine, List.filter_filter, bne]
    · simp [List.filter_filter, bne]
  · simp [List.filter_filter, bne]

theorem filter_claimant_of_ne {c d : Claimant} (ne : d ≠ c) (l : List Item) :
    l.filter (·.claimant == d) = (l.filter (·.claimant != c)).filter (·.claimant == d) := by
  rw [List.filter_filter]
  refine List.filter_congr fun it _ => ?_
  by_cases h : it.claimant = d <;> simp [h, ne]

theorem removeItems_filter_other {c d : Claimant} (ne : d ≠ c) (s : State) :
    (removeItems c s).items.filter (·.claimant == d) = s.items.filter (·.claimant == d) := by
  rw [filter_claimant_of_ne ne, removeItems_filter_ne, ← filter_claimant_of_ne ne]

/-! ### An abort of the grid element check (R143) -/

theorem gridAbort_of_idle {s : State} (idle : s.rgv.check.run = none) (c : ProcCause) : gridAbort c s = s := by
  simp [gridAbort, idle]

/-- The last-run record of a run that is aborted now. -/
abbrev GridRun.abortedAt (r : GridRun) (c : ProcCause) (n : Nat) : GridLast :=
  ⟨.aborted, c, r.grids, r.start, n, r.results.length, none⟩

theorem gridAbort_of_run {r : GridRun} {s : State} (run : s.rgv.check.run = some r) (c : ProcCause) :
    gridAbort c s = notify (.proc 1 3 c s.slc.frameNo) { endService (removeItems .gridCheck s) with
      rgv.check.run := none, rgv.check.last := r.abortedAt c s.slc.frameNo } := by
  simp [gridAbort, gridEnd, run, gridOutcomeCode]

theorem gridAbort_last {r : GridRun} {s : State} (run : s.rgv.check.run = some r) (c : ProcCause) :
    (gridAbort c s).rgv.check.last = r.abortedAt c s.slc.frameNo := by
  simp [gridAbort_of_run run]

theorem gridAbort_tx (c : ProcCause) (s : State) : (gridAbort c s).hli.tx = s.hli.tx ++
    if s.rgv.check.run.isSome then sentNotice (.proc 1 3 c s.slc.frameNo) s.hli else [] := by
  cases run : s.rgv.check.run with
  | none => simp [gridAbort_of_idle run]
  | some r => simp [gridAbort_of_run run, notify_tx]

/-- An abort of the grid element check leaves the host link but for its notice. -/
theorem gridAbort_hli_keeps (c : ProcCause) (s : State) :
    (gridAbort c s).hli.force = s.hli.force ∧ (gridAbort c s).hli.stored = s.hli.stored
      ∧ (gridAbort c s).hli.deferred = s.hli.deferred ∧ (gridAbort c s).hli.cursor = s.hli.cursor
      ∧ (gridAbort c s).hli.fullReset = s.hli.fullReset := by
  cases run : s.rgv.check.run with
  | none => simp [gridAbort_of_idle run]
  | some r => simp [gridAbort_of_run run]

theorem gridAbort_filter_other {d : Claimant} (ne : d ≠ .gridCheck) (c : ProcCause) (s : State) :
    (gridAbort c s).items.filter (·.claimant == d) = s.items.filter (·.claimant == d) := by
  cases run : s.rgv.check.run with
  | none => rw [gridAbort_of_idle run]
  | some r => simpa [gridAbort_of_run run, State.items] using removeItems_filter_other ne s

/-! ### An abort of the steering supply check (R158) -/

theorem steerAbort_of_idle {s : State} (idle : s.sgv.run = none) (c : ProcCause) : steerAbort c s = s := by
  simp [steerAbort, idle]

theorem steerAbort_of_run {r : SteerRun} {s : State} (run : s.sgv.run = some r) (c : ProcCause) :
    steerAbort c s = toRelease r (abortPending c r.pending) s := by
  simp [steerAbort, run]

theorem toRelease_of_release {r : SteerRun} (h : r.phase = .release) (p : Option (SteerOutcome × ProcCause)) (s : State) :
    toRelease r p s = { s with sgv.run := some { r with pending := p } } := by
  simp [toRelease, h]

theorem toRelease_sgv (r : SteerRun) (p : Option (SteerOutcome × ProcCause)) (s : State) :
    (toRelease r p s).sgv = { s.sgv with run := some { r with phase := .release, pending := p } } := by
  by_cases h : r.phase = .release
  · rw [toRelease_of_release h, ← h]
  · exact (toRelease_spec r p s h).1

/-- Going to RELEASE leaves the host link. -/
theorem toRelease_hli (r : SteerRun) (p : Option (SteerOutcome × ProcCause)) (s : State) :
    (toRelease r p s).hli = s.hli := by
  unfold toRelease
  split <;> simp

theorem steerAbort_hli (c : ProcCause) (s : State) : (steerAbort c s).hli = s.hli := by
  cases run : s.sgv.run with
  | none => rw [steerAbort_of_idle run]
  | some r => rw [steerAbort_of_run run, toRelease_hli]

/-- In RELEASE an earlier abort, or a supply raise, stands: a further abort changes nothing. -/
theorem steerAbort_of_fixed {r : SteerRun} {s : State} (run : s.sgv.run = some r) (release : r.phase = .release)
    {o : SteerOutcome} {c : ProcCause} (pending : r.pending = some (o, c)) (fixed : o = .aborted ∨ o = .none)
    (cause : ProcCause) : steerAbort cause s = s := by
  have stands : abortPending cause r.pending = r.pending := by
    obtain rfl | rfl := fixed <;> rw [pending] <;> rfl
  rw [steerAbort_of_run run, toRelease_of_release release, stands, ← run]

/-! ### The release ACT's outcome, and a governor reset (R158, R159) -/

theorem steerEnd_sgv (r : SteerRun) (o : SteerOutcome) (c : ProcCause) (u : Bool) (s : State) :
    (steerEnd r o c u s).sgv = { s.sgv with run := none, result := ⟨o, c, r.init, r.final, s.slc.frameNo, u⟩ } := by
  simp [steerEnd]

theorem steerEnd_tx (r : SteerRun) (o : SteerOutcome) (c : ProcCause) (u : Bool) (s : State) :
    (steerEnd r o c u s).hli.tx = s.hli.tx ++
      sentNotice (.proc 2 (steerOutcomeCode o) c s.slc.frameNo) s.hli := by
  rw [steerEnd, notify_tx]

theorem steerReset_of_run {r : SteerRun} {s : State} (run : s.sgv.run = some r) :
    steerReset s = steerEnd r .aborted .reset s.sgv.isolation s := by
  simp [steerReset, run]

theorem steerReset_of_idle {s : State} (idle : s.sgv.run = none) : steerReset s = s := by
  simp [steerReset, idle]

theorem steerReset_tx (s : State) : (steerReset s).hli.tx = s.hli.tx ++
    if s.sgv.run.isSome then sentNotice (.proc 2 3 .reset s.slc.frameNo) s.hli else [] := by
  cases run : s.sgv.run with
  | none => simp [steerReset_of_idle run]
  | some r => simp [steerReset_of_run run, steerEnd_tx, steerOutcomeCode]

end Sys2Proof.Machine
end

section
/-! SUPPORT. The governing states (chapter 1): MODE-REQUEST by its target, entry to DRIVE, DEMAND and its timer, the STOP
line. -/

namespace Sys2Proof.Machine

/-! ### MODE-REQUEST by target (R3) -/

theorem exec_modeRequest {tag : Byte} {s : State} (can_take : CanTake s) (tag_ne : tag ≠ 0#8) (target : Byte) :
    exec (.modeRequest tag target) s = .next (takeModeRequest tag target s) :=
  exec_take (c := .modeRequest tag target) rfl can_take tag_ne (by simp) (.inr rfl)

theorem govOfCode_govCode (g : Gov) : govOfCode (govCode g) = some g := by
  cases g <;> rfl

/-- The codes of the governing states are 0 to 3. -/
theorem govOfCode_eq_none : ∀ {n : Nat}, 3 < n → govOfCode n = none
  | _ + 4, _ => rfl
  | 0, h | 1, h | 2, h | 3, h => absurd h (by decide)

theorem takeModeRequest_of_current {target : Byte} {s : State} (h : target.toNat = govCode s.dsc.gov) (tag : Byte) :
    takeModeRequest tag target s = s.answered 0x82 tag [] := by
  simp only [takeModeRequest, h, govOfCode_govCode, if_true]
  exact done_eq (by decide) ..

theorem takeModeRequest_of_no_state {target : Byte} (h : 3 < target.toNat) (tag : Byte) (s : State) :
    takeModeRequest tag target s = s.turnedAway 0x82 tag .range .field 0 := by
  simp only [takeModeRequest, govOfCode_eq_none h]
  exact refuse_eq (by decide) ..

/-- The transitions that R3 does not give: the state and the code of the target. -/
def barredTransitions : List (Gov × Nat) :=
  [(.halted, 2), (.halted, 3), (.standby, 3), (.drive, 0), (.drive, 3), (.safeHold, 0), (.safeHold, 2)]

theorem takeModeRequest_of_barred {target : Byte} {s : State} (h : (s.dsc.gov, target.toNat) ∈ barredTransitions)
    (tag : Byte) :
    takeModeRequest tag target s = s.turnedAway 0x82 tag .state .transition (govCode s.dsc.gov) := by
  simp only [barredTransitions, List.mem_cons, Prod.mk.injEq, List.not_mem_nil, or_false] at h
  have refused := refuse_eq (k := 0x02) (by decide) tag .state .transition (govCode s.dsc.gov) s
  rcases h with ⟨gov, code⟩ | ⟨gov, code⟩ | ⟨gov, code⟩ | ⟨gov, code⟩ | ⟨gov, code⟩ | ⟨gov, code⟩ | ⟨gov, code⟩ <;>
    rw [gov] at refused ⊢ <;> simpa [takeModeRequest, code, govOfCode, gov] using refused

theorem takeModeRequest_standby_of_halted {s : State} (gov : s.dsc.gov = .halted) (tag : Byte) :
    takeModeRequest tag 1 s = requestStandby tag s := by
  simp [takeModeRequest, govOfCode, gov]

theorem takeModeRequest_rest {s : State} (gov : s.dsc.gov = .drive ∨ s.dsc.gov = .safeHold) (tag : Byte) :
    takeModeRequest tag 1 s = requestRest tag s := by
  obtain gov | gov := gov <;> simp [takeModeRequest, govOfCode, gov]

theorem takeModeRequest_drive {s : State} (gov : s.dsc.gov = .standby) (tag : Byte) :
    takeModeRequest tag 2 s = requestDrive tag s := by
  simp [takeModeRequest, govOfCode, gov]

theorem takeModeRequest_halted {s : State} (gov : s.dsc.gov = .standby) (tag : Byte) :
    takeModeRequest tag 0 s = requestHalted tag s := by
  simp [takeModeRequest, govOfCode, gov]

/-- At rest is a speed at or below REST_SPEED that is FRESH or KEPT (R17). -/
theorem atRest_iff (s : State) : atRest s = true ↔
    s.sgs.vspd.value ≤ s.hli.force.restSpeed ∧ (s.sgs.vspd.quality = .fresh ∨ s.sgs.vspd.quality = .kept) := by
  simp [atRest]

/-! ### Entry to DRIVE (R5) -/

/-- Settles O16: the conditions of `driveFailure`, with the running procedure named. -/
theorem driveEntryChecksInOrder : Obligations.DriveEntryChecksInOrder := by
  intro tag s can_take tag_ne gov no
  rw [exec_modeRequest can_take tag_ne, takeModeRequest_drive gov]
  have refused : ∀ d q, Host.Outcome.next (refuse 0x02 tag .state d q s) = no d q :=
    fun d q => congrArg _ (refuse_eq (by decide) ..)
  simp only [requestDrive, driveFailure, procRunning, loopNotUp, severeHeld, bne_iff_ne, Bool.not_eq_true']
  split_ifs <;> first | exact refused _ _ | skip
  rw [done_eq (by decide), changeState, gov]
  rfl

/-! ### DEMAND and its timer (R11, R13) -/

theorem dirOfCode_of_byte {dir : Byte} (h : ¬ 2 < dir.toNat) : dirOfCode dir.toNat =
    some (if dir = 0#8 then .neutral else if dir = 1#8 then .forward else .reverse) := by
  have one_of_three : dir = 0#8 ∨ dir = 1#8 ∨ dir = 2#8 := by bv_omega
  obtain rfl | rfl | rfl := one_of_three <;> rfl

theorem dirOfCode_eq_none : ∀ {n : Nat}, 2 < n → dirOfCode n = none
  | _ + 3, _ => rfl
  | 0, h | 1, h | 2, h => absurd h (by decide)

theorem not_holdInRange_iff (n : Nat) : holdInRange n = false ↔ n ≠ 0 ∧ (n < 50 ∨ 500 < n) := by
  rw [← Bool.not_eq_true]
  simp only [holdInRange, Bool.or_eq_true, beq_iff_eq, Bool.and_eq_true, decide_eq_true_eq]
  omega

theorem toNat_beq_one (b : Byte) : (b.toNat == 1) = (b == 1#8) := by
  rw [Bool.eq_iff_iff, beq_iff_eq, beq_iff_eq]
  constructor <;> intro h <;> bv_omega

theorem standing_latch (f : Flag) (s : State) : standing f (latch f s) = true := by
  simp only [standing, bne_iff_ne]
  intro none_set
  have := congrArg (·.getLsbD f.bit) none_set
  simp [getLsbD_mask] at this

/-- Settles O17. -/
theorem demandAndItsExpiry : Obligations.DemandAndItsExpiry := by
  refine ⟨?demand, fun s live => ⟨?stopped, ?running⟩⟩
  case demand =>
    intro tag dir propel retard hold steer brake s can_take tag_ne no
    rw [exec_take (c := .demand tag dir propel retard hold steer brake) rfl can_take tag_ne (by simp) (.inr rfl)]
    show Host.Outcome.next (takeDemand tag dir propel retard hold steer brake s) = _
    have refused : ∀ n, Host.Outcome.next (refuse 0x03 tag .range .field n s) = no n :=
      fun n => congrArg _ (refuse_eq (by decide) ..)
    by_cases no_dir : 2 < dir.toNat
    · simp only [takeDemand, demandOf, dirOfCode_eq_none no_dir, no_dir, if_true, refused]
    simp only [takeDemand, demandOf, dirOfCode_of_byte no_dir, no_dir, if_false, Bool.not_eq_true', not_holdInRange_iff,
      toNat_beq_one]
    generalize (if dir = 0#8 then Dir.neutral else if dir = 1#8 then Dir.forward else Dir.reverse) = d
    split_ifs <;> first | exact refused _ | skip
    exact congrArg _ (done_eq (by decide) ..)
  case stopped =>
    intro stopped
    refine (live_of_run demandExpiry live).trans (congrArg _ ?_)
    rw [demandExpiry, if_neg (by simp [stopped])]
  case running =>
    intro running
    refine ⟨demandExpiry s, live_of_run demandExpiry live, ?_⟩
    cases gov : s.dsc.gov with
    | halted => simp [demandExpiry, running, gov]
    | standby => simp [demandExpiry, running, gov, latch]
    | safeHold => simp [demandExpiry, running, gov, latch]
    | drive => simp [demandExpiry, running, gov, standing_latch]

/-! ### The STOP line (R15, R16) -/

/-- The state with the line recorded as asserted. -/
def stopAsserted (s : State) : State := { s with pins.stop := true, dsc.stopLine := true }

theorem stopAssert_of_standby {s : State} (gov : s.dsc.gov = .standby) : stopAssert s =
    { steerAbort .stop (gridAbort .stop (stopAsserted s)) with epu.stopReport := true } := by
  simp [stopAssert, gov, stopAsserted]

theorem exec_stopLineAssert {s : State} (live : Live s) (released : s.dsc.stopLine = false) :
    exec .stopLineAssert s = .next (stopAssert s) := by
  show Host.Outcome.next (if s.pins.reset then _ else if s.dsc.stopLine then s else stopAssert s) = _
  rw [if_neg (by rw [live]; simp), if_neg (by simp [released])]

/-- An abort of the steering supply check that follows one of the grid element check: the run goes to RELEASE with the
pending outcome of the abort, and its release ACT is its last item, the only one unless one is in its slot. -/
theorem steerAbort_gridAbort {r : SteerRun} {s : State} (run : s.sgv.run = some r) (c : ProcCause) :
    let t := steerAbort c (gridAbort c s)
    t.sgv = { s.sgv with run := some { r with phase := .release, pending := abortPending c r.pending } }
      ∧ (r.phase ≠ .release → t.items.getLast? = some (steerItem r.addr 0))
      ∧ (r.phase ≠ .release → s.slc.slot = none → t.items.filter (·.claimant == .steerCheck) = [steerItem r.addr 0])
      ∧ (r.phase = .release →
          t.items.filter (·.claimant == .steerCheck) = s.items.filter (·.claimant == .steerCheck)) := by
  have run' : (gridAbort c s).sgv.run = some r := by simp [run]
  have same_sgv : (gridAbort c s).sgv = s.sgv := by simp
  have same_slot : (gridAbort c s).slc.slot = s.slc.slot := by simp
  dsimp only
  rw [steerAbort_of_run run']
  refine ⟨by rw [toRelease_sgv, same_sgv], fun phase => ?_, fun phase empty => ?_, fun phase => ?_⟩
  · exact (toRelease_spec r _ (gridAbort c s) phase).2.1
  · exact (toRelease_spec r _ (gridAbort c s) phase).2.2.1 (same_slot.trans empty)
  · rw [toRelease_of_release phase]
    exact gridAbort_filter_other (by decide) c s

/-- Settles O18. -/
theorem stopLineAssertionAndRelease : Obligations.StopLineAssertionAndRelease := by
  refine ⟨⟨?in_reset, ?asserted, ?assertion⟩, ?release⟩
  case in_reset => intro s held; exact congrArg _ (if_pos held)
  case asserted =>
    intro s live asserted
    show Host.Outcome.next (if s.pins.reset then _ else if s.dsc.stopLine then s else stopAssert s) = _
    rw [if_neg (by rw [live]; simp), if_pos asserted]
  case release =>
    intro s
    rfl
  case assertion =>
    intro s live released
    refine ⟨stopAssert s, exec_stopLineAssert live released, ?_⟩
    cases gov : s.dsc.gov with
    | halted => simp [stopAssert, gov]
    | drive => simp [stopAssert, gov]
    | safeHold => simp [stopAssert, gov]
    | standby =>
      rw [stopAssert_of_standby gov]
      simp only [reduceCtorEq, ne_eq, not_false_eq_true, not_true_eq_false, false_implies, true_implies, true_and, and_true]
      refine ⟨?_, ?_, ?_, ?_, ?_, ?_, ?_⟩
      · simp [stopAsserted]
      · simp [stopAsserted]
      · simp [stopAsserted, gov]
      · simp
      · intro r run
        have run' : (stopAsserted s).rgv.check.run = some r := run
        refine Eq.trans ?_ (gridAbort_last run' .stop)
        simp
      · intro idle
        have idle' : (gridAbort .stop (stopAsserted s)).sgv.run = none := by simp [stopAsserted, idle]
        rw [steerAbort_of_idle idle']
        simp [stopAsserted]
      · intro r run
        have run' : (stopAsserted s).sgv.run = some r := run
        obtain ⟨sgv, last, only, -⟩ := steerAbort_gridAbort run' .stop
        refine ⟨sgv.trans ?_, last, only⟩
        unfold abortPending
        rfl

end Sys2Proof.Machine
end

section
/-! SUPPORT. Entry to HALTED (R2, R7), what it ends, and the completion of a release ACT that is served in HALTED (R36,
R159); STANDBY from the governing states (R6). -/

namespace Sys2Proof.Machine

/-! ### The effects of an entry to HALTED (R2, R66) -/

@[simp] theorem haltImage_frame (s : State) : OnlySgsImn (haltImage s) s := by
  simp [haltImage]

theorem haltEffects_fields (s : State) :
    (haltEffects s).dsc = s.dsc ∧ (haltEffects s).hli = s.hli ∧ (haltEffects s).trc = s.trc
      ∧ (haltEffects s).slc = (stopFrames s).slc ∧ (haltEffects s).sgv = { s.sgv with staged := none }
      ∧ (haltEffects s).rgv = { holdOff s.rgv with staged := none }
      ∧ (haltEffects s).epu = { s.epu with restCount := 0, restWindow := [], pres := .cleared }
      ∧ (haltEffects s).tal = { s.tal with propelRetard := false, staged := none }
      ∧ (haltEffects s).sgs = (haltImage (stopFrames s)).sgs ∧ (haltEffects s).imn = (haltImage (stopFrames s)).imn
      ∧ (haltEffects s).out = s.out := by
  simp [haltEffects, stopFrames]

/-- Entry to HALTED writes every input signal ABSENT, the bits of a pending injection flipped in that of signal 1; both
derived signals are ABSENT, the screening table stays (R2, R66, R181). -/
theorem haltImage_sgs (s : State) :
    (haltImage s).sgs = { s.sgs with
      image := s.sgs.image.mapIdx (fun i p => ⟨haltedEntry p.val, if i = 0 then (takeInjection .image s).1 else []⟩)
      vspd := ⟨0, .absent⟩, payload := ⟨0, .absent⟩ } := by
  simp [haltImage, writeImage, List.mapIdx_eq_zipIdx_map, List.zipIdx_map, Function.comp_def]

theorem haltImage_absent {s : State} {p : Prot ImageEntry} (h : p ∈ (haltImage s).sgs.image) : p.val.quality = .absent := by
  rw [haltImage_sgs, List.mem_mapIdx] at h
  obtain ⟨i, hi, rfl⟩ := h
  rfl

/-! ### STANDBY to HALTED (R7) -/

/-- The checks ended by an entry to HALTED. -/
def checksHalted (s : State) : State := steerAbort .halted (gridAbort .halted s)

theorem requestHalted_eq (tag : Byte) (s : State) :
    requestHalted tag s = (haltEffects (changeState .halted .request (checksHalted s))).answered 0x82 tag [] :=
  done_eq (by decide) ..

theorem exec_halted {tag : Byte} {s : State} (can_take : CanTake s) (tag_ne : tag ≠ 0#8) (gov : s.dsc.gov = .standby) :
    exec (.modeRequest tag 0) s = .next (requestHalted tag s) := by
  rw [exec_modeRequest can_take tag_ne, takeModeRequest_halted gov]

/-- Past the end of the checks only the passes' run, phase, slots and slot move in the station loop. -/
theorem requestHalted_slc (tag : Byte) (s : State) :
    (requestHalted tag s).slc = (stopFrames (checksHalted s)).slc := by
  rw [requestHalted_eq]
  obtain ⟨-, -, -, slc, -⟩ := haltEffects_fields (changeState .halted .request (checksHalted s))
  show (haltEffects _).slc = _
  rw [slc]
  simp [stopFrames]

theorem requestHalted_items (tag : Byte) (s : State) : (requestHalted tag s).items = (checksHalted s).items := by
  rw [State.items, requestHalted_slc]
  rfl

theorem requestHalted_sgv (tag : Byte) (s : State) :
    (requestHalted tag s).sgv = { (checksHalted s).sgv with staged := none } := by
  rw [requestHalted_eq]
  obtain ⟨-, -, -, -, sgv, -⟩ := haltEffects_fields (changeState .halted .request (checksHalted s))
  show (haltEffects _).sgv = _
  rw [sgv]
  simp

theorem requestHalted_rgv (tag : Byte) (s : State) :
    (requestHalted tag s).rgv = { holdOff (gridAbort .halted s).rgv with staged := none } := by
  rw [requestHalted_eq]
  obtain ⟨-, -, -, -, -, rgv, -⟩ := haltEffects_fields (changeState .halted .request (checksHalted s))
  show (haltEffects _).rgv = _
  rw [rgv]
  simp [checksHalted]

theorem checksHalted_hli (s : State) : (checksHalted s).hli = (gridAbort .halted s).hli := steerAbort_hli ..

/-- The messages of an entry to HALTED: the PROC notice of the grid element check, the STATE notice, the DONE reply. -/
theorem requestHalted_tx (tag : Byte) (s : State) (gov : s.dsc.gov = .standby) : (requestHalted tag s).hli.tx =
    (gridAbort .halted s).hli.tx ++ sentNotice (.state .standby .halted .request) (gridAbort .halted s).hli
      ++ [.reply false 0x82 tag (.done [])] := by
  rw [requestHalted_eq]
  obtain ⟨-, hli, -⟩ := haltEffects_fields (changeState .halted .request (checksHalted s))
  show (haltEffects _).hli.tx ++ _ = _
  rw [hli, changeState, notify_tx]
  simp [checksHalted_hli, show (checksHalted s).dsc = s.dsc by simp [checksHalted], gov]

/-- With the kinds in the mask and room for both, the notices of an entry to HALTED are queued. -/
theorem requestHalted_tx_of_room {tag : Byte} {s : State} (gov : s.dsc.gov = .standby)
    (state_kind : s.hli.force.noticeMask.testBit 0 = true) (proc_kind : s.hli.force.noticeMask.testBit 3 = true)
    (room : s.hli.tx.countP (·.isNotice) ≤ 4) : (requestHalted tag s).hli.tx = s.hli.tx
      ++ (if s.rgv.check.run.isSome then [Msg.notice (.proc 1 3 .halted s.slc.frameNo)] else [])
      ++ [.notice (.state .standby .halted .request), .reply false 0x82 tag (.done [])] := by
  have grid : sentNotice (.proc 1 3 .halted s.slc.frameNo) s.hli = [.notice (.proc 1 3 .halted s.slc.frameNo)] :=
    sentNotice_of_room proc_kind (by omega)
  have grid_tx := gridAbort_tx .halted s
  rw [grid] at grid_tx
  have still_room : (gridAbort .halted s).hli.tx.countP (·.isNotice) < 6 := by
    rw [grid_tx, List.countP_append]
    split
    · show _ + 1 < 6; omega
    · show _ + 0 < 6; omega
  rw [requestHalted_tx tag s gov, sentNotice_of_room (by rw [(gridAbort_hli_keeps _ s).1]; exact state_kind) still_room,
    grid_tx]
  simp

/-! ### The completion of the exchange in its slot (R24, R29, R57) -/

/-- The state to which the outcome of the exchange in its slot is told. -/
def heardState (x : SlotEx) (h : Heard) (s : State) : State :=
  { countOutcome x h.outcome (applyDirectory x h.outcome s) with slc.slot := none }

theorem complete_eq {x : SlotEx} {s : State} (slot : s.slc.slot = some x) (h : Heard) :
    complete h s = settleReset x (claimOutcome x h (heardState x h s)) := by
  simp [complete, slot, heardState]

theorem exec_exchangeComplete {x : SlotEx} {ws : List RxWord} {h : Heard} {s : State} (live : Live s)
    (slot : s.slc.slot = some x) (heard : heardReply x ws = some h) :
    exec (.exchangeComplete ws) s = .next (complete h s) := by
  refine (live_of_run (exchangeComplete ws) live).trans (congrArg _ ?_)
  simp [exchangeComplete, slot, heard]

theorem exec_slotTimeout {s : State} (live : Live s) : exec .slotTimeout s = .next (complete (.bare .noReply) s) :=
  live_of_run slotTimeout live

/-- A station that becomes EXCLUDED, with no check that it would abort, only latches its flag. -/
theorem stationMoved_of_no_abort {s : State} (grid : s.rgv.check.run = none)
    (steer : ∀ t : State, t.sgv = s.sgv → ∀ c, steerAbort c t = t) (addr : Nat) (before after : Station) :
    ∃ fl, stationMoved addr before after s = { s with hli.flags := fl } := by
  have no_check : steerStationExcluded addr (gridStationExcluded addr (latch .stationExcluded s)) =
      latch .stationExcluded s := by
    have grid' : gridStationExcluded addr (latch .stationExcluded s) = latch .stationExcluded s := by
      simp [gridStationExcluded, grid]
    rw [grid', steerStationExcluded]
    split
    · split
      · exact steer _ (by simp) _
      · rfl
    · rfl
  unfold stationMoved
  split_ifs with same
  · exact ⟨s.hli.flags, rfl⟩
  · split
    · exact ⟨_, rfl⟩
    · exact ⟨_, no_check⟩
    · exact ⟨s.hli.flags, rfl⟩

/-- With no check that a station's exclusion would abort, an outcome changes the directory, the flags and the counters
alone, and the slot is empty. -/
theorem heardState_of_no_abort {s : State} (grid : s.rgv.check.run = none)
    (steer : ∀ t : State, t.sgv = s.sgv → ∀ c, steerAbort c t = t) (x : SlotEx) (h : Heard) :
    ∃ d fl cs, heardState x h s = { s with slc.dir := d, slc.slot := none, hli.flags := fl, hli.counters := cs } := by
  have directory : ∃ d fl, applyDirectory x h.outcome s = { s with slc.dir := d, hli.flags := fl } := by
    unfold applyDirectory
    split
    · split_ifs
      · exact ⟨s.slc.dir, s.hli.flags, rfl⟩
      · unfold stationFailed
        split
        · exact ⟨s.slc.dir, s.hli.flags, rfl⟩
        · rename_i e _
          obtain ⟨fl, moved⟩ := stationMoved_of_no_abort (s := updStation x.addr (fun _ => (e.fail _).judge s.hli.force) s)
            (by simpa using grid) (by simpa using steer) x.addr e ((e.fail _).judge s.hli.force)
          exact ⟨_, fl, moved⟩
    · split
      · exact ⟨_, s.hli.flags, rfl⟩
      · exact ⟨_, s.hli.flags, rfl⟩
      · exact ⟨s.slc.dir, s.hli.flags, rfl⟩
  obtain ⟨d, fl, directory⟩ := directory
  have counted : ∀ t : State, ∃ cs, countOutcome x h.outcome t = { t with hli.counters := cs } := by
    intro t
    unfold countOutcome
    (repeat' split) <;> exact ⟨_, rfl⟩
  obtain ⟨cs, counted⟩ := counted (applyDirectory x h.outcome s)
  exact ⟨d, fl, cs, by rw [heardState, counted, directory]⟩

/-- A SINGLE item that completes leaves the queue, which then has no other waiting to join, and its claimant is told. -/
theorem serviceOutcome_of_single {it : Item} {its : List Item} {s : State} (queue : s.slc.queue = it :: its)
    (held : s.slc.held = []) (single : it.retry = none) (h : Heard) :
    serviceOutcome h s = endService (tellClaimant it h { s with slc.queue := its }) := by
  have repeats_not : itemRepeats it h = false := by simp [itemRepeats, single]
  have popped : popHead s = { s with slc.queue := its } := by
    simp [popHead, joinHeld, queue, held]
  simp [serviceOutcome, queue, repeats_not, finishHead, popped]

end Sys2Proof.Machine
end

section
/-! SUPPORT. MODE-REQUEST (R3, R6, R7) and GOVERNOR-RESET (R20): their statements, from the effects of their transitions. -/

namespace Sys2Proof.Machine

/-- The steering supply check at an entry to HALTED: with none in progress the governor keeps all but its staged outputs,
and a running one is aborted with cause HALTED. -/
theorem requestHalted_steer (tag : Byte) (s : State) :
    (s.sgv.run = none → (requestHalted tag s).sgv = { s.sgv with staged := none })
      ∧ ∀ r, s.sgv.run = some r →
        (requestHalted tag s).sgv = { s.sgv with
            staged := none
            run := some { r with phase := .release, pending := abortPending .halted r.pending } }
        ∧ (r.phase ≠ .release → (requestHalted tag s).items.getLast? = some (steerItem r.addr 0))
        ∧ (r.phase ≠ .release → s.slc.slot = none →
            (requestHalted tag s).items.filter (·.claimant == .steerCheck) = [steerItem r.addr 0])
        ∧ (r.phase = .release → (requestHalted tag s).items.filter (·.claimant == .steerCheck) =
            s.items.filter (·.claimant == .steerCheck)) := by
  refine ⟨fun idle => ?_, fun r run => ?_⟩
  · have unchanged : (checksHalted s).sgv = s.sgv := by
      rw [checksHalted, steerAbort_of_idle (by simp [idle])]
      simp
    rw [requestHalted_sgv, unchanged]
  · obtain ⟨sgv, last, only, kept⟩ := steerAbort_gridAbort run .halted
    rw [requestHalted_items, requestHalted_sgv]
    exact ⟨by rw [checksHalted, sgv], last, only, kept⟩

/-- The steering station has taken the command. -/
def ExOutcome.taken (o : ExOutcome) : Bool := o == .takenReady || o == .takenNotReady

/-- In RELEASE with the outcome of an abort pending, the release ACT's outcome ends the run with it; a release that did not
work leaves the isolation mark and is unconfirmed. -/
theorem steerOutcome_of_aborted {r : SteerRun} {c : ProcCause} {s : State} (run : s.sgv.run = some r)
    (release : r.phase = .release) (pending : r.pending = some (.aborted, c)) (o : ExOutcome) :
    steerOutcome o s = steerEnd r .aborted c (!o.taken)
      { s with sgv.isolation := if o.taken then false else s.sgv.isolation } := by
  cases o <;>
    simp [steerOutcome, run, release, steerReleased, pending, abortPending, steerEnd, ExOutcome.taken] <;> rfl

/-- The release ACT of a check aborted at an entry to HALTED completes: the run ends ABORTED with cause HALTED. -/
theorem complete_release_in_halted {it : Item} {its : List Item} {x : SlotEx} {r : SteerRun} {s : State}
    (idle : s.slc.phase = .idle) (slot : s.slc.slot = some x) (service : x.claim = .service) (live_exchange : x.afterReset = false)
    (queue : s.slc.queue = it :: its) (steer : it.claimant = .steerCheck) (told : it.discard = false)
    (single : it.retry = none) (held : s.slc.held = []) (no_grid : s.rgv.check.run = none) (run : s.sgv.run = some r)
    (release : r.phase = .release) (pending : r.pending = some (.aborted, .halted)) (h : Heard) :
    let t := complete h s
    t.slc.queue = its ∧ t.slc.slot = none
      ∧ t.sgv = { s.sgv with
          run := none, isolation := if h.outcome.taken then false else s.sgv.isolation
          result := ⟨.aborted, .halted, r.init, r.final, s.slc.frameNo, !h.outcome.taken⟩ }
      ∧ t.hli.tx = s.hli.tx ++ sentNotice (.proc 2 3 .halted s.slc.frameNo) s.hli := by
  have fixed : ∀ t : State, t.sgv = s.sgv → ∀ c, steerAbort c t = t := fun t same c =>
    steerAbort_of_fixed (same ▸ run) release pending (.inl rfl) c
  obtain ⟨d, fl, cs, heard⟩ := heardState_of_no_abort no_grid fixed x h
  have completed : complete h s = endService (steerEnd r .aborted .halted (!h.outcome.taken)
      { s with slc.dir := d, slc.slot := none, slc.queue := its, hli.flags := fl, hli.counters := cs
               sgv.isolation := if h.outcome.taken then false else s.sgv.isolation }) := by
    rw [complete_eq slot, heard, settleReset, if_neg (by simp [live_exchange]), claimOutcome, service]
    dsimp only
    rw [serviceOutcome_of_single (its := its) (it := it) (by exact queue) (by exact held) single, tellClaimant,
      if_neg (by simp [told]), steer]
    dsimp only
    rw [steerOutcome_of_aborted (r := r) (by exact run) release pending]
  have stays : ∀ t : State, t.slc.phase = .idle → endService t = t := fun t phase => by simp [endService, phase]
  dsimp only
  rw [completed, stays _ (by simpa [steerEnd] using idle)]
  exact ⟨by simp [steerEnd], by simp [steerEnd], steerEnd_sgv .., steerEnd_tx ..⟩

/-- Settles O14. -/
theorem modeRequestsFollowTheTransitionTable : Obligations.ModeRequestsFollowTheTransitionTable := by
  refine ⟨?table, ?rest, ?halted, ?ends_checks, ?release⟩
  case table =>
    intro tag target s can_take tag_ne
    rw [exec_modeRequest can_take tag_ne]
    exact ⟨fun no_state => by rw [takeModeRequest_of_no_state no_state],
      fun current => by rw [takeModeRequest_of_current current], fun barred => by rw [takeModeRequest_of_barred barred]⟩
  case rest =>
    intro tag s can_take tag_ne governing
    rw [exec_modeRequest can_take tag_ne, takeModeRequest_rest governing]
    simp only [requestRest, ← atRest_iff]
    split_ifs
    · exact congrArg _ (done_eq (by decide) ..)
    · exact congrArg _ (refuse_eq (by decide) ..)
  case halted =>
    intro tag s can_take tag_ne gov
    refine ⟨requestHalted tag s, exec_halted can_take tag_ne gov, ?_⟩
    obtain ⟨dsc, hli, -, -, -, -, epu, -, sgs, -⟩ := haltEffects_fields (changeState .halted .request (checksHalted s))
    have slc := requestHalted_slc tag s
    have rgv := requestHalted_rgv tag s
    have epu' : (requestHalted tag s).epu = _ := epu
    have sgs' : (requestHalted tag s).sgs = _ := sgs
    have hli' : (requestHalted tag s).hli.stored = (haltEffects (changeState .halted .request (checksHalted s))).hli.stored := rfl
    refine ⟨?_, by rw [slc]; rfl, by rw [slc]; rfl, by rw [slc]; rfl, ?_, by rw [rgv]; exact (gridAbort_run .halted s).1, by rw [rgv]; rfl, ?_,
      ?_, ?_, ?_, ?_, ?_, ?_, ?_⟩
    · exact dsc.trans (by simp [checksHalted])
    · rw [sgs']; exact fun p => haltImage_absent
    · rw [requestHalted_tx tag s gov]; simp
    · rw [epu']; simp [checksHalted]
    · rw [epu']; simp [checksHalted]
    · rw [slc]; simp [stopFrames, checksHalted]
    · rw [sgs', haltImage_sgs]; simp [stopFrames, checksHalted]
    · rw [slc]; simp [stopFrames, checksHalted]
    · rw [hli', hli]; simp [changeState, checksHalted_hli, (gridAbort_hli_keeps .halted s).2.1]
    · rw [slc]; simp [stopFrames, checksHalted]
  case ends_checks =>
    intro tag s can_take tag_ne gov
    refine ⟨requestHalted tag s, exec_halted can_take tag_ne gov, ?_, fun r run => ?_, requestHalted_tx_of_room gov,
      (requestHalted_steer tag s).1, fun r run => ?_⟩
    · obtain ⟨-, hli, -⟩ := haltEffects_fields (changeState .halted .request (checksHalted s))
      have deferred : (requestHalted tag s).hli.deferred =
        (haltEffects (changeState .halted .request (checksHalted s))).hli.deferred := rfl
      rw [deferred, hli]
      simp [changeState, checksHalted_hli, (gridAbort_hli_keeps .halted s).2.2.1]
    · rw [requestHalted_rgv]
      exact gridAbort_last run .halted
    · obtain ⟨sgv, last, only, kept⟩ := (requestHalted_steer tag s).2 r run
      refine ⟨sgv.trans ?_, last, only, kept⟩
      unfold abortPending
      rfl
  case release =>
    intro it its x r s live gov idle slot service live_exchange queue steer told single held no_grid run release pending ended
    have ends : ∀ h : Heard, ended (complete h s) (!h.outcome.taken) := by
      intro h
      obtain ⟨queue', slot', sgv, tx⟩ := complete_release_in_halted idle slot service live_exchange queue steer told single
        held no_grid run release pending h
      refine ⟨queue', slot', sgv.trans ?_, fun mask room => ?_⟩
      · cases h.outcome.taken <;> rfl
      · rw [tx, sentNotice_of_room mask room]
    exact ⟨fun ws h heard => ⟨_, exec_exchangeComplete live slot heard, ends h⟩, _, exec_slotTimeout live, ends _⟩

end Sys2Proof.Machine
end

section
/-! SUPPORT. The station loop (chapter 2): the sync of the loop, the station directory and what moves a station, LOOP-SCAN,
and the requests that join the service queue. -/

namespace Sys2Proof.Machine

/-! ### Flags that stand (R193) -/

theorem standing_eq_getLsbD (f : Flag) (s : State) : standing f s = s.hli.flags.getLsbD f.bit := by
  have one_bit : f.mask = BitVec.twoPow 16 f.bit := by cases f <;> rfl
  rw [standing, one_bit, BitVec.and_twoPow]
  cases s.hli.flags.getLsbD f.bit with
  | false => rfl
  | true => cases f <;> rfl

/-- Every flag that stands in one state stands in the other. -/
def KeepsFlags (t s : State) : Prop := ∀ f, standing f s = true → standing f t = true

theorem KeepsFlags.trans {u t s : State} (h : KeepsFlags u t) (h' : KeepsFlags t s) : KeepsFlags u s :=
  fun f stands => h f (h' f stands)

theorem keepsFlags_of_flags {t s : State} (h : t.hli.flags = s.hli.flags) : KeepsFlags t s := by
  intro f stands
  rwa [standing_eq_getLsbD, h, ← standing_eq_getLsbD]

theorem keepsFlags_of_or {t s : State} {m : BitVec 16} (h : t.hli.flags = s.hli.flags ||| m) : KeepsFlags t s := by
  intro f stands
  rw [standing_eq_getLsbD] at stands ⊢
  simp [h, stands]

theorem notify_keepsFlags (n : Notice) (s : State) : KeepsFlags (notify n s) s := by
  obtain same | queued | dropped := notify_hli n s
  · exact keepsFlags_of_flags (by rw [same])
  · exact keepsFlags_of_flags (by rw [queued])
  · exact keepsFlags_of_or (by rw [dropped])

theorem gridAbort_keepsFlags (c : ProcCause) (s : State) : KeepsFlags (gridAbort c s) s := by
  cases run : s.rgv.check.run with
  | none => exact keepsFlags_of_flags (by rw [gridAbort_of_idle run])
  | some r =>
    rw [gridAbort_of_run run]
    exact (notify_keepsFlags _ _).trans (keepsFlags_of_flags (by simp))

theorem steerAbort_keepsFlags (c : ProcCause) (s : State) : KeepsFlags (steerAbort c s) s :=
  keepsFlags_of_flags (by rw [steerAbort_hli])

/-! ### A station of the directory (R27) -/

theorem addr_of_stationAt {a : Nat} {s : State} {e : Station} (h : stationAt a s = some e) : e.addr = a := by
  simpa using List.find?_some h

/-- An update of the directory that leaves the addresses is an update of the station at an address. -/
theorem stationAt_of_map {g : Station → Station} (keeps_addr : ∀ e, (g e).addr = e.addr) {t s : State}
    (h : t.slc.dir = s.slc.dir.map g) (a : Nat) : stationAt a t = (stationAt a s).map g := by
  rw [stationAt, h, List.find?_map, stationAt]
  simp only [Function.comp_def, keeps_addr]

theorem stationAt_of_dir {t s : State} (h : t.slc.dir = s.slc.dir) (a : Nat) : stationAt a t = stationAt a s := by
  rw [stationAt, stationAt, h]

theorem stationAt_updStation_same {a : Nat} {f : Station → Station} {s : State} {e : Station} (h : stationAt a s = some e)
    (keeps_addr : ∀ e, e.addr = a → (f e).addr = a) : stationAt a (updStation a f s) = some (f e) := by
  rw [stationAt_of_map (g := fun e => if e.addr == a then f e else e) _ rfl, h]
  · simp [addr_of_stationAt h]
  · intro e
    by_cases here : e.addr = a <;> simp [here, keeps_addr]

theorem stationAt_updStation_other {a b : Nat} (ne : b ≠ a) {f : Station → Station} (s : State)
    (keeps_addr : ∀ e, e.addr = a → (f e).addr = a) : stationAt b (updStation a f s) = stationAt b s := by
  rw [stationAt_of_map (g := fun e => if e.addr == a then f e else e) _ rfl]
  · cases h : stationAt b s with
    | none => rfl
    | some e => simp [addr_of_stationAt h, ne]
  · intro e
    by_cases here : e.addr = a <;> simp [here, keeps_addr]

/-- With no station at an address an update there changes nothing. -/
theorem updStation_of_none {a : Nat} {s : State} (h : stationAt a s = none) (f : Station → Station) :
    updStation a f s = s := by
  have nobody : ∀ e ∈ s.slc.dir, (e.addr == a) = false := by simpa [stationAt] using h
  have same : s.slc.dir.map (fun e => if e.addr == a then f e else e) = s.slc.dir := by
    conv_rhs => rw [← List.map_id s.slc.dir]
    exact List.map_congr_left fun e he => by simp [nobody e he]
  rw [updStation, same]

/-! ### What moves a station (R29, R30) -/

theorem Station.judge_of_excluded {g : Settings} {e : Station} (h : e.state = .excluded) : e.judge g = e := by
  simp [Station.judge, h]

theorem Station.judge_of_exclude {g : Settings} {e : Station} (h : e.state ≠ .excluded) (reaches : g.streakExclude ≤ e.streak) :
    e.judge g = { e with state := .excluded } := by
  simp [Station.judge, h, reaches]

theorem Station.judge_of_suspect {g : Settings} {e : Station} (enrolled : e.state = .enrolled)
    (below : e.streak < g.streakExclude) (reaches : g.streakSuspect ≤ e.streak) :
    e.judge g = { e with state := .suspect } := by
  simp [Station.judge, enrolled, below, reaches]

/-- Below STREAK_EXCLUDE a station that is not ENROLLED, or below STREAK_SUSPECT too, stays in its state. -/
theorem Station.judge_of_below {g : Settings} {e : Station} (below : e.streak < g.streakExclude)
    (stays : e.streak < g.streakSuspect ∨ e.state ≠ .enrolled) : e.judge g = e := by
  have not_suspect : ¬ (g.streakSuspect ≤ e.streak ∧ e.state = .enrolled) := by
    obtain low | other := stays
    · exact fun h => absurd h.1 (by omega)
    · exact fun h => other h.2
  simp [Station.judge, below, not_suspect]

/-- Judging a station moves its state alone. -/
theorem Station.judge_eq (g : Settings) (e : Station) : e.judge g = { e with state := (e.judge g).state } := by
  unfold Station.judge
  split_ifs <;> rfl

theorem gridStationExcluded_cases (addr : Nat) (s : State) :
    gridStationExcluded addr s = s ∨ gridStationExcluded addr s = gridAbort .stationExcluded s := by
  unfold gridStationExcluded
  (repeat' split) <;> simp

theorem steerStationExcluded_cases (addr : Nat) (s : State) :
    steerStationExcluded addr s = s ∨ steerStationExcluded addr s = steerAbort .stationExcluded s := by
  unfold steerStationExcluded
  (repeat' split) <;> simp

/-- The checks told of an EXCLUDED station keep the flags that stand and the station loop but for queue and phase. -/
theorem checksTold_keeps (addr : Nat) (s : State) :
    KeepsFlags (steerStationExcluded addr (gridStationExcluded addr s)) s
      ∧ OnlyQueuePhase (steerStationExcluded addr (gridStationExcluded addr s)) s := by
  have grid : KeepsFlags (gridStationExcluded addr s) s ∧ OnlyQueuePhase (gridStationExcluded addr s) s := by
    obtain same | aborted := gridStationExcluded_cases addr s
    · rw [same]; exact ⟨fun _ h => h, by simp⟩
    · rw [aborted]; exact ⟨gridAbort_keepsFlags _ _, (gridAbort_frame ..).2⟩
  obtain ⟨grid_flags, grid_slc⟩ := grid
  obtain same | aborted := steerStationExcluded_cases addr (gridStationExcluded addr s)
  · rw [same]; exact ⟨grid_flags, grid_slc⟩
  · rw [aborted]
    exact ⟨(steerAbort_keepsFlags _ _).trans grid_flags, by simp_all⟩

/-- A station's move keeps the flags that stand and the station loop but for queue and phase. -/
theorem stationMoved_keeps (addr : Nat) (before after : Station) (s : State) :
    KeepsFlags (stationMoved addr before after s) s ∧ OnlyQueuePhase (stationMoved addr before after s) s := by
  unfold stationMoved
  split_ifs
  · exact ⟨fun _ h => h, by simp⟩
  · split
    · exact ⟨keepsFlags_of_or rfl, by simp⟩
    · obtain ⟨flags, slc⟩ := checksTold_keeps addr (latch .stationExcluded s)
      exact ⟨flags.trans (keepsFlags_of_or rfl), by simpa using slc⟩
    · exact ⟨fun _ h => h, by simp⟩

/-- A station that becomes EXCLUDED latches its flag. -/
theorem stationMoved_excluded {before after : Station} (moved : before.state ≠ after.state) (h : after.state = .excluded)
    (addr : Nat) (s : State) : standing .stationExcluded (stationMoved addr before after s) = true := by
  rw [stationMoved, if_neg moved, h]
  exact (checksTold_keeps addr (latch .stationExcluded s)).1 _ (standing_latch ..)

theorem stationMoved_suspect {before after : Station} (moved : before.state ≠ after.state) (h : after.state = .suspect)
    (addr : Nat) (s : State) : stationMoved addr before after s = latch .stationSuspect s := by
  rw [stationMoved, if_neg moved, h]

/-! ### The rows of a streak that reaches its setting (R30; log 3) -/

/-- The station with its streak risen by one, as judged. -/
abbrev Station.risen (g : Settings) (e : Station) : Station := Station.judge g { e with streak := e.streak + 1 }

theorem streakReaches_of_station {a : Nat} {s : State} {e : Station} (h : stationAt a s = some e) (st : StationState) :
    streakReaches st a s = if e.streak < 255 ∧ e.state ≠ st ∧ (e.risen s.hli.force).state = st then
      stationMoved a e (e.risen s.hli.force) (updStation a (fun _ => e.risen s.hli.force) s) else s := by
  rw [streakReaches, h]

theorem streakReaches_of_none {a : Nat} {s : State} (h : stationAt a s = none) (st : StationState) :
    streakReaches st a s = s := by
  rw [streakReaches, h]

/-- The risen station is newly SUSPECT exactly when an ENROLLED one's streak reaches STREAK_SUSPECT below STREAK_EXCLUDE. -/
theorem risen_suspect_iff (g : Settings) (e : Station) :
    (e.state ≠ .suspect ∧ (e.risen g).state = .suspect) ↔
      e.state = .enrolled ∧ g.streakSuspect ≤ e.streak + 1 ∧ e.streak + 1 < g.streakExclude := by
  rw [Station.risen, Station.judge]
  cases state : e.state <;> dsimp only <;> split_ifs <;> simp_all

theorem risen_excluded_iff (g : Settings) (e : Station) :
    (e.state ≠ .excluded ∧ (e.risen g).state = .excluded) ↔ e.state ≠ .excluded ∧ g.streakExclude ≤ e.streak + 1 := by
  rw [Station.risen, Station.judge]
  cases state : e.state <;> dsimp only <;> split_ifs <;> simp_all

/-- Settles O23. -/
theorem failureStreaksMoveStations : Obligations.FailureStreaksMoveStations := by
  refine ⟨⟨?judged, fun e free => if_neg free⟩, ⟨?rows, ?no_station⟩⟩
  case judged =>
    intro k g e order e'
    have fields : e' = { e.fail k with state := e'.state } := Station.judge_eq g (e.fail k)
    have streak : e'.streak = (e.fail k).streak := by rw [fields]
    refine ⟨streak, by rw [fields]; rfl, by rw [fields]; rfl, by rw [fields]; rfl, by rw [fields]; rfl, by rw [fields]; rfl,
      fun out => ?_, fun free reaches => ?_, fun free below reaches => ?_, fun low => ?_⟩
    · rw [show e' = e.fail k from Station.judge_of_excluded out]; exact out
    · rw [show e' = _ from Station.judge_of_exclude (e := e.fail k) free (streak ▸ reaches)]
    · cases state : e.state with
      | enrolled => rw [show e' = _ from Station.judge_of_suspect (e := e.fail k) state (streak ▸ below) (streak ▸ reaches)]
      | suspect =>
        have stays : e' = e.fail k := Station.judge_of_below (streak ▸ below) (.inr (by simp [Station.fail, state]))
        rw [stays]; exact state
      | excluded => exact absurd state free
    · have stays : e' = e.fail k := Station.judge_of_below (by omega) (.inl (streak ▸ low))
      rw [stays]; rfl
  case no_station =>
    intro a s live none
    exact ⟨(live_of_run (becomeSuspect a) live).trans (congrArg _ (streakReaches_of_none none _)),
      (live_of_run (becomeExcluded a) live).trans (congrArg _ (streakReaches_of_none none _))⟩
  case rows =>
    intro a e s live station n g suspects excludes
    have suspect_exec : exec (.stationSuspect a) s = .next (streakReaches .suspect a s) := live_of_run (becomeSuspect a) live
    have exclude_exec : exec (.stationExcluded a) s = .next (streakReaches .excluded a s) := live_of_run (becomeExcluded a) live
    have suspects_iff : e.streak < 255 ∧ e.state ≠ .suspect ∧ (e.risen g).state = .suspect ↔ suspects := by
      rw [risen_suspect_iff]; exact ⟨fun ⟨a, b, c⟩ => ⟨b, a, c⟩, fun ⟨b, a, c⟩ => ⟨a, b, c⟩⟩
    have excludes_iff : e.streak < 255 ∧ e.state ≠ .excluded ∧ (e.risen g).state = .excluded ↔ excludes := by
      rw [risen_excluded_iff]; exact ⟨fun ⟨a, b, c⟩ => ⟨b, a, c⟩, fun ⟨b, a, c⟩ => ⟨a, b, c⟩⟩
    have here : ∀ x : Station, x.addr = a → (e.risen g).addr = a := fun _ _ => by
      rw [Station.risen, Station.judge_eq]; show e.addr = a; exact addr_of_stationAt station
    rw [suspect_exec, exclude_exec, streakReaches_of_station station, streakReaches_of_station station]
    refine ⟨fun rises => ?_, fun not_rises => by rw [if_neg (mt suspects_iff.mp not_rises)], fun rises => ?_,
      fun not_rises => by rw [if_neg (mt excludes_iff.mp not_rises)]⟩
    · obtain ⟨enrolled, room, reaches, below⟩ := rises
      have risen : e.risen g = { e with state := .suspect, streak := n } :=
        Station.judge_of_suspect (e := { e with streak := n }) enrolled below reaches
      rw [if_pos (suspects_iff.mpr ⟨enrolled, room, reaches, below⟩),
        stationMoved_suspect (by rw [risen, enrolled]; simp) (by rw [risen])]
      refine ⟨_, rfl, ?_, standing_latch .., fun b ne => stationAt_updStation_other ne s here, ?_⟩
      · have there : stationAt a (updStation a (fun _ => e.risen g) s) = some (e.risen g) :=
          stationAt_updStation_same station here
        exact there.trans (congrArg some risen)
      · simp [latch, updStation]
    · obtain ⟨free, room, reaches⟩ := rises
      have risen : e.risen g = { e with state := .excluded, streak := n } :=
        Station.judge_of_exclude (e := { e with streak := n }) free reaches
      have moved : e.state ≠ (e.risen g).state := by rw [risen]; exact free
      have same_dir : ∀ b, stationAt b (stationMoved a e (e.risen g) (updStation a (fun _ => e.risen g) s)) =
          stationAt b (updStation a (fun _ => e.risen g) s) := by
        obtain ⟨-, -, -, dir, -⟩ := stationMoved_keeps a e (e.risen g) (updStation a (fun _ => e.risen g) s)
        exact stationAt_of_dir dir
      rw [if_pos (excludes_iff.mpr ⟨free, room, reaches⟩)]
      refine ⟨_, rfl, ?_, stationMoved_excluded moved (by rw [risen]) .., fun b ne => ?_⟩
      · rw [same_dir, stationAt_updStation_same station here, risen]
      · rw [same_dir, stationAt_updStation_other ne s here]

/-! ### The sync of the loop (R21, R22) -/

theorem cleanIdle_eq_false {w : RxWord} (h : w.word ≠ 0x0F0F#16 ∨ w.lineError = true) : w.cleanIdle = false := by
  obtain word | error := h
  · simp [RxWord.cleanIdle, word]
  · simp [RxWord.cleanIdle, error]

/-- Settles O22. -/
theorem loopSyncCountsCleanIdleWords : Obligations.LoopSyncCountsCleanIdleWords := by
  intro s live
  have clean : exec .cleanIdleWordReturned s = .next (cleanIdleWord s) := live_of_run cleanIdleWord live
  have reached : exec .loopSyncReached s = .next (loopSyncReached s) := live_of_run loopSyncReached live
  rw [clean, reached]
  refine ⟨fun down => ?_, fun syncing below => ?_, fun syncing at_last => ⟨?_, ?_⟩, fun up => ?_, fun other => ?_, fun w unclean => ?_⟩
  · rw [cleanIdleWord, down]; rfl
  · simp [cleanIdleWord, syncing, below]
  · simp [cleanIdleWord, syncing, at_last, setLoop]
  · simp [cleanIdleWord, loopSyncReached, syncing, at_last]
  · simp [cleanIdleWord, up]
  · simp [loopSyncReached, other]
  · refine (live_of_run (uncleanWord w) live).trans (congrArg _ ?_)
    simp [uncleanWord, cleanIdle_eq_false unclean]

/-! ### LOOP-SCAN (R32, R33) -/

theorem deferredReplyOf_of_kind {k : DeferKind} {tag : Byte} {s : State} (h : s.hli.deferred = some ⟨k, tag⟩) (b : Body) :
    deferredReplyOf k b s =
      { s with hli.tx := s.hli.tx ++ [.reply true (replyKind k.code) tag b], hli.deferred := none } := by
  rw [deferredReplyOf, h, Option.map_some, if_pos (by simp), deferredReply_of_some h]

/-- An identity word names a known kind exactly when its kind field is that kind's code (R26, R200). -/
theorem kindOfCode_kindCode (k : Kind) : kindOfCode (kindCode k) = some k := by
  cases k <;> rfl

theorem kindOfCode_eq_none {n : Nat} (h : ∀ k, n ≠ kindCode k) : kindOfCode n = none := by
  unfold kindOfCode
  split
  · exact absurd rfl (h .inverter)
  · exact absurd rfl (h .chopper)
  · exact absurd rfl (h .steer)
  · exact absurd rfl (h .sense)
  · rfl

/-- An outcome leaves a directory that has no station at the address. -/
theorem applyDirectory_of_none {x : SlotEx} {s : State} (h : stationAt x.addr s = none) (o : ExOutcome) :
    applyDirectory x o s = s := by
  unfold applyDirectory stationFailed
  split
  · split_ifs
    · rfl
    · rw [h]
  · split
    · exact updStation_of_none h _
    · exact updStation_of_none h _
    · rfl

/-- What an outcome applied to the directory leaves of the station loop and of the host link. -/
theorem applyDirectory_keeps (x : SlotEx) (o : ExOutcome) (s : State) :
    (applyDirectory x o s).slc.scan = s.slc.scan ∧ (applyDirectory x o s).slc.slot = s.slc.slot
      ∧ (applyDirectory x o s).slc.run = s.slc.run ∧ (applyDirectory x o s).slc.acq = s.slc.acq
      ∧ (applyDirectory x o s).slc.frameNo = s.slc.frameNo ∧ (applyDirectory x o s).slc.delivery = s.slc.delivery := by
  have moved : ∀ a b c (t : State), OnlyQueuePhase (stationMoved a b c t) t := fun a b c t => (stationMoved_keeps a b c t).2
  unfold applyDirectory stationFailed
  (repeat' split) <;> simp [moved, updStation]

end Sys2Proof.Machine
end

section
/-! SUPPORT. LOOP-SCAN, its probes and its end (R32, R33), and the two requests that join the service queue (R26, R34,
R59). -/

namespace Sys2Proof.Machine

theorem loopNotUp_iff (s : State) : loopNotUp s = true ↔ s.slc.loopState ≠ .up := by
  simp [loopNotUp]

/-! ### LOOP-SCAN and its probes -/

theorem takeLoopScan_eq (tag : Byte) (s : State) : takeLoopScan tag s =
    if s.dsc.gov ≠ .halted then s.turnedAway 0x8D tag .state .notHalted 0
    else if s.slc.loopState ≠ .up then s.turnedAway 0x8D tag .state .loopNotUp (loopCode s.slc.loopState)
    else if s.slc.queue ≠ [] then s.turnedAway 0x8D tag .state .loopBusy 0
    else if s.hli.deferred.isSome then s.turnedAway 0x8D tag .resource .deferBusy 0
    else { s with slc.dir := [], slc.scan := some ⟨1, false, 0, 0, 0⟩, hli.deferred := some ⟨.loopScan, tag⟩ } := by
  have refused : ∀ c d q, refuse 0x0D tag c d q s = s.turnedAway 0x8D tag c d q := fun c d q => refuse_eq (by decide) ..
  simp only [takeLoopScan, loopNotUp_iff, refused]
  rfl

theorem updScan_of_some {c : Scan} {s : State} (h : s.slc.scan = some c) (f : Scan → Scan) :
    updScan f s = { s with slc.scan := some (f c) } := by
  simp [updScan, h]

/-- A probe leaves the scan running, and the exchange slot and the deferred slot as they are. -/
theorem probeEffect_keeps (a : Nat) (h : Heard) (s : State) :
    (probeEffect a h s).slc.scan.isSome = s.slc.scan.isSome ∧ (probeEffect a h s).hli = s.hli := by
  unfold probeEffect
  (repeat' split) <;> simp [updScan]

theorem scanProbe_of_below {a : Nat} (h : a < 47) (hd : Heard) (s : State) : scanProbe a hd s = probeEffect a hd s := by
  rw [scanProbe]
  split
  · rw [if_neg (by omega)]
  · rfl

theorem scanProbe_of_last {a : Nat} (last : 47 ≤ a) {hd : Heard} {s : State} {c : Scan}
    (runs : (probeEffect a hd s).slc.scan = some c) : scanProbe a hd s = scanEnd 0 c (probeEffect a hd s) := by
  rw [scanProbe]
  rw [runs]
  exact if_pos last

/-- A scan probe that completes is applied to the directory, is not counted, and has its effect (R32, R33). -/
theorem complete_probe {x : SlotEx} {s : State} (slot : s.slc.slot = some x) (probe : x.claim = .scan)
    (no_reset : x.afterReset = false) (h : Heard) :
    complete h s = scanProbe x.addr h { applyDirectory x h.outcome s with slc.slot := none } := by
  rw [complete_eq slot, settleReset, if_neg (by simp [no_reset]), claimOutcome, probe]
  simp [heardState, countOutcome, probe]

theorem stationMoved_deferred (addr : Nat) (before after : Station) (s : State) :
    (stationMoved addr before after s).hli.deferred = s.hli.deferred := by
  have grid : (gridStationExcluded addr (latch .stationExcluded s)).hli.deferred = s.hli.deferred := by
    obtain same | aborted := gridStationExcluded_cases addr (latch .stationExcluded s)
    · rw [same]; rfl
    · rw [aborted, (gridAbort_hli_keeps ..).2.2.1]; rfl
  unfold stationMoved
  split_ifs
  · rfl
  · split
    · rfl
    · obtain same | aborted := steerStationExcluded_cases addr (gridStationExcluded addr (latch .stationExcluded s))
      · rw [same, grid]
      · rw [aborted, steerAbort_hli, grid]
    · rfl

theorem applyDirectory_deferred (x : SlotEx) (o : ExOutcome) (s : State) :
    (applyDirectory x o s).hli.deferred = s.hli.deferred := by
  unfold applyDirectory stationFailed
  (repeat' split) <;> simp [stationMoved_deferred]

/-- A row by which the exchange in its slot completes with what it has heard: the slot's end, or a reply. -/
theorem exec_completes {c : Instr} {h : Heard} {x : SlotEx} {s : State} (live : Live s) (slot : s.slc.slot = some x)
    (row : c = .slotTimeout ∧ h = ⟨.noReply, false, 0⟩ ∨ ∃ ws, c = .exchangeComplete ws ∧ heardReply x ws = some h) :
    exec c s = .next (complete h s) := by
  obtain ⟨rfl, rfl⟩ | ⟨ws, rfl, heard⟩ := row
  · exact exec_slotTimeout live
  · exact exec_exchangeComplete live slot heard

/-- Settles O24. -/
theorem loopScanBeginsAndEnrols : Obligations.LoopScanBeginsAndEnrols := by
  refine ⟨?request, ?effect, ?completes⟩
  case request =>
    intro tag s can_take free tag_ne
    rw [exec_take (c := .loopScan tag) rfl can_take tag_ne (by simp) free]
    refine (congrArg Host.Outcome.next (takeLoopScan_eq tag s)).trans ?_
    split_ifs <;> rfl
  case effect =>
    intro a h c s scan other
    refine ⟨fun k taken kind room => ?_, fun k taken kind full => ?_, fun taken unknown => ?_, fun answered => ?_,
      fun silent => ?_⟩
    · simp [probeEffect, taken, kind, kindOfCode_kindCode, room]
    · simp [probeEffect, taken, kind, kindOfCode_kindCode, show ¬ s.slc.dir.length < 32 by omega, updScan_of_some scan]
    · simp [probeEffect, taken, kindOfCode_eq_none unknown, updScan_of_some scan, other]
    · obtain o | o | o := answered <;> simp [probeEffect, o, updScan_of_some scan, other]
    · simp [probeEffect, silent]
  case completes =>
    intro c h k x s live slot probe no_reset scan row v
    rw [exec_completes live slot row, complete_probe slot probe no_reset]
    refine ⟨fun nobody => applyDirectory_of_none nobody _, fun below => by rw [scanProbe_of_below below],
      fun tag last deferred => ?_⟩
    obtain ⟨scan_kept, hli_kept⟩ := probeEffect_keeps x.addr h { applyDirectory x h.outcome s with slc.slot := none }
    have runs : v.slc.scan.isSome = true := by
      rw [scan_kept]; simp [(applyDirectory_keeps x h.outcome s).1, scan]
    obtain ⟨k', runs⟩ := Option.isSome_iff_exists.mp runs
    have held : v.hli.deferred = some ⟨.loopScan, tag⟩ := by
      rw [hli_kept]; exact (applyDirectory_deferred ..).trans deferred
    refine ⟨k', runs, ?_⟩
    rw [scanProbe_of_last last runs, scanEnd,
      deferredReplyOf_of_kind (s := { v with slc.scan := none }) (k := .loopScan) held]
    rfl

/-! ### STATION-REINSTATE and LOOP-EXCHANGE -/

theorem isExcluded_of_station {a : Nat} {s : State} {e : Station} (h : stationAt a s = some e) :
    isExcluded a s = (e.state == .excluded) := by
  rw [isExcluded, h]

theorem takeReinstate_eq (tag addr : Byte) (s : State) :
    let a := addr.toNat
    takeReinstate tag addr s =
      if a < 1 ∨ 47 < a then s.turnedAway 0x8F tag .range .field 1
      else if stationAt a s = none then s.turnedAway 0x8F tag .state .notEnrolled a
      else if isExcluded a s = false then s.turnedAway 0x8F tag .state .notExcluded a
      else if s.slc.loopState ≠ .up then s.turnedAway 0x8F tag .state .loopNotUp (loopCode s.slc.loopState)
      else if s.hli.deferred.isSome then s.turnedAway 0x8F tag .resource .deferBusy 0
      else if 8 ≤ s.slc.queue.length then s.turnedAway 0x8F tag .resource .queueFull 0
      else { s with
        slc.queue := s.slc.queue ++ [⟨.reinstate, a, 7, .read, false, 0, none, false, 0, false⟩]
        hli.deferred := some ⟨.reinstate, tag⟩ } := by
  have refused : ∀ c d q, refuse 0x0F tag c d q s = s.turnedAway 0x8F tag c d q := fun c d q => refuse_eq (by decide) ..
  dsimp only
  unfold takeReinstate
  simp only [loopNotUp_iff, refused]
  cases station : stationAt addr.toNat s with
  | none => simp
  | some e =>
    simp only [isExcluded_of_station station, reduceCtorEq, if_false, beq_eq_false_iff_ne, ne_eq]
    rfl

theorem funcOfCode_of_byte {func : Byte} (h : ¬ 2 < func.toNat) : funcOfCode func.toNat =
    some (if func = 0#8 then .read else if func = 1#8 then .write else .act) := by
  have one_of_three : func = 0#8 ∨ func = 1#8 ∨ func = 2#8 := by bv_omega
  obtain rfl | rfl | rfl := one_of_three <;> rfl

theorem funcOfCode_eq_none : ∀ {n : Nat}, 2 < n → funcOfCode n = none
  | _ + 3, _ => rfl
  | 0, h | 1, h | 2, h => absurd h (by decide)

theorem funcOfCode_isNone_iff (func : Byte) : (funcOfCode func.toNat).isNone = true ↔ 2 < func.toNat := by
  by_cases h : 2 < func.toNat
  · simp [funcOfCode_eq_none h, h]
  · simp [funcOfCode_of_byte h, h]

/-- The fields of a LOOP-EXCHANGE out of range, in payload order (R26; log 46). -/
theorem exchangeField_eq (addr channel func size : Byte) : exchangeField addr channel func size =
    if addr.toNat < 1 ∨ 47 < addr.toNat then some 1
    else if 7 < channel.toNat then some 2
    else if 2 < func.toNat then some 3
    else if size ≠ 16#8 ∧ size ≠ 32#8 then some 4
    else none := by
  have size_iff : (size.toNat ≠ 16 ∧ size.toNat ≠ 32) ↔ (size ≠ 16#8 ∧ size ≠ 32#8) := by bv_omega
  simp only [exchangeField, funcOfCode_isNone_iff, size_iff]

theorem reservedAt_eq (a ch : Nat) (s : State) : reservedAt a ch s = (stationAt a s).any (fun e => reservedChannel e.kind ch) := by
  rw [reservedAt]
  cases stationAt a s <;> rfl

/-- A LOOP-EXCHANGE with its fields in range: the checks on its station, and the item that joins (R26, R59). -/
theorem takeLoopExchange_of_fields {tag addr channel func size : Byte} {data : BitVec 32}
    (fields : exchangeField addr channel func size = none) {f : Func} (hf : funcOfCode func.toNat = some f) (s : State) :
    let a := addr.toNat
    takeLoopExchange tag addr channel func size data s =
      if channel.toNat = 7 ∧ f ≠ .read then s.turnedAway 0x8E tag .range .identityChannel a
      else if (stationAt a s).any (fun e => reservedChannel e.kind channel.toNat) = true then
        s.turnedAway 0x8E tag .range .reservedChannel a
      else if isExcluded a s = true then s.turnedAway 0x8E tag .state .stationExcluded a
      else if (s.dsc.gov = .drive ∨ s.dsc.gov = .safeHold) ∧ f ≠ .read ∧ boundToOutput a s = true then
        s.turnedAway 0x8E tag .state .outputBound a
      else if s.hli.deferred.isSome then s.turnedAway 0x8E tag .resource .deferBusy 0
      else if 8 ≤ s.slc.queue.length then s.turnedAway 0x8E tag .resource .queueFull 0
      else { s with
        slc.queue := s.slc.queue ++ [exchangeItem a channel.toNat f (size.toNat == 32) data]
        hli.deferred := some ⟨.loopExchange, tag⟩ } := by
  have refused : ∀ c d q, refuse 0x0E tag c d q s = s.turnedAway 0x8E tag c d q := fun c d q => refuse_eq (by decide) ..
  simp only [takeLoopExchange, fields, hf, Option.getD_some, reservedAt_eq, refused]
  rfl

/-- Settles O25. -/
theorem queuedRequestsCheckInOrder : Obligations.QueuedRequestsCheckInOrder := by
  refine ⟨?reinstate, ?exchange⟩
  case reinstate =>
    intro tag addr s can_take free tag_ne a
    rw [exec_take (c := .stationReinstate tag addr) rfl can_take tag_ne (by simp) free]
    refine (congrArg Host.Outcome.next (takeReinstate_eq tag addr s)).trans ?_
    split_ifs <;> rfl
  case exchange =>
    intro tag addr channel func size data s can_take free tag_ne a d
    rw [exec_take (c := .loopExchange tag addr channel func size data) rfl can_take tag_ne (by simp) free]
    show Host.Outcome.next (takeLoopExchange tag addr channel func size data s) = _
    have field := exchangeField_eq addr channel func size
    have out_of_range : ∀ n, exchangeField addr channel func size = some n →
        Host.Outcome.next (takeLoopExchange tag addr channel func size data s) =
          (.next (s.turnedAway 0x8E tag .range .field n) : Host.Outcome State Fault Refusal) := fun n bad => by
      rw [takeLoopExchange, bad]
      exact congrArg _ (refuse_eq (by decide) ..)
    by_cases h1 : a < 1 ∨ 47 < a
    · rw [if_pos h1, out_of_range 1 (by rw [field, if_pos h1])]
    by_cases h2 : 7 < channel.toNat
    · rw [if_neg h1, if_pos h2, out_of_range 2 (by rw [field, if_neg h1, if_pos h2])]
    by_cases h3 : 2 < func.toNat
    · rw [if_neg h1, if_neg h2, if_pos h3, out_of_range 3 (by rw [field, if_neg h1, if_neg h2, if_pos h3])]
    by_cases h4 : size ≠ 16#8 ∧ size ≠ 32#8
    · rw [if_neg h1, if_neg h2, if_neg h3, if_pos h4,
        out_of_range 4 (by rw [field, if_neg h1, if_neg h2, if_neg h3, if_pos h4])]
    rw [if_neg h1, if_neg h2, if_neg h3, if_neg h4] at field ⊢
    have read_iff : (if func = 0#8 then Func.read else if func = 1#8 then .write else .act) ≠ .read ↔ func ≠ 0#8 := by
      split_ifs <;> simp_all
    have channel_iff : channel.toNat = 7 ↔ channel = 7#8 := by bv_omega
    have size_eq : (size.toNat == 32) = (size == 32#8) := by
      rw [Bool.eq_iff_iff, beq_iff_eq, beq_iff_eq]; bv_omega
    have data_eq : (if (if func = 0#8 then Func.read else if func = 1#8 then .write else .act) = .read then 0
        else if (size == 32#8) = true then data.toNat else data.toNat % 65536) = d := by
      simp only [beq_iff_eq, d]
      split_ifs <;> simp_all
    rw [takeLoopExchange_of_fields field (funcOfCode_of_byte h3)]
    simp only [read_iff, channel_iff, exchangeItem, size_eq, data_eq]
    split_ifs <;> rfl

end Sys2Proof.Machine
end

section
/-! SUPPORT. GOVERNOR-RESET (R20): its steps one after the other, the messages they queue, and the exchange it leaves in its
slot (R38). -/

namespace Sys2Proof.Machine

/-! ### The steps of a governor reset -/

/-- The state once the deferred request has been answered and the checks have ended (R20, steps 1 and 2). -/
def resetEnded (s : State) : State :=
  steerReset (gridAbort .reset (deferredReply (.refused .fault .aborted 1) s))

theorem takeGovernorReset_eq (tag : Byte) (s : State) : takeGovernorReset tag s =
    (blocksReset (dscReset (cancelInjections (resetEnded s)))).answered 0x9B tag [] :=
  done_eq (by decide) ..

theorem deferredReply_hli (b : Body) (s : State) : (deferredReply b s).hli = { s.hli with
    tx := s.hli.tx ++ (s.hli.deferred.map (fun d => Msg.reply true (replyKind d.kind.code) d.tag b)).toList
    deferred := none } := by
  cases h : s.hli.deferred with
  | none => simp only [deferredReply, h, Option.map_none, Option.toList_none, List.append_nil]; rw [← h]
  | some d => simp [deferredReply_of_some h]

theorem dscReset_dsc (s : State) : (dscReset s).dsc = Dsc.initial s.dsc.stopLine := by
  by_cases h : s.dsc.gov = .halted <;> simp [dscReset, h, Dsc.initial]

theorem dscReset_tx (s : State) : (dscReset s).hli.tx = s.hli.tx ++
    if s.dsc.gov = .halted then [] else sentNotice (.state s.dsc.gov .halted .governorReset) s.hli := by
  by_cases h : s.dsc.gov = .halted <;> simp [dscReset, h, changeState, notify_tx]

theorem dscReset_hli_keeps (s : State) : (dscReset s).hli.stored = s.hli.stored ∧ (dscReset s).hli.force = s.hli.force
    ∧ (dscReset s).hli.cursor = s.hli.cursor ∧ (dscReset s).hli.deferred = s.hli.deferred := by
  by_cases h : s.dsc.gov = .halted <;> simp [dscReset, h, changeState]

@[simp] theorem dscReset_frame (s : State) : OnlyDscHli (dscReset s) s := by
  by_cases h : s.dsc.gov = .halted <;> simp [dscReset, h]

@[simp] theorem cancelInjections_frame (s : State) : OnlyImn (cancelInjections s) s := by
  simp [cancelInjections]

/-- The governor-reset values of the blocks (R20, step 4). -/
theorem blocksReset_fields (s : State) :
    (blocksReset s).dsc = s.dsc ∧ (blocksReset s).hli = s.hli ∧ (blocksReset s).rgv.check = s.rgv.check
      ∧ (blocksReset s).sgv = { Sgv.initial with run := s.sgv.run, isolation := s.sgv.isolation, result := s.sgv.result }
      ∧ (blocksReset s).epu = { Epu.initial with haul := s.epu.haul } ∧ (blocksReset s).tal = .initial
      ∧ (blocksReset s).sgs.screen = s.sgs.screen ∧ (blocksReset s).trc = { s.trc with st := .idle, find := none } := by
  simp [blocksReset, haltEffects_fields, sgvInitial, rgvInitial, resetOutputs, haltImage_sgs, stopFrames, holdOff]

/-- The station loop at a governor reset (R38): the queues and the scan are gone, and an exchange in its slot completes
before the directory takes its values. -/
theorem blocksReset_slc (s : State) :
    (blocksReset s).slc = { (stopFrames s).slc with
      dir := if s.slc.slot.isSome then s.slc.dir else s.slc.dir.map (·.governorReset)
      slot := (s.slc.slot.map orphanPass).map (·.governorReset (headIsProbe s))
      queue := [], held := [], scan := none, posting := none, delivery := [] } := by
  simp [blocksReset, haltEffects_fields, sgvInitial, rgvInitial, resetOutputs, stopFrames, headIsProbe]

theorem steerReset_sgv (s : State) : (steerReset s).sgv.run = none ∧ (steerReset s).sgv.isolation = s.sgv.isolation
    ∧ (steerReset s).sgv.result = match s.sgv.run with
      | some r => ⟨.aborted, .reset, r.init, r.final, s.slc.frameNo, s.sgv.isolation⟩
      | none => s.sgv.result := by
  cases run : s.sgv.run with
  | none => simp [steerReset_of_idle run, run]
  | some r => simp [steerReset_of_run run, steerEnd_sgv]

@[simp] theorem steerReset_slc (s : State) : (steerReset s).slc = s.slc := by
  cases run : s.sgv.run with
  | none => rw [steerReset_of_idle run]
  | some r => simp [steerReset_of_run run, steerEnd]

theorem steerReset_hli_keeps (s : State) : (steerReset s).hli.stored = s.hli.stored ∧ (steerReset s).hli.force = s.hli.force
    ∧ (steerReset s).hli.cursor = s.hli.cursor ∧ (steerReset s).hli.deferred = s.hli.deferred := by
  cases run : s.sgv.run with
  | none => simp [steerReset_of_idle run]
  | some r => simp [steerReset_of_run run, steerEnd]

/-- What the ends of step 1 and step 2 leave as it was. -/
theorem resetEnded_keeps (s : State) :
    (resetEnded s).dsc = s.dsc ∧ (resetEnded s).epu = s.epu ∧ (resetEnded s).sgs = s.sgs ∧ (resetEnded s).trc = s.trc
      ∧ OnlyQueuePhase (resetEnded s) s ∧ (resetEnded s).hli.stored = s.hli.stored
      ∧ (resetEnded s).hli.force = s.hli.force ∧ (resetEnded s).hli.cursor = s.hli.cursor
      ∧ (resetEnded s).hli.deferred = none := by
  obtain ⟨steer_stored, steer_force, steer_cursor, steer_deferred⟩ :=
    steerReset_hli_keeps (gridAbort .reset (deferredReply (.refused .fault .aborted 1) s))
  obtain ⟨grid_force, grid_stored, grid_deferred, grid_cursor, -⟩ :=
    gridAbort_hli_keeps .reset (deferredReply (.refused .fault .aborted 1) s)
  simp only [resetEnded, steer_stored, steer_force, steer_cursor, steer_deferred, grid_force, grid_stored, grid_deferred,
    grid_cursor, deferredReply_hli]
  simp

theorem resetEnded_checks (s : State) :
    (resetEnded s).rgv.check.run = none
      ∧ (∀ r, s.rgv.check.run = some r → (resetEnded s).rgv.check.last = r.abortedAt .reset s.slc.frameNo)
      ∧ (resetEnded s).sgv.run = none ∧ (resetEnded s).sgv.isolation = s.sgv.isolation
      ∧ (∀ r, s.sgv.run = some r →
          (resetEnded s).sgv.result = ⟨.aborted, .reset, r.init, r.final, s.slc.frameNo, s.sgv.isolation⟩)
      ∧ (s.sgv.run = none → (resetEnded s).sgv.result = s.sgv.result) := by
  obtain ⟨run, isolation, result⟩ := steerReset_sgv (gridAbort .reset (deferredReply (.refused .fault .aborted 1) s))
  refine ⟨by simp [resetEnded], fun r grid => ?_, run, isolation.trans (by simp), fun r steer => ?_, fun idle => ?_⟩
  · have same : (resetEnded s).rgv = (gridAbort .reset (deferredReply (.refused .fault .aborted 1) s)).rgv := by
      simp [resetEnded]
    have run' : (deferredReply (.refused .fault .aborted 1) s).rgv.check.run = some r := by simp [grid]
    rw [same, gridAbort_last run']
    simp
  · rw [resetEnded, result]; simp [steer]
  · rw [resetEnded, result]; simp [idle]

/-! ### Its messages -/

/-- The notices a governor reset makes, in the order of its steps. -/
def resetNotices (s : State) : List Notice :=
  (if s.rgv.check.run.isSome then [.proc 1 3 .reset s.slc.frameNo] else [])
    ++ (if s.sgv.run.isSome then [.proc 2 3 .reset s.slc.frameNo] else [])
    ++ (if s.dsc.gov = .halted then [] else [.state s.dsc.gov .halted .governorReset])

/-- What a step queues of its own notice, if it makes one: the notice or nothing, and the notice where there is room. -/
theorem sentIf_eq_map (b : Bool) (n : Notice) (h : Hli) : ∃ sent : List Notice,
    (if b then sentNotice n h else []) = sent.map Msg.notice ∧ sent.Sublist (if b then [n] else [])
      ∧ sent.length ≤ 1
      ∧ (h.force.noticeMask.testBit n.maskBit = true → h.tx.countP (·.isNotice) < 6 → sent = if b then [n] else []) := by
  cases b with
  | false => exact ⟨[], by simp⟩
  | true =>
    obtain sends | drops := sentNotice_cases n h
    · exact ⟨[n], by simp [sends]⟩
    · refine ⟨[], by simp [drops], by simp, by simp, fun mask room => ?_⟩
      rw [sentNotice_of_room mask room] at drops
      simp at drops

theorem countP_notice_map (l : List Notice) : (l.map Msg.notice).countP (·.isNotice) = l.length := by
  induction l with
  | nil => rfl
  | cons n l ih => rw [List.map_cons, List.countP_cons, ih]; rfl

/-- The messages of a governor reset: the ABORTED reply, the notices of its steps as there is room for them, the DONE
reply. -/
theorem takeGovernorReset_tx (tag : Byte) (s : State) : ∃ sent : List Notice,
    (takeGovernorReset tag s).hli.tx = s.hli.tx
      ++ (s.hli.deferred.map (fun d => Msg.reply true (replyKind d.kind.code) d.tag (.refused .fault .aborted 1))).toList
      ++ sent.map Msg.notice ++ [.reply false 0x9B tag (.done [])]
    ∧ sent.Sublist (resetNotices s)
    ∧ (s.hli.force.noticeMask.testBit 0 = true → s.hli.force.noticeMask.testBit 3 = true →
        s.hli.tx.countP (·.isNotice) ≤ 3 → sent = resetNotices s) := by
  let answered := deferredReply (.refused .fault .aborted 1) s
  let aborted := (s.hli.deferred.map (fun d => Msg.reply true (replyKind d.kind.code) d.tag (.refused .fault .aborted 1))).toList
  have answered_tx : answered.hli.tx = s.hli.tx ++ aborted := by simp [answered, deferredReply_hli, aborted]
  have answered_force : answered.hli.force = s.hli.force := by simp [answered, deferredReply_hli]
  have no_notice : aborted.countP (·.isNotice) = 0 := by
    cases h : s.hli.deferred <;> simp [aborted, h, Msg.isNotice]
  obtain ⟨g, g_tx, g_sub, g_len, g_all⟩ :=
    sentIf_eq_map s.rgv.check.run.isSome (.proc 1 3 .reset s.slc.frameNo) answered.hli
  have grid_tx : (gridAbort .reset answered).hli.tx = s.hli.tx ++ aborted ++ g.map Msg.notice := by
    rw [gridAbort_tx, answered_tx, ← g_tx]; simp [answered]
  have grid_force : (gridAbort .reset answered).hli.force = s.hli.force := (gridAbort_hli_keeps ..).1.trans answered_force
  obtain ⟨v, v_tx, v_sub, v_len, v_all⟩ :=
    sentIf_eq_map s.sgv.run.isSome (.proc 2 3 .reset s.slc.frameNo) (gridAbort .reset answered).hli
  have ended_tx : (resetEnded s).hli.tx = s.hli.tx ++ aborted ++ g.map Msg.notice ++ v.map Msg.notice := by
    rw [resetEnded, steerReset_tx, grid_tx, ← v_tx]; simp [answered]
  have ended_force : (resetEnded s).hli.force = s.hli.force := (steerReset_hli_keeps ..).2.1.trans grid_force
  obtain ⟨n, n_tx, n_sub, -, n_all⟩ :=
    sentIf_eq_map (decide (s.dsc.gov ≠ .halted)) (.state s.dsc.gov .halted .governorReset) (resetEnded s).hli
  have state_if : ∀ (α : Type) (x y : α), (if decide (s.dsc.gov ≠ .halted) = true then x else y) =
      if s.dsc.gov = .halted then y else x := fun α x y => by by_cases h : s.dsc.gov = .halted <;> simp [h]
  rw [state_if] at n_tx n_sub n_all
  have all_tx : (takeGovernorReset tag s).hli.tx =
      s.hli.tx ++ aborted ++ (g ++ v ++ n).map Msg.notice ++ [.reply false 0x9B tag (.done [])] := by
    have dsc : (cancelInjections (resetEnded s)).dsc = s.dsc := by simp [(resetEnded_keeps s).1]
    rw [takeGovernorReset_eq]
    show (blocksReset _).hli.tx ++ _ = _
    rw [(blocksReset_fields _).2.1, dscReset_tx, dsc]
    simp [n_tx, ended_tx]
  refine ⟨g ++ v ++ n, all_tx, (g_sub.append v_sub).append n_sub, fun state_kind proc_kind room => ?_⟩
  have g_eq := g_all (by rw [answered_force]; exact proc_kind) (by rw [answered_tx, List.countP_append]; omega)
  have v_eq := v_all (by rw [grid_force]; exact proc_kind)
    (by simp only [grid_tx, List.countP_append, countP_notice_map]; omega)
  have n_eq := n_all (by rw [ended_force]; exact state_kind)
    (by simp only [ended_tx, List.countP_append, countP_notice_map]; omega)
  rw [g_eq, v_eq, n_eq, resetNotices]

/-! ### The exchange left in its slot (R38; log 11) -/

theorem countOutcome_keeps (x : SlotEx) (o : ExOutcome) (s : State) :
    (countOutcome x o s).slc = s.slc ∧ (countOutcome x o s).hli.flags = s.hli.flags := by
  unfold countOutcome
  (repeat' split) <;> simp

/-- An exchange that nobody waits for any more is applied to the directory, which then takes its governor-reset values. -/
theorem complete_orphan {x : SlotEx} {s : State} (slot : s.slc.slot = some x) (nobody : x.claim = .orphan)
    (reset : x.afterReset = true) (h : Heard) :
    (complete h s).slc.slot = none
      ∧ (complete h s).slc.dir = (applyDirectory x h.outcome s).slc.dir.map Station.governorReset
      ∧ (complete h s).hli.flags = (applyDirectory x h.outcome s).hli.flags := by
  obtain ⟨slc, flags⟩ := countOutcome_keeps x h.outcome (applyDirectory x h.outcome s)
  rw [complete_eq slot, settleReset, if_pos reset, claimOutcome, nobody]
  simp [heardState, slc, flags]

/-- A slot that ends with no reply is a failure of its station. -/
theorem applyDirectory_noReply {x : SlotEx} {st : Station} {s : State} (station : stationAt x.addr s = some st) :
    applyDirectory x .noReply s = stationMoved x.addr st ((st.fail .noReply).judge s.hli.force)
      (updStation x.addr (fun _ => (st.fail .noReply).judge s.hli.force) s) := by
  simp [applyDirectory, failKindOf, stationFailed, station]

/-- Settles O19. -/
theorem governorResetKeepsTablesAndSettings : Obligations.GovernorResetKeepsTablesAndSettings := by
  have taken : ∀ {tag : Byte} {s : State}, CanTake s → tag ≠ 0#8 →
      exec (.governorReset tag) s = .next (takeGovernorReset tag s) := fun {tag s} can_take tag_ne =>
    exec_take (c := .governorReset tag) rfl can_take tag_ne (by simp) (.inr rfl)
  refine ⟨⟨?values, ?exchange⟩, ?messages⟩
  case values =>
    intro tag s can_take tag_ne
    refine ⟨takeGovernorReset tag s, taken can_take tag_ne, ?_⟩
    obtain ⟨sent, tx, -⟩ := takeGovernorReset_tx tag s
    obtain ⟨ended_dsc, ended_epu, ended_sgs, ended_trc, ended_slc, stored, force, cursor, deferred⟩ := resetEnded_keeps s
    obtain ⟨loopState, -, dir, acq, -, frameNo, -, -, -, -, -, -, slot, -⟩ := ended_slc
    obtain ⟨no_grid, -, no_steer, -⟩ := resetEnded_checks s
    let before := dscReset (cancelInjections (resetEnded s))
    have before_slc : before.slc = (resetEnded s).slc := by simp [before]
    have before_sgs : before.sgs = s.sgs := by simp [before, ended_sgs]
    have before_trc : before.trc = s.trc := by simp [before, ended_trc]
    obtain ⟨b_dsc, b_hli, b_check, b_sgv, b_epu, b_tal, b_screen, b_trc⟩ := blocksReset_fields before
    have b_slc := blocksReset_slc before
    obtain ⟨d_stored, d_force, d_cursor, d_deferred⟩ := dscReset_hli_keeps (cancelInjections (resetEnded s))
    have t_eq := takeGovernorReset_eq tag s
    have hli_of : ∀ {α : Type} (f : Hli → α), (∀ h m, f { h with tx := m } = f h) →
        f (takeGovernorReset tag s).hli = f before.hli := fun f keeps => by
      rw [t_eq]; exact (keeps _ _).trans (congrArg f b_hli)
    have slc_of : (takeGovernorReset tag s).slc = _ := (congrArg State.slc t_eq).trans b_slc
    refine ⟨?_, ?_, ?_, ?_, by rw [slc_of]; rfl, ?_, ?_, by rw [slc_of], by rw [slc_of], by rw [slc_of], by rw [slc_of], ?_,
      fun empty => ?_, fun x full => ?_, ?_, ?_, ?_, ?_, ?_, ?_, ?_, ?_, ?_, by rw [tx]; simp⟩
    · exact (congrArg State.dsc t_eq).trans (b_dsc.trans (by simp [before, dscReset_dsc, ended_dsc]))
    · rw [hli_of Hli.deferred (fun _ _ => rfl)]; exact d_deferred.trans deferred
    · exact (congrArg (·.rgv.check.run) t_eq).trans ((congrArg (·.run) b_check).trans (by simpa [before] using no_grid))
    · exact (congrArg (·.sgv.run) t_eq).trans ((congrArg (·.run) b_sgv).trans (by simpa [before] using no_steer))
    · exact (congrArg State.epu t_eq).trans (b_epu.trans (by simp [before, ended_epu]))
    · exact (congrArg State.tal t_eq).trans b_tal
    · exact (congrArg (·.trc.st) t_eq).trans (congrArg (·.st) b_trc)
    · rw [slc_of, before_slc, slot.trans empty, dir]; exact ⟨rfl, rfl⟩
    · rw [slc_of, before_slc, slot.trans full, dir]; exact ⟨rfl, _, rfl, rfl⟩
    · rw [slc_of]; simp [stopFrames, before_slc, acq]
    · exact (congrArg (·.sgs.screen) t_eq).trans (b_screen.trans (congrArg (·.screen) before_sgs))
    · exact (congrArg (·.trc.recset) t_eq).trans ((congrArg (·.recset) b_trc).trans (congrArg (·.recset) before_trc))
    · exact (congrArg (·.trc.ring) t_eq).trans ((congrArg (·.ring) b_trc).trans (congrArg (·.ring) before_trc))
    · rw [hli_of Hli.stored (fun _ _ => rfl)]; exact d_stored.trans stored
    · rw [hli_of Hli.force (fun _ _ => rfl)]; exact d_force.trans force
    · rw [hli_of Hli.cursor (fun _ _ => rfl)]; exact d_cursor.trans cursor
    · rw [slc_of]; simp [stopFrames, before_slc, frameNo]
    · rw [slc_of]; simp [stopFrames, before_slc, loopState]
  case exchange =>
    intro x st s live slot reset nobody station free
    let e' := (st.fail .noReply).judge s.hli.force
    have streak : (st.fail .noReply).streak = if st.streak < 255 then st.streak + 1 else 255 := rfl
    have here : ∀ e : Station, e.addr = x.addr → e'.addr = x.addr := fun _ _ => by
      simp only [e']; rw [Station.judge_eq]; show st.addr = x.addr; exact addr_of_stationAt station
    obtain ⟨slot', dir', flags'⟩ := complete_orphan slot nobody reset (.bare .noReply)
    have moved := applyDirectory_noReply station
    obtain ⟨-, -, -, same_dir, -⟩ := stationMoved_keeps x.addr st e' (updStation x.addr (fun _ => e') s)
    have after : ∀ b, stationAt b (complete (.bare .noReply) s) =
        (stationAt b (updStation x.addr (fun _ => e') s)).map Station.governorReset := fun b => by
      rw [stationAt_of_map (g := Station.governorReset) (fun _ => rfl) dir']
      exact congrArg _ ((congrArg _ moved).trans (stationAt_of_dir same_dir b))
    refine ⟨_, exec_slotTimeout live, slot', fun b ne => ?_, fun reaches => ?_, fun below => ?_⟩
    · rw [after, stationAt_updStation_other ne s here]; rfl
    · have excluded : e' = { st.fail .noReply with state := .excluded } := Station.judge_of_exclude free (streak ▸ reaches)
      refine ⟨?_, ?_⟩
      · rw [after, stationAt_updStation_same station here, excluded]; rfl
      · have latched : standing .stationExcluded (applyDirectory x .noReply s) = true := by
          rw [moved]
          exact stationMoved_excluded (by show st.state ≠ e'.state; rw [excluded]; exact free) (by show e'.state = _; rw [excluded]) ..
        exact keepsFlags_of_flags flags' _ latched
    · have not_excluded : e'.state = .enrolled ∨ e'.state = .suspect := by
        have low : (st.fail .noReply).streak < s.hli.force.streakExclude := streak ▸ below
        cases state : st.state with
        | excluded => exact absurd state free
        | suspect =>
          right
          rw [show e' = st.fail .noReply from Station.judge_of_below low (.inr (by simp [Station.fail, state]))]
          exact state
        | enrolled =>
          by_cases suspect : s.hli.force.streakSuspect ≤ (st.fail .noReply).streak
          · exact .inr (by rw [show e' = _ from Station.judge_of_suspect (e := st.fail .noReply) state low suspect])
          · left
            rw [show e' = st.fail .noReply from Station.judge_of_below low (.inl (by omega))]
            exact state
      rw [after, stationAt_updStation_same station here]
      obtain enrolled | suspect := not_excluded
      · simp [Station.governorReset, enrolled]
      · simp [Station.governorReset, suspect]
  case messages =>
    intro tag s can_take tag_ne n aborted notices
    obtain ⟨sent, tx, sub, all⟩ := takeGovernorReset_tx tag s
    obtain ⟨-, last, -, isolation, aborts, keeps⟩ := resetEnded_checks s
    let before := dscReset (cancelInjections (resetEnded s))
    obtain ⟨-, -, b_check, b_sgv, -⟩ := blocksReset_fields before
    have t_eq := takeGovernorReset_eq tag s
    have check : (takeGovernorReset tag s).rgv.check = (resetEnded s).rgv.check :=
      (congrArg (·.rgv.check) t_eq).trans (b_check.trans (by simp [before]))
    have result : (takeGovernorReset tag s).sgv.result = (resetEnded s).sgv.result :=
      (congrArg (·.sgv.result) t_eq).trans ((congrArg (·.result) b_sgv).trans (by simp [before]))
    have mark : (takeGovernorReset tag s).sgv.isolation = (resetEnded s).sgv.isolation :=
      (congrArg (·.sgv.isolation) t_eq).trans ((congrArg (·.isolation) b_sgv).trans (by simp [before]))
    refine ⟨takeGovernorReset tag s, sent, taken can_take tag_ne, ?_, sub, all, fun r run => by rw [check, last r run],
      fun r run => by rw [result, aborts r run], fun idle => by rw [result, keeps idle], by rw [mark, isolation]⟩
    rw [tx]
    cases deferred : s.hli.deferred with
    | none => simp [aborted, deferred]
    | some d =>
      have kind : replyKind d.kind.code = d.kind.code + 0x80#8 := by cases d.kind <;> rfl
      simp [aborted, deferred, kind]

end Sys2Proof.Machine
end

section
/-! The grid element check starts and stops (R139, R143, R144). -/

namespace Sys2Proof.Machine

/-! ### GRID-CHECK-START (R139; log 52) -/

/-- The first named chopper station that is EXCLUDED, grid A's ahead of grid B's. -/
theorem excludedChopper_eq (gs : Grids) (s : State) : excludedChopper gs s =
    if gs.has .a = true ∧ isExcluded (chopperOf .a s) s = true then some (chopperOf .a s)
    else if gs.has .b = true ∧ isExcluded (chopperOf .b s) s = true then some (chopperOf .b s)
    else none := by
  cases ha : isExcluded (chopperOf .a s) s <;> cases hb : isExcluded (chopperOf .b s) s <;> cases gs <;>
    simp [excludedChopper, Grids.has, ha, hb]

/-- A start with its grids named: the checks in their order, and the run that starts. -/
theorem takeGridCheckStart_of_grids {grid : Byte} {gs : Grids} (named : gridsOfCode grid.toNat = some gs) (tag : Byte)
    (s : State) : takeGridCheckStart tag grid s =
      if s.dsc.gov ≠ .standby then s.turnedAway 0x90 tag .state .notStandby (govCode s.dsc.gov)
      else if atRest s = false then s.turnedAway 0x90 tag .state .notAtRest 0
      else if s.dsc.stopLine then s.turnedAway 0x90 tag .state .stopAsserted 0
      else if s.rgv.check.run.isSome then s.turnedAway 0x90 tag .state .procRunning 1
      else if s.hli.force.serviceBudget = 0 then s.turnedAway 0x90 tag .state .noServiceBudget 5
      else if s.slc.loopState ≠ .up then s.turnedAway 0x90 tag .state .loopNotUp (loopCode s.slc.loopState)
      else if gs.has .a = true ∧ isExcluded (chopperOf .a s) s = true then
        s.turnedAway 0x90 tag .state .stationExcluded (chopperOf .a s)
      else if gs.has .b = true ∧ isExcluded (chopperOf .b s) s = true then
        s.turnedAway 0x90 tag .state .stationExcluded (chopperOf .b s)
      else (joinItem (gridItem ((startedRun gs s).addr (startedRun gs s).grid) 0 .act)
        { s with rgv.check.run := some (startedRun gs s) }).answered 0x90 tag [] := by
  have refused : ∀ d q, refuse 0x10 tag .state d q s = s.turnedAway 0x90 tag .state d q := fun d q => refuse_eq (by decide) ..
  have answered : ∀ t : State, done 0x10 tag [] t = t.answered 0x90 tag [] := fun t => done_eq (by decide) ..
  simp only [takeGridCheckStart, named, refused, answered, loopNotUp_iff, Bool.not_eq_true', excludedChopper_eq]
  split_ifs <;> rfl

theorem takeGridCheckStart_of_no_grids {grid : Byte} (not_named : gridsOfCode grid.toNat = none) (tag : Byte) (s : State) :
    takeGridCheckStart tag grid s = s.turnedAway 0x90 tag .range .field 1 := by
  rw [takeGridCheckStart, not_named]
  exact refuse_eq (by decide) ..

theorem gridsOfCode_of_byte {grid : Byte} (h1 : grid ≠ 1#8) (h2 : grid ≠ 2#8) (h3 : grid ≠ 3#8) :
    gridsOfCode grid.toNat = none := by
  have : grid.toNat ≠ 1 := by bv_omega
  have : grid.toNat ≠ 2 := by bv_omega
  have : grid.toNat ≠ 3 := by bv_omega
  unfold gridsOfCode
  split <;> simp_all

/-! ### What an abort of the check leaves in the queue (R58, R143) -/

/-- None of the claimant's items stays held, nor in the queue when its head is not in the slot. -/
theorem removeItems_not_mine (c : Claimant) (s : State) :
    (∀ it ∈ (removeItems c s).slc.held, it.claimant ≠ c)
      ∧ (headInSlot s = false → ∀ it ∈ (removeItems c s).slc.queue, it.claimant ≠ c) := by
  have held : ∀ it ∈ s.slc.held.filter (fun it => !(it.claimant == c)), it.claimant ≠ c := fun it h => by
    simpa using (List.mem_filter.1 h).2
  refine ⟨fun it h => held it (List.mem_of_mem_drop (by simpa [removeItems, joinHeld] using h)), fun not_head it h => ?_⟩
  simp only [removeItems, joinHeld, not_head, List.mem_append] at h
  obtain h | h := h
  · simpa using (List.mem_filter.1 h).2
  · exact held it (List.mem_of_mem_take h)

/-- The end of the service pass: a pass between two slots, with slots left, ends where its queue is empty. -/
theorem endService_phase (s : State) :
    (s.slc.phase = .service → s.slc.slot = none → s.slc.slots < s.hli.force.serviceBudget →
        (endService s).slc.phase = if s.slc.queue = [] then .done else .service)
      ∧ (s.slc.phase ≠ .service ∨ s.slc.slot ≠ none → (endService s).slc.phase = s.slc.phase) := by
  refine ⟨fun service no_slot slots => ?_, fun other => ?_⟩
  · have : ¬ s.hli.force.serviceBudget ≤ s.slc.slots := by omega
    by_cases empty : s.slc.queue = [] <;> simp [endService, service, no_slot, empty, this]
  · have stays : ¬ (s.slc.phase = .service ∧ s.slc.slot.isNone ∧
        (s.slc.queue.isEmpty ∨ s.hli.force.serviceBudget ≤ s.slc.slots)) := by
      rintro ⟨service, no_slot, -⟩
      rcases other with h | h
      · exact h service
      · exact h (Option.isNone_iff_eq_none.1 no_slot)
    rw [endService, if_neg stays]

theorem gridAbort_rgv {r : GridRun} {s : State} (run : s.rgv.check.run = some r) (c : ProcCause) :
    (gridAbort c s).rgv = { s.rgv with check := { s.rgv.check with
      run := none, last := r.abortedAt c s.slc.frameNo } } := by
  simp [gridAbort_of_run run]

theorem gridAbort_slc {r : GridRun} {s : State} (run : s.rgv.check.run = some r) (c : ProcCause) :
    (gridAbort c s).slc = (endService (removeItems .gridCheck s)).slc := by
  simp [gridAbort_of_run run]

theorem eq_of_onlySlcRgvHli {t s : State} (frame : OnlySlcRgvHli t s) (slc_frame : OnlyQueuePhase t s) :
    { t with
      rgv := s.rgv, hli := s.hli, slc.queue := s.slc.queue, slc.held := s.slc.held, slc.phase := s.slc.phase } = s := by
  simp only [OnlySlcRgvHli] at frame
  simp only [OnlyQueuePhase] at slc_frame
  simp only [frame, slc_frame]

/-- Settles O51. -/
theorem gridCheckStartsAndStops : Obligations.GridCheckStartsAndStops := by
  refine ⟨?start, ?stop⟩
  case start =>
    intro tag grid s can_take tag_ne no begun
    rw [exec_take (c := .gridCheckStart tag grid) rfl can_take tag_ne (by simp) (.inr rfl)]
    show Host.Outcome.next (takeGridCheckStart tag grid s) = _
    by_cases named : grid ≠ 1#8 ∧ grid ≠ 2#8 ∧ grid ≠ 3#8
    · obtain ⟨h1, h2, h3⟩ := named
      rw [if_pos ⟨h1, h2, h3⟩, takeGridCheckStart_of_no_grids (gridsOfCode_of_byte h1 h2 h3)]
    rw [if_neg named]
    have reply := fun gs (h : gridsOfCode grid.toNat = some gs) =>
      congrArg (Host.Outcome.next (φ := Fault) (ρ := Refusal)) (takeGridCheckStart_of_grids h tag s)
    have ne : 1#8 ≠ 2#8 ∧ 2#8 ≠ 1#8 ∧ 3#8 ≠ 1#8 ∧ 3#8 ≠ 2#8 := by decide
    obtain ⟨h12, h21, h31, h32⟩ := ne
    obtain rfl | rfl | rfl : grid = 1#8 ∨ grid = 2#8 ∨ grid = 3#8 := by tauto
    · rw [reply .a rfl]
      simp only [apply_ite Host.Outcome.next, Grids.has, h12, ne_eq, not_true, not_false_eq_true, true_and, false_and,
        if_false, if_true, Bool.false_eq_true]
      rfl
    · rw [reply .b rfl]
      simp only [apply_ite Host.Outcome.next, Grids.has, h21, ne_eq, not_true, not_false_eq_true, true_and, false_and,
        if_false, if_true, Bool.false_eq_true]
      rfl
    · rw [reply .both rfl]
      simp only [apply_ite Host.Outcome.next, Grids.has, h31, h32, ne_eq, not_false_eq_true, true_and, if_false]
      rfl
  case stop =>
    intro tag s can_take tag_ne
    have taken : exec (.gridCheckStop tag) s = .next (takeGridCheckStop tag s) :=
      exec_take (c := .gridCheckStop tag) rfl can_take tag_ne (by simp) (.inr rfl)
    refine ⟨fun idle => ?_, fun r run => ?_⟩
    · rw [taken, takeGridCheckStop, idle]
      exact congrArg _ (refuse_eq (by decide) ..)
    · have stopped : takeGridCheckStop tag s = (gridAbort .requested s).answered 0x91 tag [] := by
        rw [takeGridCheckStop, run]
        exact done_eq (by decide) ..
      have slc : (takeGridCheckStop tag s).slc = (endService (removeItems .gridCheck s)).slc := by
        rw [stopped]; exact gridAbort_slc run _
      obtain ⟨-, queue, held⟩ := endService_keeps (removeItems .gridCheck s)
      obtain ⟨held_not, queue_not⟩ := removeItems_not_mine .gridCheck s
      obtain ⟨ends, stays⟩ := endService_phase (removeItems .gridCheck s)
      refine ⟨_, taken, ?_, ?_, ?_, fun no_slot => ?_, fun service no_slot slots => ?_, fun other => ?_, ?_⟩
      · rw [stopped]; exact gridAbort_rgv run _
      · rw [stopped]; exact List.getLast?_concat ..
      · rw [slc, held]; exact held_not
      · rw [slc, queue]; exact queue_not (by simp [headInSlot, no_slot])
      · rw [slc, queue]; exact ends (by simpa using service) (by simpa using no_slot) (by simpa using slots)
      · rw [slc, stays (by simpa using other)]; simp
      · obtain ⟨frame, slc_frame⟩ := gridAbort_frame .requested s
        rw [stopped]
        exact eq_of_onlySlcRgvHli frame slc_frame

end Sys2Proof.Machine
end

section
/-! The grid element check, string by string (R140 to R142). -/

namespace Sys2Proof.Machine

/-! ### A string is classed (R141) -/

theorem classString_eq (m res : Nat) : classString m res =
    if res = 65535 ∨ 2 * m ≤ res then .open
    else if 2 * res ≤ m then .short
    else if m < 10 * (if m ≤ res then res - m else m - res) then .drift
    else .good := by
  have gap : ((res : Int) - m).natAbs = if m ≤ res then res - m else m - res := by split_ifs <;> omega
  have drift : ((m : Int) < 10 * ((((res : Int) - m).natAbs : Nat) : Int)) ↔
      m < 10 * (if m ≤ res then res - m else m - res) := by rw [gap]; omega
  simp only [classString, drift]

/-- The run with the string just read among its results (R141). -/
def GridRun.withString (r : GridRun) (cls : StringClass) (res n : Nat) : GridRun :=
  { r with
    results := r.results ++ [(r.grid, ⟨res, cls, n⟩)]
    anomalies := if cls ≠ .good ∧ r.anomalies.length < 4 then r.anomalies ++ [⟨r.grid, r.string, cls, res⟩] else r.anomalies
    more := r.more || decide (cls ≠ .good ∧ 4 ≤ r.anomalies.length) }

/-- A READ that delivers: the string joins the run's results, and the run goes on with the next string or completes. -/
theorem gridOutcome_of_read {r : GridRun} {s : State} (run : s.rgv.check.run = some r) (read : r.step = .read) (res : Nat) :
    gridOutcome .takenReady res s =
      let r' := r.withString (classString s.hli.force.stringNominal res) res s.slc.frameNo
      (nextString r.grids r.grid r.string).elim (gridComplete r' { s with rgv.check.run := some r' }) fun next =>
        joinItem (gridItem (r.addr next.1) next.2 .act)
          { s with rgv.check.run := some { r' with grid := next.1, string := next.2, step := .act } } := by
  have kept : ∀ cls : StringClass, (cls != .good && decide (r.anomalies.length < 4)) =
      decide (cls ≠ .good ∧ r.anomalies.length < 4) := fun cls => by by_cases good : cls = .good <;> simp [good, bne]
  have more : ∀ cls : StringClass, (cls != .good && !decide (cls ≠ .good ∧ r.anomalies.length < 4)) =
      decide (cls ≠ .good ∧ 4 ≤ r.anomalies.length) := fun cls => by
    by_cases good : cls = .good <;> by_cases room : r.anomalies.length < 4 <;>
      simp [good, bne, room, Nat.not_le.2, Nat.not_lt.1]
  simp only [gridOutcome, run, read, gridDelivered, kept, more]
  cases nextString r.grids r.grid r.string <;> simp [GridRun.withString, read]

/-- The run at the start of another string. -/
abbrev GridRun.atString (r : GridRun) (g : Grid) (n : Nat) : GridRun := { r with grid := g, string := n, step := .act }

theorem joinItem_of_room {s : State} (room : s.slc.queue.length < 8) (it : Item) :
    joinItem it s = { s with slc.queue := s.slc.queue ++ [it] } := if_pos room

theorem joinItem_of_full {s : State} (full : 8 ≤ s.slc.queue.length) (it : Item) :
    joinItem it s = { s with slc.held := s.slc.held ++ [it] } := if_neg (by omega)

/-- Settles O49. -/
theorem deliveredStringIsClassed : Obligations.DeliveredStringIsClassed := by
  intro r res g n s run read next m cls t
  have cls_eq : cls = classString m res := (classString_eq m res).symm
  have t_eq : t = joinItem (gridItem (r.addr g) n .act) { s with rgv.check.run := some ((r.withString cls res s.slc.frameNo).atString g n) } := by
    rw [cls_eq]
    simp only [t, gridOutcome_of_read run read, next]
    rfl
  have rgv : t.rgv = { s.rgv with check := { s.rgv.check with run := some ((r.withString cls res s.slc.frameNo).atString g n) } } := by rw [t_eq]; simp
  refine ⟨by rw [rgv]; rfl, by rw [rgv], ?_, fun room => ?_, fun full => ?_⟩
  · have frame := joinItem_frame (gridItem (r.addr g) n .act) { s with rgv.check.run := some ((r.withString cls res s.slc.frameNo).atString g n) }
    rw [t_eq]
    simp only [OnlySlc] at frame
    simp only [frame]
  · exact (congrArg State.slc t_eq).trans (congrArg State.slc (joinItem_of_room (by exact room) _))
  · exact (congrArg State.slc t_eq).trans (congrArg State.slc (joinItem_of_full (by exact full) _))

end Sys2Proof.Machine
end

section
/-! SUPPORT. The completion of an item of the service queue (R29, R57, R58): what the directory does with the outcome, what
leaves the queue, who is told. -/

namespace Sys2Proof.Machine

/-! ### The outcome in the directory (R29, R30) -/

/-- The outcomes that are failures of their station. -/
def ExOutcome.fails (o : ExOutcome) : Prop := o = .untaken ∨ o = .noReply ∨ o = .check

theorem failKindOf_of_fails {o : ExOutcome} (h : o.fails) : ∃ k, failKindOf o = some k := by
  obtain rfl | rfl | rfl := h <;> exact ⟨_, rfl⟩

/-- The failure leaves its station in its state, or not EXCLUDED: it was EXCLUDED, or its streak stays low. -/
def staysOut (x : SlotEx) (s : State) : Prop :=
  ∀ st, stationAt x.addr s = some st → st.state = .excluded ∨ st.streak + 1 < s.hli.force.streakExclude

theorem Station.fail_streak_le (e : Station) (k : FailKind) : (e.fail k).streak ≤ e.streak + 1 := by
  show satSucc 255 e.streak ≤ _
  unfold satSucc
  split <;> omega

/-- A station that is not newly EXCLUDED only latches a flag, or nothing. -/
theorem stationMoved_of_not_excluded {before after : Station} (h : after.state = .excluded → before.state = .excluded)
    (addr : Nat) (s : State) : ∃ fl, stationMoved addr before after s = { s with hli.flags := fl } := by
  unfold stationMoved
  split_ifs with same
  · exact ⟨s.hli.flags, rfl⟩
  · split
    · exact ⟨_, rfl⟩
    · rename_i excluded
      exact absurd ((h excluded).trans excluded.symm) same
    · exact ⟨s.hli.flags, rfl⟩

theorem stationFailed_of_staysOut {x : SlotEx} {s : State} (stays : staysOut x s) (k : FailKind) :
    ∃ d fl, stationFailed x.addr k s = { s with slc.dir := d, hli.flags := fl } := by
  unfold stationFailed
  split
  · exact ⟨s.slc.dir, s.hli.flags, rfl⟩
  · rename_i e station
    have not_newly : ((e.fail k).judge s.hli.force).state = .excluded → e.state = .excluded := by
      obtain out | low := stays e station
      · exact fun _ => out
      · intro newly
        have below : (e.fail k).streak < s.hli.force.streakExclude := (e.fail_streak_le k).trans_lt low
        unfold Station.judge at newly
        split_ifs at newly with h1 h2
        · exact h1
        · omega
        · exact newly
    obtain ⟨fl, moved⟩ := stationMoved_of_not_excluded not_newly x.addr
      (updStation x.addr (fun _ => (e.fail k).judge s.hli.force) s)
    exact ⟨_, fl, moved⟩

/-- With no station newly EXCLUDED the outcome changes the directory and the flags alone. -/
theorem applyDirectory_of_staysOut {x : SlotEx} {o : ExOutcome} {s : State} (h : o.fails → staysOut x s) :
    ∃ d fl, applyDirectory x o s = { s with slc.dir := d, hli.flags := fl } := by
  by_cases fails : o.fails
  · obtain ⟨k, kind⟩ := failKindOf_of_fails fails
    simp only [applyDirectory, kind]
    split_ifs
    · exact ⟨s.slc.dir, s.hli.flags, rfl⟩
    · exact stationFailed_of_staysOut (h fails) k
  · have keeps : ∃ d, applyDirectory x o s = { s with slc.dir := d } := by
      cases o with
      | untaken => exact absurd (.inl rfl) fails
      | noReply => exact absurd (.inr (.inl rfl)) fails
      | check => exact absurd (.inr (.inr rfl)) fails
      | takenReady => exact ⟨_, rfl⟩
      | takenNotReady => exact ⟨_, rfl⟩
      | excluded => exact ⟨s.slc.dir, rfl⟩
      | loopDown => exact ⟨s.slc.dir, rfl⟩
    obtain ⟨d, keeps⟩ := keeps
    exact ⟨d, s.hli.flags, keeps⟩

/-- A failure that takes its station to EXCLUDED latches the flag and tells the checks. -/
theorem applyDirectory_of_excluded {x : SlotEx} {o : ExOutcome} {s : State} {st : Station} (fails : o.fails)
    (tolerate : x.tolerate = false) (station : stationAt x.addr s = some st) (free : st.state ≠ .excluded)
    (reaches : s.hli.force.streakExclude ≤ st.streak + 1) (room : st.streak < 255) :
    ∃ d fl, applyDirectory x o s =
      steerStationExcluded x.addr (gridStationExcluded x.addr { s with slc.dir := d, hli.flags := fl }) := by
  obtain ⟨k, kind⟩ := failKindOf_of_fails fails
  have streak : (st.fail k).streak = st.streak + 1 := if_pos room
  have excluded : ((st.fail k).judge s.hli.force).state = .excluded := by
    rw [Station.judge_of_exclude (e := st.fail k) free (streak ▸ reaches)]
  refine ⟨(updStation x.addr (fun _ => (st.fail k).judge s.hli.force) s).slc.dir, (latch .stationExcluded s).hli.flags, ?_⟩
  · simp only [applyDirectory, kind, tolerate, Bool.false_eq_true, and_false, if_false, stationFailed, station,
      stationMoved, excluded, if_neg free]
    rfl

theorem heardState_eq (x : SlotEx) (h : Heard) (s : State) :
    ∃ cs, heardState x h s = { applyDirectory x h.outcome s with slc.slot := none, hli.counters := cs } := by
  have counted : ∀ t : State, ∃ cs, countOutcome x h.outcome t = { t with hli.counters := cs } := by
    intro t
    unfold countOutcome
    (repeat' split) <;> exact ⟨_, rfl⟩
  obtain ⟨cs, counted⟩ := counted (applyDirectory x h.outcome s)
  exact ⟨cs, by rw [heardState, counted]⟩

theorem heardState_of_staysOut {x : SlotEx} {h : Heard} {s : State} (stays : h.outcome.fails → staysOut x s) :
    ∃ d fl cs, heardState x h s = { s with slc.dir := d, slc.slot := none, hli.flags := fl, hli.counters := cs } := by
  obtain ⟨cs, heard⟩ := heardState_eq x h s
  obtain ⟨d, fl, directory⟩ := applyDirectory_of_staysOut stays
  exact ⟨d, fl, cs, by rw [heard, directory]⟩

/-! ### The item leaves the queue, and its claimant is told (R57, R58) -/

theorem complete_service {x : SlotEx} {s : State} (slot : s.slc.slot = some x) (service : x.claim = .service)
    (no_reset : x.afterReset = false) (h : Heard) : complete h s = serviceOutcome h (heardState x h s) := by
  rw [complete_eq slot, settleReset, if_neg (by simp [no_reset]), claimOutcome, service]

theorem serviceOutcome_of_repeats {it : Item} {its : List Item} {h : Heard} {s : State} (queue : s.slc.queue = it :: its)
    (repeats : itemRepeats it h = true) : serviceOutcome h s = endService s := by
  simp [serviceOutcome, queue, repeats]

theorem serviceOutcome_of_ends {it : Item} {its : List Item} {h : Heard} {s : State} (queue : s.slc.queue = it :: its)
    (ends : itemRepeats it h = false) : serviceOutcome h s = endService (tellClaimant it h (popHead s)) := by
  simp [serviceOutcome, queue, ends, finishHead]

theorem itemRepeats_of_discard {it : Item} (discard : it.discard = true) (h : Heard) : itemRepeats it h = false := by
  simp [itemRepeats, discard]

/-- A discarded item leaves the queue, and nobody is told. -/
theorem serviceOutcome_of_discard {it : Item} {its : List Item} {s : State} (queue : s.slc.queue = it :: its)
    (discard : it.discard = true) (h : Heard) : serviceOutcome h s = endService (popHead s) := by
  rw [serviceOutcome_of_ends queue (itemRepeats_of_discard discard h), tellClaimant, if_pos discard]

theorem popHead_items {it : Item} {its : List Item} {s : State} (queue : s.slc.queue = it :: its) :
    (popHead s).items = its ++ s.slc.held := by
  rw [State.items, popHead, joinHeld_order, queue]
  rfl

theorem popHead_of_none_held {s : State} (held : s.slc.held = []) :
    popHead s = { s with slc.queue := s.slc.queue.tail } := by
  simp [popHead, joinHeld, held]

/-- An abort with the head in its slot marks the claimant's own head as discarded, and takes its other items out. -/
theorem removeItems_of_head_in_slot {it : Item} {its : List Item} {s : State} (c : Claimant)
    (in_slot : headInSlot s = true) (queue : s.slc.queue = it :: its) :
    ∃ rest, (removeItems c s).slc.queue = { it with discard := it.discard || it.claimant == c } :: rest
      ∧ rest ++ (removeItems c s).slc.held = (its ++ s.slc.held).filter (·.claimant != c) := by
  have marked : (if (it.claimant == c) = true then { it with discard := true } else it) =
      { it with discard := it.discard || it.claimant == c } := by
    cases mine : it.claimant == c <;> simp
  have order := joinHeld_order { s with
    slc.queue := { it with discard := it.discard || it.claimant == c } :: its.filter (fun it => !(it.claimant == c)),
    slc.held := s.slc.held.filter (fun it => !(it.claimant == c)) }
  have removed : removeItems c s = joinHeld { s with
      slc.queue := { it with discard := it.discard || it.claimant == c } :: its.filter (fun it => !(it.claimant == c)),
      slc.held := s.slc.held.filter (fun it => !(it.claimant == c)) } := by
    simp only [removeItems, in_slot, queue, ← marked]
    rfl
  rw [removed]
  refine ⟨_, rfl, ?_⟩
  rw [List.filter_append]
  exact List.tail_eq_of_cons_eq order

theorem endService_items (s : State) : (endService s).items = s.items := by
  simp [State.items]

end Sys2Proof.Machine
end

section
/-! The grid element check completes, fails or aborts (R140 to R143), and its item at the head of the service queue. -/

namespace Sys2Proof.Machine

/-! ### The ends of a run (R142) -/

theorem gridEnd_of_run {r : GridRun} {s : State} (run : s.rgv.check.run = some r) (o : GridOutcome) (c : ProcCause)
    (w : Option (Grid × Nat × GridStep × FailedWith)) :
    gridEnd o c w s = notify (.proc 1 (gridOutcomeCode o) c s.slc.frameNo) { s with
      rgv.check.run := none, rgv.check.last := ⟨o, c, r.grids, r.start, s.slc.frameNo, r.results.length, w⟩ } := by
  rw [gridEnd, run]

theorem gridFailed_of_run {r : GridRun} {s : State} (run : s.rgv.check.run = some r) (w : FailedWith) :
    gridFailed r w s = notify (.proc 1 4 .none s.slc.frameNo) { s with
      rgv.check.run := none
      rgv.check.last := ⟨.failedExchange, .none, r.grids, r.start, s.slc.frameNo, r.results.length,
        some (r.grid, r.string, r.step, w)⟩ } :=
  gridEnd_of_run run ..

theorem gridComplete_of_run {r : GridRun} {s : State} (run : s.rgv.check.run = some r) :
    let o := if r.results.any (·.2.cls.bad) then GridOutcome.degraded else .passed
    gridComplete r s = notify (.proc 1 (gridOutcomeCode o) .none s.slc.frameNo) { gridResults r s with
      rgv.check.run := none
      rgv.check.last := ⟨o, .none, r.grids, r.start, s.slc.frameNo, r.results.length, none⟩ } :=
  gridEnd_of_run (s := gridResults r s) run ..

theorem gridOutcome_of_act {r : GridRun} {s : State} (run : s.rgv.check.run = some r) (act : r.step = .act)
    {o : ExOutcome} (taken : o = .takenReady ∨ o = .takenNotReady) (data : Nat) : gridOutcome o data s =
      joinItem (gridItem (r.addr r.grid) r.string .read) { s with rgv.check.run := some { r with step := .read } } := by
  obtain rfl | rfl := taken <;> simp [gridOutcome, run, act]

theorem gridOutcome_of_not_ready {r : GridRun} {s : State} (run : s.rgv.check.run = some r) (read : r.step = .read)
    (data : Nat) : gridOutcome .takenNotReady data s = gridFailed r .notReady s := by
  simp [gridOutcome, run, read]

/-- The failures of an exchange that end a run, and what the last-run record names. -/
theorem gridOutcome_of_fails {r : GridRun} {s : State} (run : s.rgv.check.run = some r) (data : Nat) :
    gridOutcome .untaken data s = gridFailed r .untaken s ∧ gridOutcome .noReply data s = gridFailed r .noReply s
      ∧ gridOutcome .check data s = gridFailed r .check s := by
  cases step : r.step <;> simp [gridOutcome, run]

theorem gridOutcome_of_abort {r : GridRun} {s : State} (run : s.rgv.check.run = some r) (data : Nat) :
    gridOutcome .excluded data s = gridAbort .stationExcluded s
      ∧ gridOutcome .loopDown data s = gridAbort .loopDown s := by
  cases step : r.step <;> simp [gridOutcome, run]

theorem StringClass.bad_eq (c : StringClass) : c.bad = (c == .open || c == .short) := by
  cases c <;> rfl

theorem notify_hli_congr {s t : State} (h : s.hli = t.hli) (n : Notice) : (notify n s).hli = (notify n t).hli := by
  have count : noticeCount s = noticeCount t := by rw [noticeCount, noticeCount, h]
  unfold notify
  rw [h, count]
  split_ifs
  · simp [send, h]
  · simp [h]
  · exact h

theorem gridFailed_rgv {r : GridRun} {s : State} (run : s.rgv.check.run = some r) (w : FailedWith) :
    (gridFailed r w s).rgv = { s.rgv with check := { s.rgv.check with
      run := none
      last := ⟨.failedExchange, .none, r.grids, r.start, s.slc.frameNo, r.results.length,
        some (r.grid, r.string, r.step, w)⟩ } } := by
  simp [gridFailed_of_run run]

theorem gridFailed_slc {r : GridRun} {s : State} (run : s.rgv.check.run = some r) (w : FailedWith) :
    (gridFailed r w s).slc = s.slc := by
  simp [gridFailed_of_run run]

/-- What a READ that delivers makes of the retard governor rests on the governor, the nominal in force and the frame. -/
theorem gridOutcome_delivers_congr {r : GridRun} {s t : State} (run : s.rgv.check.run = some r) (read : r.step = .read)
    (rgv : t.rgv = s.rgv) (force : t.hli.force = s.hli.force) (frame : t.slc.frameNo = s.slc.frameNo) (res : Nat) :
    (gridOutcome .takenReady res t).rgv = (gridOutcome .takenReady res s).rgv := by
  rw [gridOutcome_of_read run read, gridOutcome_of_read (rgv ▸ run) read, force, frame]
  cases nextString r.grids r.grid r.string with
  | none =>
    simp only [Option.elim]
    rw [gridComplete_of_run rfl, gridComplete_of_run rfl]
    simp [gridResults, rgv, frame]
  | some next => simp [rgv]

/-! ### The check's item in the queue (R57, R58, R143) -/

theorem joinItem_of_cons {it : Item} {its : List Item} {s : State} (queue : s.slc.queue = it :: its) (j : Item) :
    ∃ rest, (joinItem j s).slc.queue = it :: rest
      ∧ ∀ k ∈ rest ++ (joinItem j s).slc.held, k ∈ its ++ s.slc.held ∨ k = j := by
  by_cases room : s.slc.queue.length < 8
  · rw [joinItem_of_room room, queue]
    exact ⟨its ++ [j], rfl, fun k h => by simp at h ⊢; tauto⟩
  · rw [joinItem_of_full (by omega), queue]
    exact ⟨its, rfl, fun k h => by simp at h ⊢; tauto⟩

/-- An abort of the steering supply check leaves another claimant's head in the slot where it is, and brings no item but
its own release ACT. -/
theorem steerAbort_of_head_in_slot {it : Item} {its : List Item} {s : State} (in_slot : headInSlot s = true)
    (queue : s.slc.queue = it :: its) (other : it.claimant ≠ .steerCheck) (c : ProcCause) :
    ∃ rest, (steerAbort c s).slc.queue = it :: rest
      ∧ ∀ k ∈ rest ++ (steerAbort c s).slc.held, k ∈ its ++ s.slc.held ∨ k.claimant = .steerCheck := by
  cases run : s.sgv.run with
  | none => rw [steerAbort_of_idle run]; exact ⟨its, queue, fun k h => .inl h⟩
  | some r =>
    rw [steerAbort_of_run run]
    by_cases release : r.phase = .release
    · rw [toRelease_of_release release]; exact ⟨its, queue, fun k h => .inl h⟩
    · obtain ⟨kept, kept_queue, kept_items⟩ := removeItems_of_head_in_slot .steerCheck in_slot queue
      have not_mine : (it.claimant == Claimant.steerCheck) = false := by simpa using other
      rw [not_mine, Bool.or_false] at kept_queue
      simp only [toRelease, if_neg release]
      obtain ⟨rest, rest_queue, rest_items⟩ := joinItem_of_cons
        (s := { removeItems .steerCheck s with
          sgv.run := some { r with phase := .release, pending := abortPending c r.pending } })
        kept_queue (steerItem r.addr 0)
      refine ⟨rest, rest_queue, fun k h => ?_⟩
      obtain mem | rfl := rest_items k h
      · replace mem : k ∈ kept ++ (removeItems .steerCheck s).slc.held := mem
        rw [kept_items] at mem
        exact .inl (List.mem_filter.1 mem).1
      · exact .inr rfl

theorem steerStationExcluded_of_head_in_slot {it : Item} {its : List Item} {s : State} (in_slot : headInSlot s = true)
    (queue : s.slc.queue = it :: its) (other : it.claimant ≠ .steerCheck) (addr : Nat) :
    ∃ rest, (steerStationExcluded addr s).slc.queue = it :: rest
      ∧ ∀ k ∈ rest ++ (steerStationExcluded addr s).slc.held, k ∈ its ++ s.slc.held ∨ k.claimant = .steerCheck := by
  obtain same | aborted := steerStationExcluded_cases addr s
  · rw [same]; exact ⟨its, queue, fun k h => .inl h⟩
  · rw [aborted]; exact steerAbort_of_head_in_slot in_slot queue other _

/-- A failure that takes the check's station to EXCLUDED: the run is aborted, and of the queue only the check's item in the
slot is left of its own, discarded. -/
theorem gridStationExcluded_in_slot {r : GridRun} {it : Item} {its : List Item} {s : State}
    (run : s.rgv.check.run = some r) (in_slot : headInSlot s = true) (queue : s.slc.queue = it :: its)
    (mine : it.claimant = .gridCheck)
    (named : r.grids = .both ∨ (r.grids = .a ∧ r.grid = .a) ∨ (r.grids = .b ∧ r.grid = .b)) :
    let t := gridStationExcluded (r.addr r.grid) s
    t.rgv = { s.rgv with check := { s.rgv.check with run := none, last := r.abortedAt .stationExcluded s.slc.frameNo } }
      ∧ ∃ rest, t.slc.queue = { it with discard := true } :: rest ∧ ∀ k ∈ rest ++ t.slc.held, k.claimant ≠ .gridCheck := by
  have names : ((r.grids.has .a && r.addrA == r.addr r.grid) || (r.grids.has .b && r.addrB == r.addr r.grid)) = true := by
    obtain both | ⟨a, at_a⟩ | ⟨b, at_b⟩ := named
    · cases at_grid : r.grid <;> simp [both, Grids.has, GridRun.addr]
    · simp [a, at_a, Grids.has, GridRun.addr]
    · simp [b, at_b, Grids.has, GridRun.addr]
  have aborted : gridStationExcluded (r.addr r.grid) s = gridAbort .stationExcluded s := by
    rw [gridStationExcluded, run]
    exact if_pos names
  obtain ⟨rest, rest_queue, rest_items⟩ := removeItems_of_head_in_slot .gridCheck in_slot queue
  obtain ⟨-, kept_queue, kept_held⟩ := endService_keeps (removeItems .gridCheck s)
  intro t
  have t_eq : t = gridAbort .stationExcluded s := aborted
  refine ⟨by rw [t_eq, gridAbort_rgv run], rest, ?_, fun k h => ?_⟩
  · rw [t_eq, gridAbort_slc run, kept_queue, rest_queue, mine]; simp
  · rw [t_eq, gridAbort_slc run, kept_held, rest_items] at h
    simpa using (List.mem_filter.1 h).2

/-- A check that is aborted in its slot leaves none of its items in the queue once the slot is done. -/
theorem complete_of_excluded_grid {r : GridRun} {it : Item} {its : List Item} {x : SlotEx} {h : Heard} {s : State}
    {st : Station} (slot : s.slc.slot = some x) (service : x.claim = .service) (no_reset : x.afterReset = false)
    (tolerate : x.tolerate = false) (queue : s.slc.queue = it :: its) (mine : it.claimant = .gridCheck)
    (run : s.rgv.check.run = some r) (fails : h.outcome.fails) (station : stationAt x.addr s = some st)
    (free : st.state ≠ .excluded) (reaches : s.hli.force.streakExclude ≤ st.streak + 1) (room : st.streak < 255)
    (addr : x.addr = r.addr r.grid)
    (named : r.grids = .both ∨ (r.grids = .a ∧ r.grid = .a) ∨ (r.grids = .b ∧ r.grid = .b)) :
    (complete h s).rgv = { s.rgv with check := { s.rgv.check with
        run := none, last := r.abortedAt .stationExcluded s.slc.frameNo } }
      ∧ (complete h s).slc.slot = none ∧ ∀ j ∈ (complete h s).slc.queue, j.claimant ≠ .gridCheck := by
  obtain ⟨d, fl, directory⟩ := applyDirectory_of_excluded fails tolerate station free reaches room
  obtain ⟨cs, heard⟩ := heardState_eq x h s
  let told : State := { s with slc.dir := d, hli.flags := fl }
  have told_slot : headInSlot told = true := by simp [told, headInSlot, slot, service]
  obtain ⟨rgv, rest, rest_queue, rest_items⟩ := gridStationExcluded_in_slot (s := told) run told_slot queue mine named
  rw [← addr] at rgv rest_queue rest_items
  have slot_kept : (gridStationExcluded x.addr told).slc.slot = some x := by
    obtain same | aborted := gridStationExcluded_cases x.addr told
    · rw [same]; exact slot
    · obtain ⟨-, keeps⟩ := gridAbort_frame .stationExcluded told
      rw [aborted]
      simp only [OnlyQueuePhase] at keeps
      simp only [keeps]
      exact slot
  obtain ⟨last, last_queue, last_items⟩ := steerStationExcluded_of_head_in_slot (s := gridStationExcluded x.addr told)
    (by simp [headInSlot, slot_kept, service]) rest_queue (by simp [mine]) x.addr
  have at_outcome : (heardState x h s).slc.queue = { it with discard := true } :: last := by
    rw [heard, directory]; exact last_queue
  have completes : complete h s = endService (popHead (heardState x h s)) := by
    rw [complete_service slot service no_reset, serviceOutcome_of_discard at_outcome rfl]
  have rgv_kept : (steerStationExcluded x.addr (gridStationExcluded x.addr told)).rgv =
      (gridStationExcluded x.addr told).rgv := by
    obtain same | aborted := steerStationExcluded_cases x.addr (gridStationExcluded x.addr told)
    · rw [same]
    · rw [aborted]; simp
  refine ⟨?_, ?_, fun j mem => ?_⟩
  · rw [completes]
    have : (endService (popHead (heardState x h s))).rgv = (heardState x h s).rgv := by simp
    rw [this, heard, directory]
    exact rgv_kept.trans rgv
  · rw [completes]; simp [heardState]
  · have items : j ∈ (popHead (heardState x h s)).items := by
      rw [completes] at mem
      rw [← endService_items]
      exact List.mem_append_left _ mem
    rw [popHead_items at_outcome] at items
    have held : (heardState x h s).slc.held = (steerStationExcluded x.addr (gridStationExcluded x.addr told)).slc.held := by
      rw [heard, directory]
    rw [held] at items
    obtain old | steer := last_items j items
    · exact rest_items j old
    · rw [steer]; decide

end Sys2Proof.Machine
end

section
/-! The last string of the grid element check, and every outcome handed to it (R140 to R143). -/

namespace Sys2Proof.Machine

/-- An exchange of the service pass that took no station out has ended: directory, flags and counters may have moved, the
slot is empty, and the queue is `q`. -/
def SlotDone (q : List Item) (t s : State) : Prop :=
  ∃ d fl cs, t = { s with slc.dir := d, slc.slot := none, slc.queue := q, hli.flags := fl, hli.counters := cs }

theorem SlotDone.fields {q : List Item} {t s : State} (done : SlotDone q t s) :
    t.rgv = s.rgv ∧ t.sgv = s.sgv ∧ t.hli.force = s.hli.force ∧ t.slc.frameNo = s.slc.frameNo ∧ t.slc.slot = none
      ∧ t.slc.queue = q ∧ t.slc.held = s.slc.held := by
  obtain ⟨d, fl, cs, rfl⟩ := done
  exact ⟨rfl, rfl, rfl, rfl, rfl, rfl, rfl⟩

/-- An item with its outcome that does not repeat leaves the queue, and its claimant is told. -/
theorem complete_of_ending_item {it : Item} {its : List Item} {x : SlotEx} {h : Heard} {s : State}
    (slot : s.slc.slot = some x) (service : x.claim = .service) (no_reset : x.afterReset = false)
    (queue : s.slc.queue = it :: its) (held : s.slc.held = []) (stays : h.outcome.fails → staysOut x s)
    (ends : itemRepeats it h = false) : ∃ t, SlotDone its t s ∧ complete h s = endService (tellClaimant it h t) := by
  obtain ⟨d, fl, cs, heard⟩ := heardState_of_staysOut stays
  have heard_queue : (heardState x h s).slc.queue = it :: its := by rw [heard]; exact queue
  have heard_held : (heardState x h s).slc.held = [] := by rw [heard]; exact held
  refine ⟨popHead (heardState x h s), ⟨d, fl, cs, ?_⟩, ?_⟩
  · rw [popHead_of_none_held heard_held, heard_queue, heard]; rfl
  · rw [complete_service slot service no_reset, serviceOutcome_of_ends heard_queue ends]

/-- An item that repeats stays at the head of the queue. -/
theorem complete_of_repeating_item {it : Item} {its : List Item} {x : SlotEx} {h : Heard} {s : State}
    (slot : s.slc.slot = some x) (service : x.claim = .service) (no_reset : x.afterReset = false)
    (queue : s.slc.queue = it :: its) (stays : h.outcome.fails → staysOut x s) (repeats : itemRepeats it h = true) :
    ∃ t, SlotDone (it :: its) t s ∧ complete h s = endService t := by
  obtain ⟨d, fl, cs, heard⟩ := heardState_of_staysOut stays
  have heard_queue : (heardState x h s).slc.queue = it :: its := by rw [heard]; exact queue
  refine ⟨heardState x h s, ⟨d, fl, cs, ?_⟩, ?_⟩
  · rw [heard, ← queue]
  · rw [complete_service slot service no_reset, serviceOutcome_of_repeats heard_queue repeats]

theorem gridOutcome_slc (o : ExOutcome) (data : Nat) (s : State) : OnlyQueuePhase (gridOutcome o data s) s := by
  unfold gridOutcome gridDelivered gridComplete gridFailed gridResults
  (repeat' split) <;> simp

theorem endService_slot (s : State) : (endService s).slc.slot = s.slc.slot := by simp

theorem tellClaimant_slot (it : Item) (h : Heard) (s : State) : (tellClaimant it h s).slc.slot = s.slc.slot := by
  have steer : (steerOutcome h.outcome s).slc.slot = s.slc.slot := by
    unfold steerOutcome steerReleased steerEnd steerAbort toRelease
    (repeat' split) <;> simp
  have probe : (reinstateOutcome it.addr h s).slc.slot = s.slc.slot := by
    unfold reinstateOutcome probeDirectory
    (repeat' split) <;> simp [updStation]
  unfold tellClaimant
  split
  · rfl
  · split
    · have := gridOutcome_slc h.outcome h.data s
      simp only [OnlyQueuePhase] at this
      simp only [this]
    · exact steer
    · simp
    · exact probe

/-- The slot of an exchange of the service pass is empty once it is complete. -/
theorem complete_service_slot {x : SlotEx} {s : State} (slot : s.slc.slot = some x) (service : x.claim = .service)
    (no_reset : x.afterReset = false) (h : Heard) : (complete h s).slc.slot = none := by
  have heard : (heardState x h s).slc.slot = none := rfl
  rw [complete_service slot service no_reset]
  cases queue : (heardState x h s).slc.queue with
  | nil => rw [serviceOutcome, queue]; exact heard
  | cons it its =>
    cases repeats : itemRepeats it h with
    | true => rw [serviceOutcome_of_repeats queue repeats, endService_slot, heard]
    | false => rw [serviceOutcome_of_ends queue repeats, endService_slot, tellClaimant_slot]; simpa using heard

theorem tellClaimant_of_grid {it : Item} (mine : it.claimant = .gridCheck) (discard : it.discard = false) (h : Heard)
    (s : State) : tellClaimant it h s = gridOutcome h.outcome h.data s := by
  rw [tellClaimant, discard, mine]
  rfl

theorem itemRepeats_of_ready {it : Item} {h : Heard} (outcome : h.outcome ≠ .takenNotReady) : itemRepeats it h = false := by
  simp [itemRepeats, outcome]

theorem itemRepeats_of_single {it : Item} (single : it.retry = none) (h : Heard) : itemRepeats it h = false := by
  simp [itemRepeats, single]

theorem itemRepeats_of_limit {it : Item} {h : Heard} {k : Nat} (limit : it.retry = some k) (discard : it.discard = false)
    (outcome : h.outcome = .takenNotReady) : itemRepeats it h = decide (it.used < k) := by
  simp [itemRepeats, limit, discard, outcome]

/-- Settles O50. -/
theorem lastStringCompletesTheGridCheck : Obligations.LastStringCompletesTheGridCheck := by
  refine ⟨?last, ?outcomes, ?inRun⟩
  case last =>
    intro r res s run read no_next cls rs worst named t
    let r' := r.withString cls res s.slc.frameNo
    have t_eq : t = gridComplete r' { s with rgv.check.run := some r' } := by
      simp only [t, gridOutcome_of_read run read, no_next]
      rfl
    have worst_eq : r'.results.any (·.2.cls.bad) = rs.any worst := by
      simp only [StringClass.bad_eq]; rfl
    have named_eq : ∀ g, resultsOf g r' = named g := fun _ => rfl
    have grids : r'.grids = r.grids := rfl
    have start : r'.start = r.start := rfl
    have results_eq : r'.results = rs := rfl
    have anomalies : r'.anomalies = if cls ≠ .good ∧ r.anomalies.length < 4 then
      r.anomalies ++ [⟨r.grid, r.string, cls, res⟩] else r.anomalies := rfl
    have more : r'.more = (r.more || decide (cls ≠ .good ∧ 4 ≤ r.anomalies.length)) := rfl
    have good : ∀ l : List StringResult, goodCount l = l.countP (fun x => !(x.cls == .open || x.cls == .short)) := fun l => by
      simp only [goodCount, StringClass.bad_eq]
    rw [gridComplete_of_run rfl, worst_eq] at t_eq
    clear_value r' t
    subst t_eq
    have hli : ∀ n u, u.hli = s.hli → (notify n u).hli = (notify n s).hli := fun n u h => notify_hli_congr h n
    refine ⟨by simp, by simp [grids, start, results_eq], by simp [gridResults, grids], by simp [gridResults, anomalies],
      by simp [gridResults, more], ?_, fun a => ?_, fun b => ?_, fun both => ?_, ?_⟩
    · rw [show ∀ b : Bool, (if b = true then 2 else 1 : Nat) = gridOutcomeCode (if b = true then .degraded else .passed) from
        fun b => by cases b <;> rfl]
      exact hli _ _ rfl
    · simp [gridResults, grids, a, Grids.has, named_eq, good]
    · simp [gridResults, grids, b, Grids.has, named_eq, good]
    · simp [gridResults, grids, both, Grids.has, named_eq, good]
    · simp [gridResults]
  case outcomes =>
    intro r data s run read ended fails
    obtain ⟨untaken, noReply, check⟩ := gridOutcome_of_fails run data
    obtain ⟨excluded, loopDown⟩ := gridOutcome_of_abort run data
    refine ⟨fun x act taken => gridOutcome_of_act run act taken data, fun at_read => ?_, ?_, ?_, ?_, ?_, ?_⟩
    · exact (gridOutcome_of_not_ready run at_read data).trans (gridFailed_of_run run _)
    · exact untaken.trans (gridFailed_of_run run _)
    · exact noReply.trans (gridFailed_of_run run _)
    · exact check.trans (gridFailed_of_run run _)
    · rw [excluded]; exact gridAbort_rgv run _
    · rw [loopDown]; exact gridAbort_rgv run _
  case inRun =>
    intro c h it its x r s live slot service no_reset tolerate queue mine discard retry held run row read ended failed stays
    have completes : exec c s = .next (complete h s) := exec_completes live slot row
    have taken_not_fails : h.outcome = .takenReady ∨ h.outcome = .takenNotReady → h.outcome.fails → staysOut x s := by
      rintro (taken | taken) (fails | fails | fails) <;> exact absurd (taken.symm.trans fails) (by simp)
    have keeps : ∀ t : State, (endService t).rgv = t.rgv ∧ (endService t).slc.queue = t.slc.queue := fun t => by simp
    /- An exchange that ends its item, told to the check. -/
    have told : (h.outcome.fails → staysOut x s) → itemRepeats it h = false → ∃ t, SlotDone its t s
        ∧ (complete h s).rgv = (gridOutcome h.outcome h.data t).rgv
        ∧ (complete h s).slc.queue = (gridOutcome h.outcome h.data t).slc.queue := fun stays ends => by
      obtain ⟨t, done, complete_eq⟩ := complete_of_ending_item slot service no_reset queue held stays ends
      rw [complete_eq, tellClaimant_of_grid mine discard]
      exact ⟨t, done, keeps _⟩
    have single : r.step = .act → itemRepeats it h = false := fun act =>
      itemRepeats_of_single (by simpa [act] using retry) h
    refine ⟨_, completes, ?_, fun act taken room => ?_, fun at_read ready => ?_, fun at_read not_ready below => ?_,
      fun at_read not_ready used => ?_, fun stays => ?_, fun st fails station free reaches room addr named => ?_⟩
    · exact complete_service_slot slot service no_reset h
    · obtain ⟨t, done, rgv, queue⟩ := told (taken_not_fails taken) (single act)
      obtain ⟨t_rgv, -, t_force, t_frame, -, t_queue, t_held⟩ := done.fields
      rw [rgv, queue, gridOutcome_of_act (r := r) (by rw [t_rgv, run]) act taken, joinItem_of_room (by rw [t_queue]; exact room)]
      exact ⟨by rw [t_queue]; rfl, by rw [t_rgv]⟩
    · obtain ⟨t, done, rgv, -⟩ := told (taken_not_fails (.inl ready)) (itemRepeats_of_ready (by simp [ready]))
      obtain ⟨t_rgv, -, t_force, t_frame, -⟩ := done.fields
      rw [rgv, ready]
      exact gridOutcome_delivers_congr run at_read t_rgv t_force t_frame _
    · have repeats : itemRepeats it h = true := by
        rw [itemRepeats_of_limit (by simpa [at_read] using retry) discard not_ready]; simpa using below
      obtain ⟨t, done, complete_eq⟩ := complete_of_repeating_item slot service no_reset queue
        (taken_not_fails (.inr not_ready)) repeats
      obtain ⟨t_rgv, -, -, -, -, t_queue, -⟩ := done.fields
      rw [complete_eq, (keeps t).1, (keeps t).2]
      exact ⟨t_queue, t_rgv⟩
    · have ends : itemRepeats it h = false := by
        rw [itemRepeats_of_limit (by simpa [at_read] using retry) discard not_ready]; simpa using used
      obtain ⟨t, done, rgv, queue⟩ := told (taken_not_fails (.inr not_ready)) ends
      obtain ⟨t_rgv, -, -, t_frame, -, t_queue, -⟩ := done.fields
      have t_run : t.rgv.check.run = some r := by rw [t_rgv, run]
      rw [rgv, queue, not_ready, gridOutcome_of_not_ready t_run at_read, gridFailed_slc t_run, gridFailed_rgv t_run, t_rgv, t_frame]
      exact ⟨t_queue, rfl⟩
    · have fails_with : ∀ w, h.outcome.fails → (∀ t, t.rgv.check.run = some r →
          gridOutcome h.outcome h.data t = gridFailed r w t) →
          (complete h s).slc.queue = its ∧ (complete h s).rgv = failed w := fun w fails outcome => by
        have ready : h.outcome ≠ .takenNotReady := by rcases fails with h | h | h <;> simp [h]
        obtain ⟨t, done, rgv, queue⟩ := told (fun _ => stays) (itemRepeats_of_ready ready)
        obtain ⟨t_rgv, -, -, t_frame, -, t_queue, -⟩ := done.fields
        have t_run : t.rgv.check.run = some r := by rw [t_rgv, run]
        rw [rgv, queue, outcome t t_run, gridFailed_slc t_run, gridFailed_rgv t_run, t_rgv, t_frame]
        exact ⟨t_queue, rfl⟩
      refine ⟨fun out => ?_, fun out => ?_, fun out => ?_⟩
      · exact fails_with .untaken (.inl out) fun t t_run => by rw [out]; exact (gridOutcome_of_fails t_run _).1
      · exact fails_with .noReply (.inr (.inl out)) fun t t_run => by rw [out]; exact (gridOutcome_of_fails t_run _).2.1
      · exact fails_with .check (.inr (.inr out)) fun t t_run => by rw [out]; exact (gridOutcome_of_fails t_run _).2.2
    · obtain ⟨rgv, -, queue⟩ := complete_of_excluded_grid slot service no_reset tolerate queue mine run fails station free
        reaches room addr named
      exact ⟨rgv, queue⟩

end Sys2Proof.Machine
end

section
/-! SUPPORT. The steering supply check (R155 to R159): its part of a computation, the outcomes handed to it, its items in the
service queue; and the steering governor's computation with no bit of the image flipped (R148). -/

namespace Sys2Proof.Machine

/-! ### The computation (R148) -/

/-- The image entry of a signal, as a read with no bit flipped hands it on. -/
def State.entry (id : Nat) (s : State) : ImageEntry := ((s.sgs.image[id - 1]?).map (·.val)).getD .initial

/-- The steering governor's own values after its computation, ahead of the check's part and of the staged outputs. -/
def sgvComputed (target rate : Int) (s : State) : Sgv :=
  accStep s.hli.force (s.entry 30) (supplyStep (s.entry 29) (trackCompute s.sgv.run.isSome (s.entry 28)
    { s.sgv with ac := nextAngle s.sgv.run.isSome s.hli.force rate target (s.entry 28) s.sgv.ac }))

/-- What the computation stages for the posting of its frame. -/
def sgvStages (gov : Gov) (target rate : Int) (s : State) : SgvStaged :=
  let v := sgvComputed target rate s
  ⟨s.slc.frameNo, valveCommand s.sgv.run.isSome (s.entry 28) v.ac, yawBias gov s.hli.force s.sgs.vspd v.ac,
    ⟨v.track, v.accLow, v.supply⟩⟩

theorem computeSgv_eq {s : State} (sound : ∀ p ∈ s.sgs.image, p.flips = []) (gov : Gov) (target rate : Int) :
    computeSgv gov target rate s = steerWatch (s.entry 30)
      { s with sgv := { sgvComputed target rate s with staged := some (sgvStages gov target rate s) } } := by
  simp only [computeSgv, readImage_sound sound]
  rfl

theorem trackCompute_eq (running : Bool) (ang : ImageEntry) (v : Sgv) : trackCompute running ang v =
    if ang.quality.usable && !running then v.ac.elim v fun a => trackStep (a - ang.value).natAbs v else v := by
  unfold trackCompute
  cases v.ac with
  | none => simp
  | some a => rfl

/-- The computation keeps the run, the mark and the result record. -/
theorem sgvComputed_keeps (target rate : Int) (s : State) : (sgvComputed target rate s).run = s.sgv.run
    ∧ (sgvComputed target rate s).isolation = s.sgv.isolation ∧ (sgvComputed target rate s).result = s.sgv.result := by
  have track : ∀ running ang v, (trackCompute running ang v).run = v.run ∧ (trackCompute running ang v).isolation = v.isolation
      ∧ (trackCompute running ang v).result = v.result := fun running ang v => by
    rw [trackCompute_eq]
    cases v.ac with
    | none => simp
    | some a => simp only [Option.elim, trackStep]; split <;> simp
  have supply : ∀ e v, (supplyStep e v).run = v.run ∧ (supplyStep e v).isolation = v.isolation
      ∧ (supplyStep e v).result = v.result := fun e v => by
    unfold supplyStep; split_ifs <;> simp
  have acc : ∀ g e v, (accStep g e v).run = v.run ∧ (accStep g e v).isolation = v.isolation
      ∧ (accStep g e v).result = v.result := fun g e v => by
    unfold accStep; split_ifs <;> simp
  simp only [sgvComputed, acc, supply, track, true_and]

/-! ### The check's part of the computation (R157, R158; log 60, 64) -/

section
variable {r : SteerRun} {s : State} (run : s.sgv.run = some r) (e : ImageEntry)
include run

theorem steerAbort_run (c : ProcCause) :
    (steerAbort c s).sgv.run = some { r with phase := .release, pending := abortPending c r.pending } := by
  rw [steerAbort_of_run run, toRelease_sgv]

theorem steerWatch_of_moving (moving : atRest s = false) : steerWatch e s = steerAbort .moved s := by
  simp [steerWatch, moving, steerAbort_run run]

theorem steerWatch_of_settle (rest : atRest s = true) (settle : r.phase = .settle) (fresh : e.quality = .fresh) :
    steerWatch e s = { s with sgv.run := some { r with phase := .watch, init := some e.value, watched := 0 } } := by
  simp [steerWatch, rest, run, settle, fresh]

theorem steerWatch_of_watch (rest : atRest s = true) (watch : r.phase = .watch) (fresh : e.quality = .fresh)
    (below : r.watched < 19) : steerWatch e s = { s with sgv.run := some { r with watched := r.watched + 1 } } := by
  simp [steerWatch, rest, run, watch, fresh, Nat.not_le.2 below]

theorem steerWatch_of_last (rest : atRest s = true) (watch : r.phase = .watch) (fresh : e.quality = .fresh)
    (last : r.watched = 19) : steerWatch e s = watchEnd r e.value s := by
  simp [steerWatch, rest, run, watch, fresh, last]

theorem steerWatch_of_not_fresh (rest : atRest s = true) (phase : r.phase = .settle ∨ r.phase = .watch)
    (stale : e.quality ≠ .fresh) : steerWatch e s = steerAbort .accNotFresh s := by
  obtain settle | watch := phase
  · simp [steerWatch, rest, run, settle, stale]
  · simp [steerWatch, rest, run, watch, stale]

theorem steerWatch_of_other (rest : atRest s = true) (phase : r.phase = .isolate ∨ r.phase = .release) :
    steerWatch e s = s := by
  obtain isolate | release := phase
  · simp [steerWatch, rest, run, isolate]
  · simp [steerWatch, rest, run, release]

/-! ### The outcomes handed to the check (R157 to R159) -/

theorem steerOutcome_of_isolate_taken (isolate : r.phase = .isolate) {o : ExOutcome}
    (taken : o = .takenReady ∨ o = .takenNotReady) :
    steerOutcome o s = { s with sgv.run := some { r with phase := .settle } } := by
  obtain rfl | rfl := taken <;> simp [steerOutcome, run, isolate]

theorem steerOutcome_of_isolate_fails (isolate : r.phase = .isolate) {o : ExOutcome} (fails : o.fails) :
    steerOutcome o s = steerAbort .exchange s := by
  obtain rfl | rfl | rfl := fails <;> simp [steerOutcome, run, isolate]

theorem steerOutcome_of_isolate_lost (isolate : r.phase = .isolate) :
    steerOutcome .excluded s = steerAbort .stationExcluded s ∧ steerOutcome .loopDown s = steerAbort .loopDown s := by
  simp [steerOutcome, run, isolate]

theorem steerOutcome_of_release_taken (release : r.phase = .release) {o : SteerOutcome} {c : ProcCause}
    (pending : r.pending = some (o, c)) {x : ExOutcome} (taken : x = .takenReady ∨ x = .takenNotReady) :
    steerOutcome x s = steerEnd r o c false { s with sgv.isolation := false } := by
  obtain rfl | rfl := taken <;> simp [steerOutcome, run, release, steerReleased, pending]

theorem steerOutcome_of_release_lost (release : r.phase = .release) {o : SteerOutcome} {c : ProcCause}
    (pending : r.pending = some (o, c)) {x : ExOutcome} (lost : x = .untaken ∨ x = .noReply ∨ x = .check ∨ x = .loopDown) :
    steerOutcome x s = steerEnd r (if o = .pass then .fail else o) c true s := by
  obtain rfl | rfl | rfl | rfl := lost <;> simp [steerOutcome, run, release, steerReleased, pending]

theorem steerOutcome_of_release_excluded (release : r.phase = .release) {o : SteerOutcome} {c : ProcCause}
    (pending : abortPending .stationExcluded r.pending = some (o, c)) (not_pass : o ≠ .pass) :
    steerOutcome .excluded s =
      steerEnd { r with pending := abortPending .stationExcluded r.pending } o c true s := by
  simp [steerOutcome, run, release, steerReleased, pending, not_pass]

end

/-- What an outcome makes of the steering governor rests on the governor and the frame number. -/
theorem steerOutcome_sgv_congr {s t : State} (sgv : t.sgv = s.sgv) (frame : t.slc.frameNo = s.slc.frameNo)
    (o : ExOutcome) : (steerOutcome o t).sgv = (steerOutcome o s).sgv := by
  have aborts : ∀ c, (steerAbort c t).sgv = (steerAbort c s).sgv := fun c => by
    cases run : s.sgv.run with
    | none => rw [steerAbort_of_idle run, steerAbort_of_idle (sgv ▸ run), sgv]
    | some r => rw [steerAbort_of_run run, steerAbort_of_run (sgv ▸ run), toRelease_sgv, toRelease_sgv, sgv]
  have releases : ∀ w r, (steerReleased w r t).sgv = (steerReleased w r s).sgv := fun w r => by
    cases w <;> simp [steerReleased, steerEnd_sgv, sgv, frame]
  cases run : s.sgv.run with
  | none => rw [(steer_idle run).2.1, (steer_idle (sgv ▸ run)).2.1, sgv]
  | some r =>
    simp only [steerOutcome, sgv, run]
    cases o <;> by_cases phase : r.phase = .release <;> simp [phase, aborts, releases]

/-- An end of the check leaves the station loop. -/
theorem steerEnd_slc (r : SteerRun) (o : SteerOutcome) (c : ProcCause) (u : Bool) (s : State) :
    (steerEnd r o c u s).slc = s.slc := by
  simp [steerEnd]

/-! ### The release ACT in the queue (R157, R158) -/

theorem removeItems_of_none {c : Claimant} {s : State} (queue : ∀ it ∈ s.slc.queue, it.claimant ≠ c)
    (held : s.slc.held = []) : removeItems c s = s := by
  have kept : ∀ l : List Item, (∀ it ∈ l, it.claimant ≠ c) → l.filter (fun it => !(it.claimant == c)) = l := fun l h =>
    List.filter_eq_self.2 fun it mem => by simpa using h it mem
  have head : (s.slc.queue.take 1).map (fun it => if (it.claimant == c) = true then { it with discard := true } else it) =
      s.slc.queue.take 1 := by
    conv_rhs => rw [← List.map_id (s.slc.queue.take 1)]
    exact List.map_congr_left fun it mem => by simp [queue it (List.mem_of_mem_take mem)]
  simp only [removeItems, kept _ queue, head, kept _ fun it mem => queue it (List.mem_of_mem_drop mem), List.take_append_drop,
    ite_self, held, List.filter_nil, joinHeld, List.take_nil, List.drop_nil, List.append_nil]
  rw [← held]

/-- Of an empty slot the abort takes the claimant's items out of the whole queue. -/
theorem removeItems_of_no_slot {c : Claimant} {s : State} (slot : s.slc.slot = none) (held : s.slc.held = []) :
    removeItems c s = { s with slc.queue := s.slc.queue.filter (·.claimant != c) } := by
  simp only [removeItems, headInSlot, slot, held, List.filter_nil, joinHeld, List.take_nil, List.drop_nil, List.append_nil]
  rw [← held]
  rfl

theorem joinHeld_queue_of_room {s : State} (room : s.items.length ≤ 8) : (joinHeld s).slc.queue = s.items := by
  have : s.slc.held.length ≤ 8 - s.slc.queue.length := by
    have := room; simp only [State.items, List.length_append] at this; omega
  simp [joinHeld, State.items, List.take_of_length_le this]

end Sys2Proof.Machine
end

section
/-! The steering supply check, from its start to its end (R155 to R159). -/

namespace Sys2Proof.Machine

/-! ### STEER-CHECK-START (R156) -/

theorem takeSteerCheckStart_eq (tag : Byte) (s : State) : takeSteerCheckStart tag s =
    if s.dsc.gov ≠ .standby then s.turnedAway 0x92 tag .state .notStandby (govCode s.dsc.gov)
    else if atRest s = false then s.turnedAway 0x92 tag .state .notAtRest 0
    else if s.dsc.stopLine then s.turnedAway 0x92 tag .state .stopAsserted 0
    else if s.sgv.run.isSome then s.turnedAway 0x92 tag .state .procRunning 2
    else if s.hli.force.serviceBudget = 0 then s.turnedAway 0x92 tag .state .noServiceBudget 5
    else if s.slc.loopState ≠ .up then s.turnedAway 0x92 tag .state .loopNotUp (loopCode s.slc.loopState)
    else if isExcluded (steerStation s) s = true then s.turnedAway 0x92 tag .state .stationExcluded (steerStation s)
    else (joinItem (steerItem (steerStation s) 1)
      { s with sgv.run := some ⟨.isolate, steerStation s, s.slc.frameNo, none, none, 0, none⟩ }).answered 0x92 tag [] := by
  have refused : ∀ d q, refuse 0x12 tag .state d q s = s.turnedAway 0x92 tag .state d q := fun d q => refuse_eq (by decide) ..
  have answered : ∀ t : State, done 0x12 tag [] t = t.answered 0x92 tag [] := fun t => done_eq (by decide) ..
  simp only [takeSteerCheckStart, refused, answered, loopNotUp_iff, Bool.not_eq_true']

/-! ### Going to RELEASE (R157, R158) -/

/-- The release ACT joined last: after every item of the other claimants, and the only one of the check's own, unless one
is in its slot. -/
def ReleaseJoined (addr : Nat) (s t : State) : Prop :=
  t.items.getLast? = some (steerItem addr 0)
    ∧ (s.slc.slot = none → t.items.filter (·.claimant == .steerCheck) = [steerItem addr 0])
    ∧ t.items.filter (·.claimant != .steerCheck) = s.items.filter (·.claimant != .steerCheck)

theorem toRelease_joins {r : SteerRun} (phase : r.phase ≠ .release) (p : Option (SteerOutcome × ProcCause)) {s u : State}
    (slc : u.slc = s.slc) : ReleaseJoined r.addr s (toRelease r p u) := by
  obtain ⟨-, last, only, others⟩ := toRelease_spec r p u phase
  dsimp only at last only others
  rw [slc] at only others
  exact ⟨last, only, others⟩

/-- The record and the mark stay through an abort, and through the check's part of a computation. -/
theorem steerAbort_record (c : ProcCause) (s : State) :
    (steerAbort c s).sgv.result = s.sgv.result ∧ (steerAbort c s).sgv.isolation = s.sgv.isolation := by
  cases run : s.sgv.run with
  | none => rw [steerAbort_of_idle run]; exact ⟨rfl, rfl⟩
  | some r => rw [steerAbort_of_run run, toRelease_sgv]; exact ⟨rfl, rfl⟩

theorem steerWatch_record (e : ImageEntry) (s : State) :
    (steerWatch e s).sgv.result = s.sgv.result ∧ (steerWatch e s).sgv.isolation = s.sgv.isolation := by
  simp only [steerWatch, watchEnd]
  (repeat' split) <;> simp [steerAbort_record, toRelease_sgv]

/-! ### An ACT of the check at the head of the queue (R57, R58) -/

theorem tellClaimant_of_steer {it : Item} (mine : it.claimant = .steerCheck) (discard : it.discard = false) (h : Heard)
    (s : State) : tellClaimant it h s = steerOutcome h.outcome s := by
  rw [tellClaimant, discard, mine]
  rfl

/-- A failed isolate ACT, out of the queue, leaves the release ACT at its tail. -/
theorem toRelease_queue_of_no_slot {r : SteerRun} (phase : r.phase ≠ .release) (p : Option (SteerOutcome × ProcCause))
    {s : State} (slot : s.slc.slot = none) (held : s.slc.held = []) (room : s.slc.queue.length < 8) :
    (toRelease r p s).slc.queue = s.slc.queue.filter (·.claimant != .steerCheck) ++ [steerItem r.addr 0] := by
  have fits : (s.slc.queue.filter (·.claimant != .steerCheck)).length < 8 := (List.length_filter_le ..).trans_lt room
  rw [toRelease, if_neg phase, removeItems_of_no_slot slot held, joinItem_of_room (by exact fits)]

theorem joinItem_of_cons_order {it : Item} {its : List Item} {s : State} (queue : s.slc.queue = it :: its)
    (full : s.slc.queue.length < 8 → s.slc.held = []) (j : Item) :
    ∃ rest, (joinItem j s).slc.queue = it :: rest ∧ rest ++ (joinItem j s).slc.held = its ++ s.slc.held ++ [j] := by
  obtain ⟨rest, rest_queue, -⟩ := joinItem_of_cons queue j
  have order := joinItem_order j s full
  rw [rest_queue, queue] at order
  exact ⟨rest, rest_queue, List.tail_eq_of_cons_eq order⟩

/-- An abort that meets the isolate ACT in its slot: the ACT is discarded, and the release ACT is last behind the items of
the others. -/
theorem toRelease_of_head_in_slot {r : SteerRun} {it : Item} {its : List Item} {s : State} (phase : r.phase ≠ .release)
    (p : Option (SteerOutcome × ProcCause)) (in_slot : headInSlot s = true) (queue : s.slc.queue = it :: its)
    (mine : it.claimant = .steerCheck) :
    ∃ rest, (toRelease r p s).slc.queue = { it with discard := true } :: rest
      ∧ rest ++ (toRelease r p s).slc.held =
        (its ++ s.slc.held).filter (·.claimant != .steerCheck) ++ [steerItem r.addr 0] := by
  obtain ⟨kept, kept_queue, kept_items⟩ := removeItems_of_head_in_slot .steerCheck in_slot queue
  rw [mine, beq_self_eq_true, Bool.or_true] at kept_queue
  obtain ⟨rest, rest_queue, rest_items⟩ := joinItem_of_cons_order
    (s := { removeItems .steerCheck s with sgv.run := some { r with phase := .release, pending := p } })
    kept_queue (joinHeld_full _) (steerItem r.addr 0)
  rw [toRelease, if_neg phase]
  refine ⟨rest, rest_queue.trans (by rw [mine]), rest_items.trans ?_⟩
  rw [← kept_items]

theorem steerReleased_slc (w : Bool) (r : SteerRun) (s : State) : (steerReleased w r s).slc = s.slc := by
  cases w <;> simp [steerReleased, steerEnd_slc]

theorem steerOutcome_slc_of_release {r : SteerRun} {s : State} (run : s.sgv.run = some r) (release : r.phase = .release)
    (o : ExOutcome) : (steerOutcome o s).slc = s.slc := by
  cases o <;> simp [steerOutcome, run, release, steerReleased_slc]

theorem steerOutcome_slc_of_taken {o : ExOutcome} (taken : o = .takenReady ∨ o = .takenNotReady) (s : State) :
    (steerOutcome o s).slc = s.slc := by
  cases run : s.sgv.run with
  | none => rw [(steer_idle run).2.1]
  | some r =>
    by_cases release : r.phase = .release
    · exact steerOutcome_slc_of_release run release o
    · obtain rfl | rfl := taken <;> simp [steerOutcome, run, release]

/-! ### A failure that takes the check's station to EXCLUDED (R158) -/

section
variable {r : SteerRun} {it : Item} {its : List Item} {x : SlotEx} {h : Heard} {s : State} {st : Station}
  (slot : s.slc.slot = some x) (service : x.claim = .service) (no_reset : x.afterReset = false)
  (tolerate : x.tolerate = false) (queue : s.slc.queue = it :: its) (mine : it.claimant = .steerCheck)
  (held : s.slc.held = []) (run : s.sgv.run = some r) (failed : h.outcome.fails)
  (station : stationAt x.addr s = some st) (free : st.state ≠ .excluded)
  (reaches : s.hli.force.streakExclude ≤ st.streak + 1) (low : st.streak < 255) (addr : x.addr = r.addr)
  (no_grid : s.rgv.check.run = none)
include tolerate run failed station free reaches low addr no_grid

theorem heardState_of_excluded_steer : ∃ d fl cs, heardState x h s =
    { toRelease r (abortPending .stationExcluded r.pending) { s with slc.dir := d, hli.flags := fl } with
      slc.slot := none, hli.counters := cs } := by
  obtain ⟨d, fl, directory⟩ := applyDirectory_of_excluded failed tolerate station free reaches low
  obtain ⟨cs, heard⟩ := heardState_eq x h s
  refine ⟨d, fl, cs, heard.trans ?_⟩
  have no_check : gridStationExcluded x.addr { s with slc.dir := d, hli.flags := fl } =
      { s with slc.dir := d, hli.flags := fl } := by simp [gridStationExcluded, no_grid]
  have aborted : steerStationExcluded x.addr { s with slc.dir := d, hli.flags := fl } =
      toRelease r (abortPending .stationExcluded r.pending) { s with slc.dir := d, hli.flags := fl } := by
    simp [steerStationExcluded, steerAbort, run, addr]
  rw [directory, no_check, aborted]

include slot service no_reset queue mine held

/-- The isolate ACT in its slot is discarded, and the release ACT is left at the tail. -/
theorem complete_of_excluded_isolate (room : its.length < 8) (isolate : r.phase = .isolate) :
    (complete h s).slc.queue = its.filter (·.claimant != .steerCheck) ++ [steerItem r.addr 0]
      ∧ (complete h s).sgv = { s.sgv with
        run := some { r with phase := .release, pending := abortPending .stationExcluded r.pending } } := by
  obtain ⟨d, fl, cs, heard⟩ := heardState_of_excluded_steer tolerate run failed station free reaches low addr no_grid
  obtain ⟨rest, rest_queue, rest_items⟩ := toRelease_of_head_in_slot (r := r) (s := { s with slc.dir := d, hli.flags := fl })
    (by simp [isolate]) (abortPending .stationExcluded r.pending) (by simp [headInSlot, slot, service]) queue mine
  have heard_queue : (heardState x h s).slc.queue = { it with discard := true } :: rest := by rw [heard]; exact rest_queue
  have heard_held : rest ++ (heardState x h s).slc.held = its.filter (·.claimant != .steerCheck) ++ [steerItem r.addr 0] := by
    have none_held : its ++ s.slc.held = its := by rw [held, List.append_nil]
    rw [heard]
    exact rest_items.trans (by rw [none_held])
  have fits : (rest ++ (heardState x h s).slc.held).length ≤ 8 := by
    rw [heard_held, List.length_append]
    exact Nat.succ_le_of_lt ((List.length_filter_le ..).trans_lt room)
  have completes : complete h s = endService (popHead (heardState x h s)) := by
    rw [complete_service slot service no_reset, serviceOutcome_of_discard heard_queue rfl]
  have popped : (popHead (heardState x h s)).slc.queue = rest ++ (heardState x h s).slc.held := by
    rw [popHead, heard_queue, List.tail_cons, joinHeld_queue_of_room (by exact fits)]
  constructor
  · rw [completes, (endService_keeps _).2.1, popped, heard_held]
  · rw [completes]
    have keeps : (endService (popHead (heardState x h s))).sgv = (heardState x h s).sgv := by simp
    rw [keeps, heard]
    exact toRelease_sgv ..

/-- In RELEASE the abort meets the pending outcome alone, and the release ACT's outcome then ends the run. -/
theorem complete_of_excluded_release (discard : it.discard = false) (single : it.retry = none)
    (release : r.phase = .release) :
    (complete h s).slc.queue = its
      ∧ (complete h s).sgv = (steerOutcome h.outcome { s with
        sgv.run := some { r with pending := abortPending .stationExcluded r.pending } }).sgv := by
  obtain ⟨d, fl, cs, heard⟩ := heardState_of_excluded_steer tolerate run failed station free reaches low addr no_grid
  rw [toRelease_of_release release] at heard
  have heard_queue : (heardState x h s).slc.queue = it :: its := by rw [heard]; exact queue
  have heard_held : (heardState x h s).slc.held = [] := by rw [heard]; exact held
  have heard_sgv : (heardState x h s).sgv =
      { s.sgv with run := some { r with pending := abortPending .stationExcluded r.pending } } := by rw [heard]
  have heard_frame : (heardState x h s).slc.frameNo = s.slc.frameNo := by rw [heard]
  have completes : complete h s = endService (steerOutcome h.outcome (popHead (heardState x h s))) := by
    rw [complete_service slot service no_reset, serviceOutcome_of_ends heard_queue (itemRepeats_of_single single h),
      tellClaimant_of_steer mine discard]
  have keeps : ∀ u : State, (endService u).sgv = u.sgv := fun u => by simp
  have popped : popHead (heardState x h s) = { heardState x h s with slc.queue := its } := by
    rw [popHead_of_none_held heard_held, heard_queue]; rfl
  constructor
  · rw [completes, (endService_keeps _).2.1, popped]
    exact congrArg (·.queue) (steerOutcome_slc_of_release (s := { heardState x h s with slc.queue := its })
      (r := { r with pending := abortPending .stationExcluded r.pending }) (congrArg (·.run) heard_sgv) release h.outcome)
  · rw [completes, keeps, popped]
    exact steerOutcome_sgv_congr (t := { heardState x h s with slc.queue := its }) (s := { s with
      sgv.run := some { r with pending := abortPending .stationExcluded r.pending } }) heard_sgv heard_frame h.outcome

end

/-- Settles O52. -/
theorem steeringCheckStartsWatchesAndReleases : Obligations.SteeringCheckStartsWatchesAndReleases := by
  refine ⟨?start, ?phases, ?watchEnd, ?ends, ?inRun⟩
  case start =>
    intro tag s can_take tag_ne no a
    rw [exec_take (c := .steerCheckStart tag) rfl can_take tag_ne (by simp) (.inr rfl)]
    refine (congrArg Host.Outcome.next (takeSteerCheckStart_eq tag s)).trans ?_
    simp only [apply_ite Host.Outcome.next]
    rfl
  case phases =>
    intro aborted joinsLast releases
    have aborted_eq : ∀ c p, aborted c p = abortPending c p := fun c p => by
      obtain _ | ⟨o, c⟩ := p
      · rfl
      · cases o <;> rfl
    have joins : ∀ r s t, ReleaseJoined r.addr s t → joinsLast r s t := fun r s t h => h
    have abort_releases : ∀ {r : SteerRun} {s u : State} (c), u.sgv.run = some r → u.slc = s.slc →
        releases r c s (steerAbort c u) := fun {r s u} c run slc => by
      refine ⟨by rw [steerAbort_run run, aborted_eq], fun release => ?_, fun phase => ?_⟩
      · rw [steerAbort_of_run run, toRelease_of_release release]
        exact ⟨congrArg (·.queue) slc, congrArg (·.held) slc⟩
      · rw [steerAbort_of_run run]
        exact joins _ _ _ (toRelease_joins phase _ slc)
    refine ⟨?outcomes, ?computation⟩
    case outcomes =>
      intro r x s run isolate t
      obtain ⟨excluded, loopDown⟩ := steerOutcome_of_isolate_lost run isolate
      refine ⟨fun taken => steerOutcome_of_isolate_taken run isolate taken, fun fails => ?_, fun out => ?_, fun down => ?_, ?_⟩
      · rw [show t = _ from steerOutcome_of_isolate_fails run isolate fails]; exact abort_releases _ run rfl
      · rw [show t = _ from (congrArg (steerOutcome · s) out).trans excluded]; exact abort_releases _ run rfl
      · rw [show t = _ from (congrArg (steerOutcome · s) down).trans loopDown]; exact abort_releases _ run rfl
      · have aborts : ∀ c, t = steerAbort c s → t.sgv.result = s.sgv.result ∧ t.sgv.isolation = s.sgv.isolation :=
          fun c h => by rw [h]; exact steerAbort_record c s
        have takes : t = { s with sgv.run := some { r with phase := .settle } } →
          t.sgv.result = s.sgv.result ∧ t.sgv.isolation = s.sgv.isolation := fun h => by rw [h]; exact ⟨rfl, rfl⟩
        cases x with
        | takenReady => exact takes (steerOutcome_of_isolate_taken run isolate (.inl rfl))
        | takenNotReady => exact takes (steerOutcome_of_isolate_taken run isolate (.inr rfl))
        | untaken => exact aborts _ (steerOutcome_of_isolate_fails run isolate (.inl rfl))
        | noReply => exact aborts _ (steerOutcome_of_isolate_fails run isolate (.inr (.inl rfl)))
        | check => exact aborts _ (steerOutcome_of_isolate_fails run isolate (.inr (.inr rfl)))
        | excluded => exact aborts _ excluded
        | loopDown => exact aborts _ loopDown
    case computation =>
      intro gov target rate r s run sound t e keeps
      let u : State := { s with sgv := { sgvComputed target rate s with staged := some (sgvStages gov target rate s) } }
      have t_eq : t = steerWatch e u := computeSgv_eq sound gov target rate
      obtain ⟨keeps_run, u_isolation, u_result⟩ := sgvComputed_keeps target rate s
      have u_run : u.sgv.run = some r := keeps_run.trans run
      obtain ⟨result, isolation⟩ := steerWatch_record e u
      have rest_eq : atRest u = atRest s := rfl
      clear_value t e
      subst t_eq
      refine ⟨fun rest settle fresh => ?_, fun rest watch fresh below => ?_, fun init rest watch fresh last init_eq => ?_,
        fun rest phase stale => ?_, fun rest phase => ?_, fun moving => ?_, result.trans u_result, isolation.trans u_isolation⟩
      · simp only [keeps]; rw [steerWatch_of_settle u_run e rest settle fresh]; exact ⟨rfl, rfl⟩
      · simp only [keeps]; rw [steerWatch_of_watch u_run e rest watch fresh below]; exact ⟨rfl, rfl⟩
      · rw [steerWatch_of_last u_run e rest watch fresh last]
        refine ⟨?_, joins _ _ _ (toRelease_joins (by simp [watch]) _ rfl)⟩
        rw [watchEnd, toRelease_sgv, init_eq, watchOutcome]
        rfl
      · rw [steerWatch_of_not_fresh u_run e rest phase stale]; exact abort_releases _ u_run rfl
      · simp only [keeps]; rw [steerWatch_of_other u_run e rest phase]; exact ⟨u_run, rfl⟩
      · rw [steerWatch_of_moving u_run e moving]; exact abort_releases _ u_run rfl
  case watchEnd =>
    intro r init e s live run watch watched init_eq image fresh queue held room none_held
    have read : readImage 30 s = (e, s) := by simp [readImage, image]
    refine (live_of_run steerWatchEnd live).trans (congrArg _ ?_)
    have ended : steerWatchEnd s = watchEnd r e.value s := by simp [steerWatchEnd, run, watch, watched, read, fresh]
    rw [ended, watchEnd, toRelease, if_neg (by simp [watch]), removeItems_of_none queue none_held,
      joinItem_of_room (by exact room), init_eq]
    rfl
  case ends =>
    intro r o c x s run release pending
    refine ⟨fun taken => steerOutcome_of_release_taken run release pending taken, fun lost => ?_, fun out phase => ?_,
      fun out phase => ?_⟩
    · exact steerOutcome_of_release_lost run release pending lost
    · have aborted : abortPending .stationExcluded r.pending = some (.aborted, .stationExcluded) := by
        obtain rfl | rfl := phase <;> rw [pending] <;> rfl
      rw [out, steerOutcome_of_release_excluded run release aborted (by simp)]
      rfl
    · have stands : abortPending .stationExcluded r.pending = some (o, c) := by
        obtain rfl | rfl := phase <;> rw [pending] <;> rfl
      rw [out, steerOutcome_of_release_excluded run release stands (by obtain rfl | rfl := phase <;> simp)]
      rfl
  case inRun =>
    intro c h it its x r s live slot service no_reset tolerate queue mine discard retry room held run phase row release taken
      failed others
    have completes : exec c s = .next (complete h s) := exec_completes live slot row
    have ends : itemRepeats it h = false := itemRepeats_of_single retry h
    /- The ACT's outcome, told to the check with no station taken out. -/
    have told : (h.outcome.fails → staysOut x s) → ∃ t, SlotDone its t s
        ∧ (complete h s).sgv = (steerOutcome h.outcome s).sgv
        ∧ (complete h s).slc.queue = (steerOutcome h.outcome t).slc.queue := fun stays => by
      obtain ⟨t, done, complete_eq⟩ := complete_of_ending_item slot service no_reset queue held stays ends
      obtain ⟨-, t_sgv, -, t_frame, -⟩ := done.fields
      have keeps : ∀ u : State, (endService u).sgv = u.sgv ∧ (endService u).slc.queue = u.slc.queue := fun u => by simp
      rw [complete_eq, tellClaimant_of_steer mine discard, (keeps _).1, (keeps _).2]
      exact ⟨t, done, steerOutcome_sgv_congr t_sgv t_frame _, rfl⟩
    refine ⟨_, completes, complete_service_slot slot service no_reset h, fun taken => ?_, fun failed stays => ?_,
      fun st failed station free reaches low addr no_grid => ?_⟩
    · obtain ⟨t, done, sgv, queue⟩ := told fun fails => by
        obtain taken | taken := taken <;> obtain h | h | h := fails <;> exact absurd (taken.symm.trans h) (by simp)
      obtain ⟨-, t_sgv, -, -, -, t_queue, -⟩ := done.fields
      rw [sgv, queue, steerOutcome_slc_of_taken taken, t_queue]
      exact ⟨rfl, rfl⟩
    · obtain ⟨t, done, sgv, queue⟩ := told fun _ => stays
      obtain ⟨-, t_sgv, -, -, t_slot, t_queue, t_held⟩ := done.fields
      have t_run : t.sgv.run = some r := by rw [t_sgv, run]
      refine ⟨sgv, queue.trans ?_⟩
      obtain isolate | at_release := phase
      · rw [steerOutcome_of_isolate_fails t_run isolate failed, steerAbort_of_run t_run,
          toRelease_queue_of_no_slot (by simp [isolate]) _ t_slot (t_held.trans held) (by rw [t_queue]; exact room), t_queue,
          if_pos isolate]
        rfl
      · rw [steerOutcome_slc_of_release t_run at_release, t_queue, if_neg (by simp [at_release])]
    · intro pending
      have pending_eq : pending = abortPending .stationExcluded r.pending := by
        simp only [pending]
        obtain _ | ⟨o, c⟩ := r.pending
        · rfl
        · cases o <;> rfl
      clear_value pending
      subst pending_eq
      exact ⟨fun isolate => complete_of_excluded_isolate slot service no_reset tolerate queue mine held run failed
          station free reaches low addr no_grid room isolate,
        fun at_release => complete_of_excluded_release slot service no_reset tolerate queue mine held run failed
          station free reaches low addr no_grid discard retry at_release⟩

end Sys2Proof.Machine
end

section
/-! The steering governor's counts, angles and valve command (R148 to R154). -/

namespace Sys2Proof.Machine

/-! ### What the check's part of a computation leaves (R157, R158) -/

theorem toRelease_only_run (r : SteerRun) (p : Option (SteerOutcome × ProcCause)) (s : State) :
    (toRelease r p s).sgv = { s.sgv with run := (toRelease r p s).sgv.run } := by
  rw [toRelease_sgv]

theorem steerAbort_only_run (c : ProcCause) (s : State) :
    (steerAbort c s).sgv = { s.sgv with run := (steerAbort c s).sgv.run } := by
  cases run : s.sgv.run with
  | none => rw [steerAbort_of_idle run]
  | some r => rw [steerAbort_of_run run]; exact toRelease_only_run ..

/-- The check's part of a computation moves its run alone in the steering governor; of the rest only the queue and the
items held. -/
theorem steerWatch_only (e : ImageEntry) (s : State) : (steerWatch e s).sgv = { s.sgv with run := (steerWatch e s).sgv.run }
    ∧ (steerWatch e s).hli = s.hli ∧ OnlyQueue (steerWatch e s) s := by
  by_cases rest : atRest s = true
  · cases run : s.sgv.run with
    | none => rw [(steer_idle run).2.2.2.2.1]; simp
    | some r =>
      by_cases other : r.phase = .isolate ∨ r.phase = .release
      · rw [steerWatch_of_other run e rest other]; simp
      have phase : r.phase = .settle ∨ r.phase = .watch := by cases h : r.phase <;> simp_all
      by_cases fresh : e.quality = .fresh
      · obtain settle | watch := phase
        · rw [steerWatch_of_settle run e rest settle fresh]; simp
        · by_cases below : r.watched < 19
          · rw [steerWatch_of_watch run e rest watch fresh below]; simp
          · have ended : steerWatch e s = watchEnd r e.value s := by
              simp [steerWatch, rest, run, watch, fresh, Nat.not_lt.1 below]
            rw [ended, watchEnd]
            exact ⟨toRelease_only_run .., toRelease_hli .., (toRelease_frame ..).2⟩
      · rw [steerWatch_of_not_fresh run e rest phase fresh]
        exact ⟨steerAbort_only_run .., steerAbort_hli .., (steerAbort_frame ..).2⟩
  · cases run : s.sgv.run with
    | none => rw [(steer_idle run).2.2.2.2.1]; simp
    | some r =>
      rw [steerWatch_of_moving run e (by simpa using rest)]
      exact ⟨steerAbort_only_run .., steerAbort_hli .., (steerAbort_frame ..).2⟩

/-! ### Angles and valve (R149, R150, R152) -/

/-- A move toward the target stays between, and is a whole step until it is there. -/
theorem moveAngle_spec {step : Int} (nonneg : 0 ≤ step) (a target : Int) :
    (a ≤ target → a ≤ moveAngle a target step ∧ moveAngle a target step ≤ target ∧ moveAngle a target step ≤ a + step
        ∧ (moveAngle a target step < target → moveAngle a target step = a + step))
      ∧ (target ≤ a → target ≤ moveAngle a target step ∧ moveAngle a target step ≤ a ∧ a - step ≤ moveAngle a target step
        ∧ (target < moveAngle a target step → moveAngle a target step = a - step)) := by
  unfold moveAngle
  split_ifs <;> omega

theorem clamp_bounds {lo hi : Int} (h : lo ≤ hi) (x : Int) : lo ≤ clamp lo hi x ∧ clamp lo hi x ≤ hi := by
  unfold clamp
  omega

theorem valveCommand_bounds (running : Bool) (ang : ImageEntry) (ac : Option Int) :
    -1000 ≤ valveCommand running ang ac ∧ valveCommand running ang ac ≤ 1000 := by
  unfold valveCommand
  split
  · split
    · omega
    · exact clamp_bounds (by omega) _
  · omega

/-- Half a number, rounded toward zero. -/
theorem tdiv_two (x : Int) : (0 ≤ x → x.tdiv 2 = x / 2) ∧ (x ≤ 0 → x.tdiv 2 = -(-x / 2)) := by
  refine ⟨fun h => Int.tdiv_eq_ediv_of_nonneg h, fun h => ?_⟩
  rw [← Int.tdiv_eq_ediv_of_nonneg (by omega), Int.neg_tdiv, neg_neg]

theorem yawBias_some (gov : Gov) (g : Settings) (v : Derived) (a : Int) : yawBias gov g v (some a) =
    if (gov = .drive ∨ gov = .safeHold) ∧ 300 < a.natAbs ∧ v.quality.usable = true ∧ 50 ≤ v.value ∧ v.value ≤ 400 then
      if 0 < a then g.yawGain * a / 400 else -(g.yawGain * (-a) / 400)
    else 0 := by
  by_cases governs : (gov = .drive ∨ gov = .safeHold) ∧ 300 < a.natAbs ∧ v.quality.usable = true ∧ 50 ≤ v.value ∧ v.value ≤ 400
  · rw [yawBias, if_pos governs, if_pos governs]
    have size : ((g.yawGain * a.natAbs / 400 : Nat) : Int) = (g.yawGain : Int) * |a| / 400 := by
      push_cast
      rfl
    rw [size]
    by_cases pos : 0 < a
    · rw [if_pos pos, Int.sign_eq_one_of_pos pos, abs_of_pos pos, one_mul]
    · have neg : a < 0 := by obtain ⟨-, big, -⟩ := governs; omega
      rw [if_neg pos, Int.sign_eq_neg_one_of_neg neg, abs_of_neg neg, neg_one_mul]
  · rw [yawBias, if_neg governs, if_neg governs]

/-! ### Counts (R151, R153, R154) -/

/-- The counts and the condition of the tracking after a computation, by its gap. -/
theorem trackStep_counts (gap : Nat) (v : Sgv) :
    ((trackStep gap v).wide, (trackStep gap v).narrow, (trackStep gap v).track) =
      if 500 < gap then (v.wide + 1, 0, v.track || decide (10 ≤ v.wide + 1))
      else if 200 < gap then (0, 0, v.track)
      else (0, v.narrow + 1, v.track && decide (v.narrow + 1 < 10)) := by
  by_cases wide : 500 < gap
  · have : ¬ gap ≤ 200 := by omega
    by_cases reaches : 10 ≤ v.wide + 1 <;> simp [trackStep, wide, this, reaches]
  · by_cases mid : 200 < gap
    · have : ¬ gap ≤ 200 := by omega
      simp [trackStep, wide, mid, this]
    · have : gap ≤ 200 := by omega
      by_cases reaches : 10 ≤ v.narrow + 1
      · simp [trackStep, wide, mid, this, reaches, Nat.not_lt.2 reaches]
      · simp [trackStep, wide, mid, this, reaches, Nat.not_le.1 reaches]

theorem supplyStep_counts (prs : ImageEntry) (v : Sgv) : ((supplyStep prs v).supplyCount, (supplyStep prs v).supply) =
    if prs.quality = .bad then (v.supplyCount, true)
    else if prs.quality.usable = false then (v.supplyCount, v.supply)
    else if prs.value < 1200 then (v.supplyCount + 1, v.supply || decide (3 ≤ v.supplyCount + 1))
    else (0, false) := by
  unfold supplyStep
  split_ifs <;> simp_all

theorem accStep_counts (g : Settings) (acc : ImageEntry) (v : Sgv) : ((accStep g acc v).accCount, (accStep g acc v).accLow) =
    if acc.quality.usable = false then (v.accCount, v.accLow)
    else if acc.value < 100 * g.accMin then (v.accCount + 1, v.accLow || decide (3 ≤ v.accCount + 1))
    else (0, v.accLow && decide (acc.value < 100 * g.accMin + 50)) := by
  unfold accStep
  rw [mul_comm (g.accMin : Int) 100]
  split_ifs <;> simp_all

/-- Each step of the computation leaves the values of the others. -/
theorem sgvComputed_parts (target rate : Int) (s : State) :
    let v := sgvComputed target rate s
    let tracked := trackCompute s.sgv.run.isSome (s.entry 28)
      { s.sgv with ac := nextAngle s.sgv.run.isSome s.hli.force rate target (s.entry 28) s.sgv.ac }
    let supplied := supplyStep (s.entry 29) s.sgv
    let charged := accStep s.hli.force (s.entry 30) s.sgv
    v.ac = nextAngle s.sgv.run.isSome s.hli.force rate target (s.entry 28) s.sgv.ac
      ∧ (v.wide, v.narrow, v.track) = (tracked.wide, tracked.narrow, tracked.track)
      ∧ (v.supplyCount, v.supply) = (supplied.supplyCount, supplied.supply)
      ∧ (v.accCount, v.accLow) = (charged.accCount, charged.accLow) ∧ v.cond = s.sgv.cond := by
  have track : ∀ running ang v, (trackCompute running ang v).ac = v.ac
      ∧ (trackCompute running ang v).supplyCount = v.supplyCount ∧ (trackCompute running ang v).supply = v.supply
      ∧ (trackCompute running ang v).accCount = v.accCount ∧ (trackCompute running ang v).accLow = v.accLow
      ∧ (trackCompute running ang v).cond = v.cond := fun running ang v => by
    rw [trackCompute_eq]
    cases ac : v.ac with
    | none => simp [ac]
    | some a => simp only [Option.elim, trackStep]; split <;> simp [ac]
  have supply : ∀ e v, (supplyStep e v).ac = v.ac ∧ (supplyStep e v).wide = v.wide ∧ (supplyStep e v).narrow = v.narrow
      ∧ (supplyStep e v).track = v.track ∧ (supplyStep e v).accCount = v.accCount ∧ (supplyStep e v).accLow = v.accLow
      ∧ (supplyStep e v).cond = v.cond := fun e v => by
    unfold supplyStep; split_ifs <;> simp
  have acc : ∀ g e v, (accStep g e v).ac = v.ac ∧ (accStep g e v).wide = v.wide ∧ (accStep g e v).narrow = v.narrow
      ∧ (accStep g e v).track = v.track ∧ (accStep g e v).supplyCount = v.supplyCount ∧ (accStep g e v).supply = v.supply
      ∧ (accStep g e v).cond = v.cond := fun g e v => by
    unfold accStep; split_ifs <;> simp
  refine ⟨?_, ?_, ?_, ?_, ?_⟩
  · simp only [sgvComputed, acc, supply, track]
  · simp only [sgvComputed, acc, supply]
  · simp only [sgvComputed, acc, supplyStep_counts, track]
  · simp only [sgvComputed, accStep_counts, supply, track]
  · simp only [sgvComputed, acc, supply, track]

/-- Settles O53. -/
theorem steeringCountsAnglesAndValve : Obligations.SteeringCountsAnglesAndValve := by
  refine ⟨?rows, ⟨?angles, ?valve⟩, ?yaw, ?computation⟩
  case rows =>
    intro s live
    have exec_rows : exec .steerTrackArise s = .next (steerTrackArise s) ∧ exec .steerTrackGo s = .next (steerTrackGo s)
        ∧ exec .steerSupplyArise s = .next (steerSupplyArise s) ∧ exec .accLowArise s = .next (accLowArise s) :=
      ⟨live_of_run steerTrackArise live, live_of_run steerTrackGo live, live_of_run steerSupplyArise live,
        live_of_run accLowArise live⟩
    obtain ⟨arise, go, supply, low⟩ := exec_rows
    rw [arise, go, supply, low]
    refine ⟨fun halted => ?_, fun gov count absent => ?_, fun gov count present => ?_, fun gov count absent => ?_,
      fun gov count absent => ?_⟩
    · simp [steerTrackArise, steerTrackGo, steerSupplyArise, accLowArise, halted]
    · simp [steerTrackArise, gov, count, absent]
    · simp [steerTrackGo, gov, count, present]
    · simp [steerSupplyArise, gov, count, absent]
    · simp [accLowArise, gov, count, absent]
  case angles =>
    intro g rate target a ang nonneg step
    have step_nonneg : 0 ≤ step := Int.ediv_nonneg (by positivity) (by norm_num)
    exact ⟨rfl, rfl, rfl, _, rfl, moveAngle_spec step_nonneg a target⟩
  case valve =>
    intro ang ac running
    obtain ⟨lower, upper⟩ := valveCommand_bounds running ang ac
    refine ⟨lower, upper, fun still => ?_, fun a commanded idle usable => ?_⟩
    · cases ac with
      | none => rfl
      | some a => obtain h | h | h := still <;> simp_all [valveCommand]
    · have value : valveCommand running ang ac = clamp (-1000) 1000 ((a - ang.value).tdiv 2) := by
        rw [commanded, valveCommand, idle, usable]; rfl
      obtain ⟨up, down⟩ := tdiv_two (a - ang.value)
      rw [value, clamp]
      refine ⟨fun wide => ?_, fun wide => ?_, fun h1 h2 => ?_⟩
      · have := up (by omega); split_ifs <;> omega
      · have := down (by omega); split_ifs <;> omega
      · rw [if_neg (by omega), if_neg (by omega)]
  case yaw =>
    intro gov g v
    exact ⟨rfl, yawBias_some gov g v⟩
  case computation =>
    intro gov target rate s sound t g entry ang prs acc running ac counts
    let u : State := { s with sgv := { sgvComputed target rate s with staged := some (sgvStages gov target rate s) } }
    have t_eq : t = steerWatch acc u := computeSgv_eq sound gov target rate
    obtain ⟨sgv, hli, queue⟩ := steerWatch_only acc u
    obtain ⟨v_ac, v_track, v_supply, v_acc, v_cond⟩ := sgvComputed_parts target rate s
    rw [← t_eq] at sgv hli queue
    have wide : t.sgv.wide = (sgvComputed target rate s).wide := congrArg (·.wide) sgv
    have narrow : t.sgv.narrow = (sgvComputed target rate s).narrow := congrArg (·.narrow) sgv
    have track : t.sgv.track = (sgvComputed target rate s).track := congrArg (·.track) sgv
    have supply : t.sgv.supply = (sgvComputed target rate s).supply := congrArg (·.supply) sgv
    have low : t.sgv.accLow = (sgvComputed target rate s).accLow := congrArg (·.accLow) sgv
    have counts_eq : counts t.sgv = counts (trackCompute running ang { s.sgv with ac := ac }) := by
      simp only [counts, wide, narrow, track]; exact v_track
    refine ⟨(congrArg (·.ac) sgv).trans v_ac, fun still => ?_, fun a commanded usable idle => ?_, ?_, ?_, ?_, ?_, ?_⟩
    · rw [counts_eq, trackCompute_eq]
      obtain h | h | h := still <;> simp [h, counts]
    · rw [counts_eq, trackCompute_eq, usable, idle, commanded]
      exact trackStep_counts (a - ang.value).natAbs _
    · rw [supply, show t.sgv.supplyCount = _ from congrArg (·.supplyCount) sgv]
      exact v_supply.trans (supplyStep_counts ..)
    · rw [low, show t.sgv.accCount = _ from congrArg (·.accCount) sgv]
      exact v_acc.trans (accStep_counts ..)
    · rw [track, low, supply, show t.sgv.staged = _ from congrArg (·.staged) sgv]
      show some (sgvStages gov target rate s) = _
      rw [sgvStages, v_ac]
      rfl
    · exact (congrArg (·.cond) sgv).trans v_cond
    · have frame := steerWatch_frame acc u
      rw [← t_eq] at frame
      simp only [OnlySlcSgvHli] at frame
      simp only [OnlyQueue] at queue
      simp only [frame, queue, hli]
      rfl

end Sys2Proof.Machine
end

section
/-! SUPPORT. Reading the recorder's ring through the integrity monitor (R178): what a read leaves, and what it hands on with
no bit flipped. -/

namespace Sys2Proof.Machine

/-! ### What reads of the ring leave -/

/-- The words of the ring's records, without the flipped bits. -/
abbrev State.ringWords (s : State) : List (Nat × List RingWord) := s.trc.ring.map fun r => (r.base, r.words.map (·.val))

/-- `t` is `s` after reads of the ring: its words are the same, and only flipped bits, monitor counts and flags moved. -/
def RingRead (t s : State) : Prop :=
  t.ringWords = s.ringWords ∧ ∃ ring imn flags, t = { s with trc.ring := ring, imn := imn, hli.flags := flags }

theorem RingRead.refl (s : State) : RingRead s s := ⟨rfl, s.trc.ring, s.imn, s.hli.flags, rfl⟩

theorem RingRead.trans {u t s : State} (h : RingRead u t) (h' : RingRead t s) : RingRead u s := by
  obtain ⟨words, ring, imn, flags, rfl⟩ := h
  obtain ⟨words', ring', imn', flags', rfl⟩ := h'
  exact ⟨words.trans words', ring, imn, flags, rfl⟩

/-- Reads of the ring leave the number of its records, and every field but flipped bits, monitor and flags. -/
theorem RingRead.fields {t s : State} (h : RingRead t s) :
    t.trc.ring.length = s.trc.ring.length ∧ t.trc = { s.trc with ring := t.trc.ring }
      ∧ t.hli = { s.hli with flags := t.hli.flags } ∧ t.slc = s.slc ∧ t.sgs = s.sgs ∧ t.dsc = s.dsc := by
  obtain ⟨words, ring, imn, flags, rfl⟩ := h
  refine ⟨?_, rfl, rfl, rfl, rfl, rfl⟩
  simpa [State.ringWords] using congrArg List.length words

theorem RingRead.recK {t s : State} (h : RingRead t s) : recK t = recK s := by
  obtain ⟨-, ring, imn, flags, rfl⟩ := h
  rfl

theorem readRingWord_read (p w : Nat) (s : State) : RingRead (readRingWord p w s).2.2 s := by
  unfold readRingWord
  split
  · exact .refl s
  · rename_i r at_p
    split
    · exact .refl s
    · rename_i x at_w
      split
      · exact .refl s
      · refine ⟨?_, _, _, _, rfl⟩
        have same : (r.base, (r.words.set w ⟨x.val, []⟩).map (·.val)) = (r.base, r.words.map (·.val)) := by
          obtain ⟨h, rfl⟩ := List.getElem?_eq_some_iff.1 at_w
          rw [List.map_set]
          congr 1
          exact List.ext_getElem (by simp) fun i _ _ => by
            by_cases i_eq : w = i <;> simp [i_eq]
        show (s.trc.ring.set p _).map _ = s.trc.ring.map _
        obtain ⟨h, rfl⟩ := List.getElem?_eq_some_iff.1 at_p
        rw [List.map_set, same]
        exact List.ext_getElem (by simp) fun i _ _ => by
          by_cases i_eq : p = i <;> simp [i_eq]
      · exact ⟨rfl, _, _, _, rfl⟩

theorem readRingWords_read (p : Nat) (ws : List Nat) (s : State) : RingRead (readRingWords p ws s).2.2 s := by
  induction ws generalizing s with
  | nil => exact .refl s
  | cons w ws ih => exact (ih _).trans (readRingWord_read p w s)

theorem readRecord_read (p : Nat) (s : State) : RingRead (readRecord p s).2.2 s := readRingWords_read ..

theorem readRecords_read (ps : List Nat) (s : State) : RingRead (readRecords ps s).2 s := by
  induction ps generalizing s with
  | nil => exact .refl s
  | cons p ps ih => exact (ih _).trans (readRecord_read p s)

/-! ### A ring with no bit flipped -/

/-- Every record has its words, and no bit of them is flipped. -/
def SoundRing (s : State) : Prop := ∀ r ∈ s.trc.ring, r.words.length = recK s + 3 ∧ ∀ w ∈ r.words, w.flips = []

theorem readRingWord_sound {p w : Nat} {r : RingRecord} {s : State} (at_p : s.trc.ring[p]? = some r)
    (sound : ∀ x ∈ r.words, x.flips = []) (lt : w < r.words.length) :
    readRingWord p w s = (r.words[w].val, false, s) := by
  simp [readRingWord, at_p, List.getElem?_eq_getElem lt, sound r.words[w] (List.getElem_mem lt)]

theorem readRingWords_sound {p : Nat} {r : RingRecord} {s : State} (at_p : s.trc.ring[p]? = some r)
    (sound : ∀ x ∈ r.words, x.flips = []) (ws : List Nat) (lt : ∀ w ∈ ws, w < r.words.length) :
    readRingWords p ws s = (ws.map (fun w => (r.words.map (·.val)).getD w 0), false, s) := by
  induction ws with
  | nil => rfl
  | cons w ws ih =>
    have here := lt w (List.mem_cons_self ..)
    have rest := ih fun x mem => lt x (List.mem_cons_of_mem _ mem)
    simp [readRingWords, readRingWord_sound at_p sound here, rest, here]

/-- A record with no bit flipped is handed on as it stands, and its read changes nothing. -/
theorem readRecord_sound {p : Nat} {r : RingRecord} {s : State} (sound : SoundRing s) (at_p : s.trc.ring[p]? = some r) :
    readRecord p s = (r.words.map (·.val), false, s) := by
  obtain ⟨length, flips⟩ := sound r (List.mem_of_getElem? at_p)
  rw [readRecord, readRingWords_sound at_p flips _ (by simp [length])]
  congr 1
  exact List.ext_getElem (by simp [length]) fun i h _ => by
    have : i < r.words.length := by simpa [length] using h
    simp [this]

theorem readRecords_sound {s : State} (sound : SoundRing s) (c n : Nat) (fits : c + n ≤ s.trc.ring.length) :
    readRecords ((List.range n).map (c + ·)) s =
      (((s.trc.ring.drop c).take n).map (fun r => recordBytes (r.words.map (·.val)) false), s) := by
  have general : ∀ ps : List Nat, (lt : ∀ p ∈ ps, p < s.trc.ring.length) → readRecords ps s =
      (ps.map fun p => recordBytes (((s.trc.ring[p]?).map (·.words.map (·.val))).getD []) false, s) := fun ps => by
    induction ps with
    | nil => intro _; rfl
    | cons p ps ih =>
      intro lt
      have here := lt p (List.mem_cons_self ..)
      have rest := ih fun x mem => lt x (List.mem_cons_of_mem _ mem)
      have read := readRecord_sound sound (List.getElem?_eq_getElem here)
      simp only [readRecords, read, rest, List.map_cons, List.getElem?_eq_getElem here, Option.map_some, Option.getD_some]
  rw [general _ (by simp; omega), List.map_map]
  congr 1
  exact List.ext_getElem (by simp; omega) fun i h _ => by
    have : c + i < s.trc.ring.length := by simp at h; omega
    simp [this]

/-! ### STREAM reads (R168, R169) -/

/-- The state after a STREAM read: reads of the ring, then the unread count and its announcement. -/
theorem takeUnread_eq (n : Nat) (s : State) : ∃ u, RingRead u s
    ∧ u = (readRecords ((List.range n).map (s.trc.ring.length - s.trc.unread + ·)) s).2
    ∧ takeUnread n s = ((readRecords ((List.range n).map (s.trc.ring.length - s.trc.unread + ·)) s).1,
      { u with trc.unread := s.trc.unread - n
               trc.announced := s.trc.announced && decide (s.trc.params.block ≤ s.trc.unread - n) }) := by
  have read := readRecords_read ((List.range n).map (s.trc.ring.length - s.trc.unread + ·)) s
  obtain ⟨-, trc, -⟩ := read.fields
  refine ⟨_, read, rfl, ?_⟩
  have unread : (readRecords ((List.range n).map (s.trc.ring.length - s.trc.unread + ·)) s).2.trc.unread = s.trc.unread := by
    rw [trc]
  have params : (readRecords ((List.range n).map (s.trc.ring.length - s.trc.unread + ·)) s).2.trc.params = s.trc.params := by
    rw [trc]
  have announced : (readRecords ((List.range n).map (s.trc.ring.length - s.trc.unread + ·)) s).2.trc.announced =
      s.trc.announced := by rw [trc]
  simp only [takeUnread, unread, params, announced]

theorem takeUnread_unread (n : Nat) (s : State) : (takeUnread n s).2.trc.unread = s.trc.unread - n := by
  obtain ⟨u, -, -, taken⟩ := takeUnread_eq n s
  rw [taken]

theorem takeUnread_deferred (n : Nat) (s : State) : (takeUnread n s).2.hli = { s.hli with flags := (takeUnread n s).2.hli.flags } := by
  obtain ⟨u, read, -, taken⟩ := takeUnread_eq n s
  obtain ⟨-, -, hli, -⟩ := read.fields
  rw [taken]
  exact hli

end Sys2Proof.Machine
end

section
/-! The recorder starts, stops and reports (R165, R166, R173). -/

namespace Sys2Proof.Machine

theorem recK_eq_zero_iff (s : State) : recK s = 0 ↔ ∀ e ∈ s.trc.recset, e = none := by
  simp [recK, List.length_eq_zero_iff, List.filterMap_eq_nil_iff]

theorem recorder_at_rest_iff (st : RecState) : (st ≠ .idle ∧ st ≠ .frozen) ↔ (st = .running ∨ st = .post) := by
  cases st <;> decide

theorem recorder_not_recording_iff (st : RecState) : (st ≠ .running ∧ st ≠ .post) ↔ (st = .idle ∨ st = .frozen) := by
  cases st <;> decide

/-- The recorder stopped, ahead of a waiting read's answer. -/
def State.recordStopped (s : State) : State :=
  { s with trc.st := .idle, trc.cursor := if s.trc.params.capture then 0 else s.trc.cursor }

theorem takeRecordStop_of_recording {s : State} (recording : s.trc.st = .running ∨ s.trc.st = .post) (tag : Byte) :
    takeRecordStop tag s =
      if s.hli.deferred.map (·.kind) = some .recordRead then
        (deferredReply (.done (streamBytes (takeUnread s.trc.unread s.recordStopped).1
          (takeUnread s.trc.unread s.recordStopped).2 true)) (takeUnread s.trc.unread s.recordStopped).2).answered 0x95 tag []
      else s.recordStopped.answered 0x95 tag [] := by
  have not_refused : ¬ (s.trc.st ≠ .running ∧ s.trc.st ≠ .post) := by
    rw [recorder_not_recording_iff]
    obtain h | h := recording <;> simp [h]
  have answered : ∀ t : State, done 0x15 tag [] t = t.answered 0x95 tag [] := fun t => done_eq (by decide) ..
  by_cases waits : s.hli.deferred.map (·.kind) = some .recordRead
  · simp only [takeRecordStop, if_neg not_refused, answered, waits, beq_self_eq_true, if_true]
    rfl
  · have waits_not : (s.hli.deferred.map (·.kind) == some .recordRead) = false := by simpa using waits
    simp only [takeRecordStop, if_neg not_refused, answered, waits_not, Bool.false_eq_true, if_false, if_neg waits]
    rfl

/-- Settles O54. -/
theorem recorderStartsStopsAndReports : Obligations.RecorderStartsStopsAndReports := by
  refine ⟨?start, ?stop⟩
  case start =>
    intro tag s can_take tag_ne g
    rw [exec_take (c := .recordStart tag) rfl can_take tag_ne (by simp) (.inr rfl)]
    have refused : ∀ d q, refuse 0x14 tag .state d q s = s.turnedAway 0x94 tag .state d q := fun d q => refuse_eq (by decide) ..
    have answered : ∀ t : State, done 0x14 tag [] t = t.answered 0x94 tag [] := fun t => done_eq (by decide) ..
    have taken : takeRecordStart tag s =
        if s.trc.st = .running ∨ s.trc.st = .post then s.turnedAway 0x94 tag .state .recorderRunning 0
        else if s.trc.find.isSome then s.turnedAway 0x94 tag .state .findRunning 0
        else if (∀ e ∈ s.trc.recset, e = none) then s.turnedAway 0x94 tag .state .noRecordSet 0
        else { emptyRing s with
          trc.params := ⟨g.recordMode == 1, g.recordBlock, g.recordPost, g.recordTrigger == 1⟩
          trc.st := .running }.answered 0x94 tag [] := by
      simp only [takeRecordStart, refused, answered, recorder_at_rest_iff, recK_eq_zero_iff]
      rfl
    refine (congrArg Host.Outcome.next taken).trans ?_
    simp only [apply_ite Host.Outcome.next]
    rfl
  case stop =>
    intro tag s can_take tag_ne stopped
    have taken : exec (.recordStop tag) s = .next (takeRecordStop tag s) :=
      exec_take (c := .recordStop tag) rfl can_take tag_ne (by simp) (.inr rfl)
    refine ⟨fun at_rest => ?_, fun recording none_waits => ?_, fun w recording waits => ?_, ?_⟩
    · rw [taken, takeRecordStop, if_pos ((recorder_not_recording_iff _).2 at_rest)]
      exact congrArg _ (refuse_eq (by decide) ..)
    · have none_waits' : ¬ s.hli.deferred.map (·.kind) = some .recordRead := by
        cases deferred : s.hli.deferred with
        | none => simp
        | some d => simpa using none_waits d deferred
      rw [taken, takeRecordStop_of_recording recording, if_neg none_waits']
      rfl
    · intro q rs t
      have still_waits : (takeUnread s.trc.unread s.recordStopped).2.hli.deferred = some ⟨.recordRead, w⟩ := by
        rw [takeUnread_deferred]; exact waits
      have still_tx : (takeUnread s.trc.unread s.recordStopped).2.hli.tx = s.hli.tx := by
        rw [takeUnread_deferred]; rfl
      refine ⟨?_, (takeUnread_unread s.trc.unread s.recordStopped).trans (Nat.sub_self _)⟩
      rw [taken, takeRecordStop_of_recording recording, if_pos (by simp [waits]), deferredReply_of_some still_waits, still_tx]
      rfl
    · intro p stamp
      rw [exec_take (c := .recordStatus tag) rfl can_take tag_ne (by simp) (.inr rfl)]
      exact congrArg _ (done_eq (by decide) ..)

end Sys2Proof.Machine
end

section
/-! RECORD-READ and RECORD-FIND (R169, R171, R172). -/

namespace Sys2Proof.Machine

/-! ### RECORD-READ (R169, R171) -/

/-- A request whose owner leaves the deferred slot does not ask for it. -/
theorem asksSlot_of_keeps {c : Instr} {s : State}
    (keeps : (take c { s with hli.rx := [] }).hli.deferred = s.hli.deferred) : asksSlot c s = false := by
  have not_taken : (s.hli.deferred.isNone && (take c { s with hli.rx := [] }).hli.deferred.isSome) = false := by
    rw [keeps]; cases s.hli.deferred <;> rfl
  unfold asksSlot
  split
  exacts [not_taken, not_taken, not_taken, not_taken, not_taken, rfl]

theorem streamReply_eq (tag : Byte) (n : Nat) (ended : Bool) (s : State) : streamReply tag n ended s =
    (takeUnread n s).2.answered 0x97 tag (streamBytes (takeUnread n s).1 (takeUnread n s).2 ended) :=
  done_eq (by decide) ..

/-- A STREAM read with a block unread, or with the recorder not RUNNING, is answered at once. -/
theorem takeRecordRead_of_stream {s : State} (stream : s.trc.params.capture = false)
    (ready : s.trc.st = .running → s.trc.params.block ≤ s.trc.unread) (tag flags : Byte) : takeRecordRead tag flags s =
      streamReply tag (min s.trc.params.block s.trc.unread) (decide (s.trc.unread < s.trc.params.block)) s := by
  by_cases running : s.trc.st = .running
  · have block := ready running
    simp [takeRecordRead, stream, streamRead, running, block, Nat.not_lt.2 block]
  · simp [takeRecordRead, stream, streamRead, running]

/-- A STREAM read in RUNNING with less than a block unread: refused, or it takes the free slot. -/
theorem takeRecordRead_of_short {s : State} (stream : s.trc.params.capture = false) (running : s.trc.st = .running)
    (short : s.trc.unread < s.trc.params.block) (tag flags : Byte) : takeRecordRead tag flags s =
      if flags.getLsbD 0 = false then s.turnedAway 0x97 tag .resource .notReady 0
      else if s.hli.deferred.isSome then s.turnedAway 0x97 tag .resource .deferBusy 0
      else { s with hli.deferred := some ⟨.recordRead, tag⟩ } := by
  have refused : ∀ d q, refuse 0x17 tag .resource d q s = s.turnedAway 0x97 tag .resource d q :=
    fun d q => refuse_eq (by decide) ..
  simp only [takeRecordRead, stream, Bool.false_eq_true, if_false, streamRead, running, if_true, Nat.not_le.2 short, refused,
    Bool.not_eq_true']
  rfl

theorem takeRecordRead_of_recording {s : State} (capture : s.trc.params.capture = true)
    (recording : s.trc.st = .running ∨ s.trc.st = .post) (tag flags : Byte) :
    takeRecordRead tag flags s = s.turnedAway 0x97 tag .state .recorderRunning 0 := by
  rw [takeRecordRead, if_pos capture, captureRead, if_pos recording]
  exact refuse_eq (by decide) ..

/-- Where a CAPTURE read begins. -/
def captureFrom (flags : Byte) (s : State) : Nat := if flags.getLsbD 1 then 0 else s.trc.cursor

/-- How many records a CAPTURE read carries. -/
def captureCount (flags : Byte) (s : State) : Nat := min s.trc.params.block (s.trc.ring.length - captureFrom flags s)

theorem takeRecordRead_of_capture {s : State} (capture : s.trc.params.capture = true)
    (at_rest : s.trc.st = .idle ∨ s.trc.st = .frozen) (tag flags : Byte) : takeRecordRead tag flags s =
      let q := readRecords ((List.range (captureCount flags s)).map (captureFrom flags s + ·)) s
      { q.2 with trc.cursor := captureFrom flags s + captureCount flags s }.answered 0x97 tag
        (vList id q.1 ++ vCount (captureFrom flags s)
          ++ vMark (decide (s.trc.ring.length - captureFrom flags s < s.trc.params.block))) := by
  have not_recording : ¬ (s.trc.st = .running ∨ s.trc.st = .post) := by
    obtain h | h := at_rest <;> simp [h]
  rw [takeRecordRead, if_pos capture, captureRead, if_neg not_recording]
  exact done_eq (by decide) ..

theorem readRecords_deferred (ps : List Nat) (s : State) : (readRecords ps s).2.hli.deferred = s.hli.deferred := by
  obtain ⟨-, -, hli, -⟩ := (readRecords_read ps s).fields
  rw [hli]

/-- RECORD-READ asks for the deferred slot in one case: STREAM, RUNNING, less than a block unread, the wait flag set. -/
theorem takeRecordRead_deferred {s : State} (h : s.trc.params.capture = true ∨ (s.trc.st = .running →
    s.trc.params.block ≤ s.trc.unread) ∨ flags.getLsbD 0 = false) (tag : Byte) :
    (takeRecordRead tag flags s).hli.deferred = s.hli.deferred := by
  by_cases capture : s.trc.params.capture = true
  · by_cases at_rest : s.trc.st = .idle ∨ s.trc.st = .frozen
    · rw [takeRecordRead_of_capture capture at_rest]
      exact readRecords_deferred ..
    · rw [takeRecordRead_of_recording capture (by cases st : s.trc.st <;> simp_all)]
      rfl
  have stream : s.trc.params.capture = false := by simpa using capture
  by_cases ready : s.trc.st = .running → s.trc.params.block ≤ s.trc.unread
  · rw [takeRecordRead_of_stream stream ready, streamReply_eq]
    show (takeUnread _ s).2.hli.deferred = _
    rw [takeUnread_deferred]
  · obtain ⟨running, short⟩ := Classical.not_imp.1 ready
    have no_wait : flags.getLsbD 0 = false := by tauto
    rw [takeRecordRead_of_short stream running (Nat.not_le.1 short), if_pos no_wait]
    rfl

/-! ### RECORD-FIND (R172; log 17) -/

theorem findScan_read (pos cmp : Nat) (want : Int) (ps : List Nat) (k : Nat) (s : State) :
    RingRead (findScan pos cmp want ps k s).2 s := by
  induction ps generalizing k s with
  | nil => exact .refl s
  | cons p ps ih =>
    have read := readRecord_read p s
    simp only [findScan]
    split
    · exact (ih _ _).trans read
    · split
      · exact read
      · exact (ih _ _).trans read

/-- A record that a scan finds is one of those scanned. -/
theorem findScan_found {pos cmp : Nat} {want : Int} {ps : List Nat} {k p f : Nat} {s : State}
    (found : (findScan pos cmp want ps k s).1.found = some (p, f)) : p ∈ ps := by
  induction ps generalizing k s with
  | nil => simp [findScan] at found
  | cons q ps ih =>
    simp only [findScan] at found
    split at found
    · exact List.mem_cons_of_mem _ (ih found)
    · split at found
      · have : q = p := by simpa using congrArg (Option.map Prod.fst) found
        exact this ▸ List.mem_cons_self ..
      · exact List.mem_cons_of_mem _ (ih found)

/-- A word of the ring as a scan reads it. -/
def State.ringWord (s : State) (p w : Nat) : RingWord := (((s.trc.ring[p]?).bind (·.words[w]?)).map (·.val)).getD 0

/-- Whether the record at a position meets the test of a scan. -/
def State.scanHits (s : State) (pos cmp : Nat) (want : Int) (p : Nat) : Bool :=
  findMatches cmp want (s.ringWord p (3 + pos)).toInt ((s.ringWord p 2).toNat / 4 ^ pos % 4)

/-- In a ring with no bit flipped the scan ends at its first hit, skips nothing and changes nothing. -/
theorem findScan_sound {s : State} (sound : SoundRing s) (pos cmp : Nat) (want : Int) (ps : List Nat) (k : Nat)
    (lt : ∀ p ∈ ps, p < s.trc.ring.length) : findScan pos cmp want ps k s =
      (⟨(ps.find? (s.scanHits pos cmp want)).map fun p => (p, (s.ringWord p 0).toNat), k⟩, s) := by
  induction ps with
  | nil => rfl
  | cons p ps ih =>
    have here := lt p (List.mem_cons_self ..)
    have rest := ih fun x mem => lt x (List.mem_cons_of_mem _ mem)
    have read := readRecord_sound sound (List.getElem?_eq_getElem here)
    have word : ∀ w, (s.trc.ring[p].words.map (·.val)).getD w 0 = s.ringWord p w := fun w => by
      simp [State.ringWord, here, List.getD_eq_getElem?_getD]
    simp only [findScan, read, Bool.false_eq_true, if_false, word, rest, List.find?_cons, State.scanHits]
    split <;> simp_all

theorem findMatches_iff {cmp : Byte} (le : cmp.toNat ≤ 2) (want v : Int) (mark : Nat) :
    findMatches cmp.toNat want v mark = true ↔
      if cmp = 0#8 then mark ≠ 0 ∧ want ≤ v else if cmp = 1#8 then mark ≠ 0 ∧ v ≤ want else mark ≠ 3 := by
  obtain rfl | rfl | rfl : cmp = 0#8 ∨ cmp = 1#8 ∨ cmp = 2#8 := by bv_omega
  · simp [findMatches]
  · simp [findMatches]
  · simp [findMatches]

end Sys2Proof.Machine
end

section
/-! RECORD-READ and RECORD-FIND as taken, and the end of a scan (R169, R171, R172). -/

namespace Sys2Proof.Machine

/-- RECORD-FIND: the checks in their order, and the scan that is made when all hold (R172). -/
theorem takeRecordFind_eq (tag pos cmp start : Byte) (value : BitVec 32) (s : State) :
    takeRecordFind tag pos cmp start value s =
      if recK s ≤ pos.toNat then s.turnedAway 0x98 tag .range .field 1
      else if 2 < cmp.toNat then s.turnedAway 0x98 tag .range .field 2
      else if 1 < start.toNat then s.turnedAway 0x98 tag .range .field 3
      else if ¬ (s.trc.st = .frozen ∨ s.trc.st = .idle ∧ s.trc.params.capture = true) then
        s.turnedAway 0x98 tag .state .notCaptured (recStateCode s.trc.st)
      else if s.hli.deferred.isSome then s.turnedAway 0x98 tag .resource .deferBusy 0
      else
        let q := findScan pos.toNat cmp.toNat value.toInt
          ((List.range s.trc.ring.length).drop (if start = 0#8 then 0 else s.trc.cursor)) 0 s
        { q.2 with trc.find := some q.1, hli.deferred := some ⟨.recordFind, tag⟩ } := by
  have refused : ∀ c d q, refuse 0x18 tag c d q s = s.turnedAway 0x98 tag c d q := fun c d q => refuse_eq (by decide) ..
  have start_iff : start.toNat = 0 ↔ start = 0#8 := by bv_omega
  have captured : (!(s.trc.st == .frozen || (s.trc.st == .idle && s.trc.params.capture))) = true ↔
      ¬ (s.trc.st = .frozen ∨ s.trc.st = .idle ∧ s.trc.params.capture = true) := by simp; tauto
  simp only [takeRecordFind, refused, start_iff, captured]
  rfl

/-- The positions a scan goes over. -/
theorem mem_scanned {p c n : Nat} : p ∈ (List.range n).drop c ↔ c ≤ p ∧ p < n := by
  rw [List.range_eq_range', List.drop_range']
  simp only [List.mem_range', Nat.zero_add, Nat.mul_one, Nat.one_mul]
  constructor
  · rintro ⟨i, lt, rfl⟩; omega
  · rintro ⟨le, lt⟩; exact ⟨p - c, by omega, by omega⟩

theorem find?_scanned_eq_some {hit : Nat → Bool} {p c n : Nat} (le : c ≤ p) (lt : p < n) (hits : hit p = true)
    (first : ∀ q, c ≤ q → q < p → ¬ hit q = true) : ((List.range n).drop c).find? hit = some p := by
  rw [List.range_eq_range', List.drop_range', List.find?_range'_eq_some]
  refine ⟨hits, by simp; omega, fun j h1 h2 => by simpa using first j (by omega) h2⟩

theorem find?_scanned_eq_none {hit : Nat → Bool} {c n : Nat} (misses : ∀ p, c ≤ p → p < n → ¬ hit p = true) :
    ((List.range n).drop c).find? hit = none := by
  refine List.find?_eq_none.2 fun p mem => ?_
  obtain ⟨le, lt⟩ := mem_scanned.1 mem
  exact misses p le lt

/-- Settles O55. -/
theorem recordsAreReadAndFound : Obligations.RecordsAreReadAndFound := by
  refine ⟨?reads, ?finds, ?ends⟩
  case reads =>
    intro tag flags s can_take tag_ne b wait words sound carried
    have taken : deferredUnsent s = false ∨ asksSlot (.recordRead tag flags) s = false →
        exec (.recordRead tag flags) s = .next (takeRecordRead tag flags s) := fun free =>
      exec_take (c := .recordRead tag flags) rfl can_take tag_ne (by simp) free
    have taken_at_once : (s.trc.params.capture = true ∨ (s.trc.st = .running → s.trc.params.block ≤ s.trc.unread) ∨
        flags.getLsbD 0 = false) → exec (.recordRead tag flags) s = .next (takeRecordRead tag flags s) := fun h =>
      taken (.inr (asksSlot_of_keeps (takeRecordRead_deferred (s := { s with hli.rx := [] }) h tag)))
    refine ⟨fun stream running short no_wait => ?_, fun stream running short waits free => ?_, fun stream ready => ?_,
      fun capture recording => ?_, fun capture at_rest => ?_⟩
    · rw [taken_at_once (.inr (.inr no_wait)), takeRecordRead_of_short stream running short, if_pos no_wait]
    · rw [taken free, takeRecordRead_of_short stream running short, if_neg (by rw [show flags.getLsbD 0 = true from waits]; simp)]
    · intro n q rs t ended
      obtain ⟨u, read, u_eq, unread⟩ := takeUnread_eq n s
      obtain ⟨length, trc, hli, slc, sgs, dsc⟩ := read.fields
      have t_eq : t = { u with trc.unread := s.trc.unread - n
                               trc.announced := s.trc.announced && decide (s.trc.params.block ≤ s.trc.unread - n) } :=
        congrArg Prod.snd unread
      refine ⟨?_, ?_, ?_, ?_, ?_, ?_, ?_, ?_, fun sound_ring fits => ?_⟩
      · rw [taken_at_once (.inr (.inl ready)), takeRecordRead_of_stream stream ready, streamReply_eq]
      · rw [t_eq]
      · rw [t_eq]; exact read.1
      · rw [t_eq]; exact congrArg (·.cursor) trc
      · rw [t_eq]; exact congrArg (·.st) trc
      · rw [t_eq]; exact slc
      · rw [t_eq]; exact sgs
      · rw [t_eq]; exact dsc
      · have n_le : n ≤ s.trc.unread := Nat.min_le_right ..
        have records := readRecords_sound sound_ring (s.trc.ring.length - s.trc.unread) n (by omega)
        have u_s : u = s := u_eq.trans (congrArg Prod.snd records)
        refine ⟨(congrArg Prod.fst unread).trans (congrArg Prod.fst records), ?_, ?_, ?_⟩
        · rw [t_eq, u_s]
        · rw [t_eq, u_s]
        · rw [streamBytes, t_eq]
    · rw [taken_at_once (.inl capture), takeRecordRead_of_recording capture recording]
    · intro c n q rs t
      have read : RingRead t s := readRecords_read ..
      obtain ⟨length, trc, hli, slc, sgs, dsc⟩ := read.fields
      refine ⟨?_, read.1, congrArg (·.unread) trc, congrArg (·.st) trc, slc, sgs, dsc, fun sound_ring => ?_⟩
      · rw [taken_at_once (.inl capture), takeRecordRead_of_capture capture at_rest]
        rfl
      · by_cases fits : c ≤ s.trc.ring.length
        · have records := readRecords_sound sound_ring c n (by
            have : n ≤ s.trc.ring.length - c := Nat.min_le_right ..
            omega)
          exact ⟨congrArg Prod.fst records, congrArg Prod.snd records⟩
        · have none_left : n = 0 := by simp only [n]; omega
          have q_eq : q = ([], s) := by simp only [q, none_left]; rfl
          refine ⟨?_, congrArg Prod.snd q_eq⟩
          simp only [carried, none_left, List.take_zero, List.map_nil]
          exact congrArg Prod.fst q_eq
  case finds =>
    intro tag pos cmp start res value s can_take free tag_ne no captured
    have taken : exec (.recordFind tag pos cmp start res value) s = .next (takeRecordFind tag pos cmp start value s) :=
      exec_take (c := .recordFind tag pos cmp start res value) rfl can_take tag_ne (by simp) free
    rw [taken, takeRecordFind_eq]
    refine ⟨fun h => by rw [if_pos h], fun h1 h2 => ?_, fun h1 h2 h3 => ?_, fun h1 h2 h3 h4 => ?_, fun h1 h2 h3 h4 busy => ?_,
      fun h1 h2 h3 h4 not_busy => ?_⟩
    · rw [if_neg (Nat.not_le.2 h1), if_pos h2]
    · rw [if_neg (Nat.not_le.2 h1), if_neg (Nat.not_lt.2 h2), if_pos h3]
    · rw [if_neg (Nat.not_le.2 h1), if_neg (Nat.not_lt.2 h2), if_neg (Nat.not_lt.2 h3), if_pos h4]
    · rw [if_neg (Nat.not_le.2 h1), if_neg (Nat.not_lt.2 h2), if_neg (Nat.not_lt.2 h3), if_neg (not_not.2 h4), if_pos busy]
    · have free_slot : ¬ s.hli.deferred.isSome = true := by rw [not_busy]; simp
      rw [if_neg (Nat.not_le.2 h1), if_neg (Nat.not_lt.2 h2), if_neg (Nat.not_lt.2 h3), if_neg (not_not.2 h4),
        if_neg free_slot]
      intro c word v mark hit q r u
      have read : RingRead u s := findScan_read ..
      obtain ⟨length, trc, hli, slc, sgs, dsc⟩ := read.fields
      refine ⟨rfl, congrArg (·.cursor) trc, congrArg (·.tx) hli, read.1, fun p f found => mem_scanned.1 (findScan_found found),
        fun sound => ?_⟩
      have hit_iff : ∀ p, s.scanHits pos.toNat cmp.toNat value.toInt p = true ↔ hit p := fun p => findMatches_iff h2 ..
      have scanned := findScan_sound sound pos.toNat cmp.toNat value.toInt ((List.range s.trc.ring.length).drop c) 0
        fun p mem => (mem_scanned.1 mem).2
      have r_eq : r = _ := congrArg Prod.fst scanned
      refine ⟨congrArg Prod.snd scanned, fun p le lt hits first => ?_, fun misses => ?_⟩
      · rw [r_eq, find?_scanned_eq_some le lt ((hit_iff p).2 hits) fun q h1 h2 h => first q h1 h2 ((hit_iff q).1 h)]
        rfl
      · rw [r_eq, find?_scanned_eq_none fun p h1 h2 h => misses p h1 h2 ((hit_iff p).1 h)]
        rfl
  case ends =>
    intro tag r s live find deferred
    have ended : exec .recordFindComplete s = .next (findComplete s) := live_of_run findComplete live
    refine ⟨fun p f found => ?_, fun none_found => ?_⟩
    · rw [ended]
      refine congrArg _ ?_
      simp only [findComplete, find, found]
      rw [deferredReplyOf_of_kind (tag := tag) (by exact deferred)]
      rfl
    · rw [ended]
      refine congrArg _ ?_
      simp only [findComplete, find, none_found]
      rw [deferredReplyOf_of_kind (tag := tag) (by exact deferred)]
      rfl

end Sys2Proof.Machine
end

section
/-! SUPPORT. The words of a record, how it joins the ring, and BLOCK_READY (R163, R164, R167 to R170). -/

namespace Sys2Proof.Machine

/-! ### The words of a record (R163) -/

/-- Value and mark of a signal as recorded in frame `n`, with no bit of the image flipped. -/
def State.recorded (n id : Nat) (s : State) : Int × Nat :=
  if isInput id then ((s.entry id).value, qualityMark (s.entry id).quality)
  else if id = 60 then (s.sgs.vspd.value, qualityMark s.sgs.vspd.quality)
  else if id = 61 then (s.sgs.payload.value, qualityMark s.sgs.payload.quality)
  else ((s.out.get id).value, postedMark n (s.out.get id))

section
variable {s : State} (sound : ∀ p ∈ s.sgs.image, p.flips = [])
include sound

theorem recordedSignal_sound (id n : Nat) : recordedSignal id n s = (s.recorded n id, s) := by
  rw [recordedSignal, readImage_sound sound, State.recorded]
  split_ifs <;> rfl

theorem recordedSignals_sound (n : Nat) (ids : List Nat) : recordedSignals n ids s = (ids.map (s.recorded n), s) := by
  induction ids with
  | nil => rfl
  | cons id ids ih => simp only [recordedSignals, recordedSignal_sound sound, ih, List.map_cons]

/-- The record of frame `n`: its number, the status word, the mark word, the values. -/
theorem recordWords_sound (n : Nat) : recordWords n s =
    (BitVec.ofNat 48 n :: BitVec.ofNat 48 (statusWord s)
      :: BitVec.ofNat 48 (markWord (((s.trc.recset.filterMap id).map (s.recorded n)).map (·.2)))
      :: ((s.trc.recset.filterMap id).map (s.recorded n)).map (fun x => BitVec.ofInt 48 x.1), s) := by
  simp only [recordWords, recordedSignals_sound sound]

end

/-- The signals of a record are read through the integrity monitor: only image, monitor and host link move. -/
theorem recordWords_frame (n : Nat) (s : State) : OnlySgsImnHli (recordWords n s).2 s := by
  have signal : ∀ id (t : State), OnlySgsImnHli (recordedSignal id n t).2 t := fun id t => by
    simp only [recordedSignal]
    (repeat' split) <;> simp
  have signals : ∀ (ids : List Nat) (t : State), OnlySgsImnHli (recordedSignals n ids t).2 t := fun ids => by
    induction ids with
    | nil => intro t; simp [recordedSignals]
    | cons id ids ih =>
      intro t
      have first := signal id t
      have rest := ih (recordedSignal id n t).2
      simp_all [recordedSignals]
  exact signals _ _

theorem qualityMark_lt (q : Quality) : qualityMark q < 4 := by cases q <;> decide

theorem recorded_mark_lt (n id : Nat) (s : State) : (s.recorded n id).2 < 4 := by
  unfold State.recorded postedMark
  split_ifs <;> simp only [qualityMark_lt] <;> omega

theorem markWord_lt {ms : List Nat} (lt : ∀ m ∈ ms, m < 4) : markWord ms < 4 ^ ms.length := by
  induction ms with
  | nil => simp [markWord]
  | cons m ms ih =>
    have here := lt m (List.mem_cons_self ..)
    have rest := ih fun x mem => lt x (List.mem_cons_of_mem _ mem)
    simp only [markWord, List.length_cons, pow_succ]
    omega

/-- Two bits of the mark word per position. -/
theorem markWord_digit {ms : List Nat} (lt : ∀ m ∈ ms, m < 4) {p m : Nat} (at_p : ms[p]? = some m) :
    markWord ms / 4 ^ p % 4 = m := by
  induction ms generalizing p with
  | nil => simp at at_p
  | cons x ms ih =>
    have here := lt x (List.mem_cons_self ..)
    cases p with
    | zero =>
      simp only [List.getElem?_cons_zero, Option.some.injEq] at at_p
      simp only [markWord, pow_zero, Nat.div_one]
      omega
    | succ p =>
      have rest := ih (fun y mem => lt y (List.mem_cons_of_mem _ mem)) (p := p) (by simpa using at_p)
      have shift : (x + 4 * markWord ms) / 4 = markWord ms := by omega
      rw [markWord, pow_succ', ← Nat.div_div_eq_div_mul, shift, rest]

/-! ### A record joins the ring (R164, R181; log 16) -/

theorem takeInjection_with_trc (m : Mem) (s : State) (x : Trc) : takeInjection m { s with trc := x } =
    ((takeInjection m s).1, { (takeInjection m s).2 with trc := x }) := by
  unfold takeInjection
  cases m <;> dsimp only [Imn.guard] <;> split <;> rfl

theorem joinRecord_with_unread (ws : List RingWord) (s : State) (n : Nat) :
    joinRecord ws { s with trc.unread := n } = { joinRecord ws s with trc.unread := n } := by
  have trc := (takeInjection_frame .record s)
  simp only [OnlyImn] at trc
  simp only [joinRecord, takeInjection_with_trc, capacity, recK, trc]

/-- The oldest record leaves a full ring for the newest. -/
theorem joinRecord_spec (ws : List RingWord) (s : State) : ∃ (fs : List Nat) (n : Nat), Struck s.imn.record.inject fs
    ∧ (s.imn.record.inject = .none → n = s.imn.freeCount)
    ∧ joinRecord ws s = { s with
        trc.ring := (if s.trc.ring.length < capacity s then s.trc.ring else s.trc.ring.drop 1)
          ++ [⟨s.trc.nextSlot * (recK s + 3), ws.mapIdx (fun i w => ⟨w, if i = 0 then fs else []⟩)⟩]
        trc.nextSlot := (s.trc.nextSlot + 1) % capacity s, imn.record.inject := .none, imn.freeCount := n } := by
  obtain ⟨struck, count, injected⟩ := takeInjection_spec .record s
  unfold joinRecord
  generalize takeInjection .record s = q at struck count injected ⊢
  obtain ⟨fs, t⟩ := q
  dsimp only at struck count injected ⊢
  generalize t.imn.freeCount = n at count injected
  subst injected
  exact ⟨fs, n, struck, count, rfl⟩

/-! ### BLOCK_READY and the waiting read (R168, R169) -/

/-- The recorder's state once BLOCK_READY is announced. -/
abbrev State.blockAnnounced (s : State) : State := notify .blockReady { s with trc.announced := true }

theorem blockAnnounced_keeps (s : State) : s.blockAnnounced.trc = { s.trc with announced := true }
    ∧ s.blockAnnounced.hli.deferred = s.hli.deferred := by
  simp [State.blockAnnounced]

theorem blockReady_of_no_read {s : State} (no_read : ∀ tag, s.hli.deferred ≠ some ⟨.recordRead, tag⟩) :
    blockReady s = s.blockAnnounced := by
  have not_waits : (s.blockAnnounced.hli.deferred.map (·.kind) == some .recordRead) = false := by
    rw [(blockAnnounced_keeps s).2]
    cases deferred : s.hli.deferred with
    | none => rfl
    | some d =>
      obtain ⟨kind, tag⟩ := d
      have : kind ≠ .recordRead := fun h => no_read tag (by rw [deferred, h])
      simpa using this
  simp only [blockReady, State.blockAnnounced] at not_waits ⊢
  rw [not_waits]
  rfl

theorem blockReady_of_read {s : State} {tag : Byte} (waits : s.hli.deferred = some ⟨.recordRead, tag⟩) :
    let q := takeUnread s.trc.params.block s.blockAnnounced
    blockReady s = { q.2 with
      hli.deferred := none
      hli.tx := s.blockAnnounced.hli.tx ++ [Msg.reply true 0x97 tag (.done (streamBytes q.1 q.2 false))] } := by
  intro q
  obtain ⟨trc, deferred⟩ := blockAnnounced_keeps s
  have params : s.blockAnnounced.trc.params = s.trc.params := by rw [trc]
  have waits' : (s.blockAnnounced.hli.deferred.map (·.kind) == some .recordRead) = true := by rw [deferred, waits]; rfl
  have q_hli := takeUnread_deferred s.trc.params.block s.blockAnnounced
  have q_deferred : q.2.hli.deferred = some ⟨.recordRead, tag⟩ := by
    simp only [q]; rw [q_hli]; exact deferred.trans waits
  have q_tx : q.2.hli.tx = s.blockAnnounced.hli.tx := by simp only [q]; rw [q_hli]
  have answered : blockReady s = deferredReply (.done (streamBytes q.1 q.2 false)) q.2 := by
    simp only [blockReady]
    rw [if_pos (by exact waits')]
    show deferredReply (.done (streamBytes (takeUnread s.blockAnnounced.trc.params.block s.blockAnnounced).1
      (takeUnread s.blockAnnounced.trc.params.block s.blockAnnounced).2 false)) _ = _
    rw [params]
  rw [answered, deferredReply_of_some q_deferred, q_tx]
  rfl

/-- A waiting read is answered with the block whole: none is unread after it. -/
theorem streamBytes_of_block {s : State} (block : s.trc.unread = s.trc.params.block) :
    let q := takeUnread s.trc.params.block s.blockAnnounced
    q.2.trc.unread = 0 ∧ streamBytes q.1 q.2 false = vList id q.1 ++ vCount 0 ++ vMark false := by
  intro q
  have unread : q.2.trc.unread = 0 := by
    simp only [q]
    rw [takeUnread_unread, (blockAnnounced_keeps s).1, ← block]
    exact Nat.sub_self _
  exact ⟨unread, by rw [streamBytes, unread]⟩

end Sys2Proof.Machine
end

section
/-! Records join the ring and the recorder freezes (R163, R164, R167 to R170). -/

namespace Sys2Proof.Machine

theorem freeze_of_marks {s : State} {f : Nat} {c : TripCause} {ms : List (Nat × TripCause)} (marks : s.trc.marks = (f, c) :: ms) :
    freeze s = notify (.frozen f c) { s with trc.st := .frozen, trc.postCount := 0, trc.cursor := 0 } := by
  simp [freeze, marks]

/-- A record below capacity raises the unread count, and at the block size announces the block. -/
theorem streamRecord_of_room {s : State} (room : s.trc.unread < capacity s) (ws : List RingWord) : streamRecord ws s =
    let u : State := { joinRecord ws s with trc.unread := s.trc.unread + 1 }
    if s.trc.unread + 1 = s.trc.params.block then blockReady u else u := by
  have joined := joinRecord_with_unread ws s (s.trc.unread + 1)
  obtain ⟨fs, n, -, -, spec⟩ := joinRecord_spec ws s
  have block : (joinRecord ws s).trc.params.block = s.trc.params.block := by rw [spec]
  simp only [streamRecord, if_neg (Nat.ne_of_lt room), joined, block]

theorem streamRecord_of_full {s : State} (full : s.trc.unread = capacity s) (ws : List RingWord) :
    streamRecord ws s = latch .recLost (bump .recLost (joinRecord ws s)) := if_pos full

/-- A record in POST with CAPTURE: it joins, and the post count falls or freezes the recorder. -/
theorem recordFrame_of_post {s : State} (post : s.trc.st = .post) (capture : s.trc.params.capture = true) :
    let q := recordWords s.slc.frameNo s
    let t := joinRecord q.1 q.2
    t.trc.marks = s.trc.marks
      ∧ recordFrame s = if s.trc.postCount ≤ 1 then freeze t else { t with trc.postCount := s.trc.postCount - 1 } := by
  intro q t
  have frame := recordWords_frame s.slc.frameNo s
  simp only [OnlySgsImnHli] at frame
  have q_trc : q.2.trc = s.trc := by simp only [q, frame]
  obtain ⟨fs, n, -, -, spec⟩ := joinRecord_spec q.1 q.2
  have t_trc : t.trc.st = s.trc.st ∧ t.trc.marks = s.trc.marks ∧ t.trc.postCount = s.trc.postCount := by
    simp only [t]
    rw [spec]
    exact ⟨congrArg (·.st) q_trc, congrArg (·.marks) q_trc, congrArg (·.postCount) q_trc⟩
  obtain ⟨st, marks, count⟩ := t_trc
  have captured : recordFrame s = captureRecord q.1 q.2 := by
    have q_capture : q.2.trc.params.capture = true := by rw [q_trc, capture]
    simp only [recordFrame, if_pos (show s.trc.st = .running ∨ s.trc.st = .post from .inr post)]
    exact if_pos q_capture
  refine ⟨marks, captured.trans ?_⟩
  show (if t.trc.st = .post then if t.trc.postCount ≤ 1 then freeze t else _ else t) = _
  rw [if_pos (st.trans post), count]

/-- Settles O56. -/
theorem recordsJoinAndTheRecorderFreezes : Obligations.RecordsJoinAndTheRecorderFreezes := by
  refine ⟨?rows, ?words, ⟨?joins, ?post⟩, ?stream⟩
  case rows =>
    intro s live announced
    have ready_row : exec .streamBlockReady s = .next (streamBlockReady s) := live_of_run streamBlockReady live
    have frozen_row : exec .recorderFrozen s = .next (recorderFrozen s) := live_of_run recorderFrozen live
    rw [ready_row, frozen_row]
    have ready : s.trc.st = .running → s.trc.params.capture = false → s.trc.unread = s.trc.params.block →
        s.trc.announced = false → streamBlockReady s = blockReady s := fun running stream block not_announced => by
      simp [streamBlockReady, running, stream, block, not_announced]
    refine ⟨fun not_running => ?_, fun running stream block not_announced free => ?_,
      fun tag running stream block not_announced waits => ?_, fun not_post => ?_, fun f c ms post count marks => ?_⟩
    · rw [streamBlockReady, if_neg fun h => not_running h.1]
    · rw [ready running stream block not_announced, blockReady_of_no_read (by simp [free])]
    · intro q rs t
      obtain ⟨unread, bytes⟩ := streamBytes_of_block block
      refine ⟨?_, unread, fun sound fits => ?_⟩
      · rw [ready running stream block not_announced, blockReady_of_read waits, bytes]
      · have trc := (blockAnnounced_keeps s).1
        have sound' : SoundRing s.blockAnnounced := by
          unfold SoundRing recK
          rw [trc]
          exact sound
        obtain ⟨u, -, -, taken⟩ := takeUnread_eq s.trc.params.block s.blockAnnounced
        have ring : s.blockAnnounced.trc.ring = s.trc.ring := by rw [trc]
        have unread' : s.blockAnnounced.trc.unread = s.trc.unread := by rw [trc]
        have records := readRecords_sound sound' (s.trc.ring.length - s.trc.unread) s.trc.params.block (by rw [ring]; omega)
        rw [ring, unread'] at taken
        refine (congrArg Prod.fst taken).trans ((congrArg Prod.fst records).trans ?_)
        rw [ring, List.take_of_length_le (by rw [List.length_drop]; omega)]
    · rw [recorderFrozen, if_neg fun h => not_post h.1]
    · rw [recorderFrozen, if_pos ⟨post, count⟩, freeze_of_marks marks]
  case words =>
    intro n s places sound ids ws entry value graded mark
    have words := recordWords_sound sound n
    have ids_le : ids.length ≤ 12 := places ▸ List.length_filterMap_le ..
    have graded_eq : ∀ q, graded q = qualityMark q := fun q => by cases q <;> rfl
    have input_iff : ∀ j, isInput j = true ↔ 1 ≤ j ∧ j ≤ 34 := fun j => by simp [isInput]
    have entry_eq : ∀ j, entry j = s.entry j := fun _ => rfl
    have recorded_eq : ∀ j, s.recorded n j = (value j, mark j) := fun j => by
      simp only [State.recorded, value, mark, input_iff, graded_eq, entry_eq]
      split_ifs <;> simp_all [postedMark]
    have marks_lt : ∀ m ∈ (ids.map (s.recorded n)).map (·.2), m < 4 := fun m mem => by
      simp only [List.mem_map] at mem
      obtain ⟨x, ⟨j, -, rfl⟩, rfl⟩ := mem
      exact recorded_mark_lt ..
    let mark_word : RingWord := BitVec.ofNat 48 (markWord ((ids.map (s.recorded n)).map (·.2)))
    have ws_eq : ws = _ := congrArg Prod.fst words
    refine ⟨congrArg Prod.snd words, ?_, ?_, ?_, fun p j at_p => ⟨⟨mark_word, ?_, ?_⟩, ?_⟩, fun frame => ⟨fun running capture => ?_,
      fun running stream => ?_, fun at_rest => ?_⟩⟩
    · rw [ws_eq]; simp [ids]
    · rw [ws_eq]; rfl
    · rw [ws_eq, statusWord, bit, severeHeld]; rfl
    · rw [ws_eq]; rfl
    · have small : markWord ((ids.map (s.recorded n)).map (·.2)) < 2 ^ 48 := by
        have lt := markWord_lt marks_lt
        simp only [List.length_map] at lt
        exact lt.trans_le ((Nat.pow_le_pow_right (by norm_num) ids_le).trans (by norm_num))
      rw [BitVec.toNat_ofNat, Nat.mod_eq_of_lt small]
      exact markWord_digit marks_lt (by simp [at_p, recorded_eq])
    · rw [ws_eq, Nat.add_comm]
      simp only [List.getElem?_cons_succ]
      simp [ids, recorded_eq] at at_p ⊢
      simp [at_p]
    · subst frame
      obtain ⟨fs, k, -, -, spec⟩ := joinRecord_spec ws s
      have not_post : (joinRecord ws s).trc.st ≠ .post := by rw [spec]; simp [running]
      have captured : recordFrame s = captureRecord ws s := by
        simp only [recordFrame, running, true_or, if_true, words, capture, ws]
      rw [captured, captureRecord, if_neg not_post]
    · subst frame
      simp only [recordFrame, running, true_or, if_true, words, stream, ws]
      rfl
    · obtain idle | frozen := at_rest
      · simp [recordFrame, idle]
      · simp [recordFrame, frozen]
  case joins =>
    intro ws s t
    obtain ⟨fs, n, struck, count, spec⟩ := joinRecord_spec ws s
    refine ⟨fs, n, struck, count, ⟨fun room => ?_, fun o os ring full => ?_⟩, ?_, ?_, fun full => ⟨?_, ?_, ?_⟩⟩
    · simp only [t]; rw [spec, if_pos room]
    · simp only [t]; rw [spec, if_neg (by omega), ring]; rfl
    · simp only [t]; rw [spec]
    · simp only [t]; rw [spec]
    · rw [streamRecord_of_full full, spec]; rfl
    · rw [streamRecord_of_full full]; exact standing_latch ..
    · rw [streamRecord_of_full full, spec]; rfl
  case post =>
    intro s post capture q t
    obtain ⟨marks_eq, recorded⟩ := recordFrame_of_post post capture
    refine ⟨fun more => ?_, fun f c ms last marks => ?_⟩
    · rw [recorded, if_neg (by omega)]
    · rw [recorded, if_pos last, freeze_of_marks (marks_eq.trans marks)]
  case stream =>
    intro ws s room u announced
    obtain ⟨fs, k, -, -, spec⟩ := joinRecord_spec ws s
    have u_deferred : u.hli.deferred = s.hli.deferred := by simp only [u]; rw [spec]
    have u_params : u.trc.params = s.trc.params := by simp only [u]; rw [spec]
    rw [streamRecord_of_room room]
    refine ⟨fun below => if_neg below, fun block no_read => ?_, fun tag block waits => ?_⟩
    · rw [if_pos block, blockReady_of_no_read fun tag h => no_read tag (u_deferred ▸ h)]
    · intro q
      have whole : u.trc.unread = u.trc.params.block := block.trans (congrArg (·.block) u_params.symm)
      have read := blockReady_of_read (s := u) (u_deferred.trans waits)
      obtain ⟨unread, bytes⟩ := streamBytes_of_block whole
      rw [u_params] at read unread bytes
      dsimp only at read unread bytes
      rw [if_pos block, read, bytes]
      exact ⟨rfl, unread⟩

end Sys2Proof.Machine
end

section
/-! Substitution, signals that are not due, and the hold allowance (R71 to R74). -/

namespace Sys2Proof.Machine

/-! ### The substitution path (R72) -/

theorem substPath_of_good {q : ImageEntry} (good : q.quality = .fresh ∨ q.quality = .kept) (id p : Nat) (e : ImageEntry) :
    substPath id p q e = { e with value := q.value, quality := .subst, heldCount := 0, partner := some p } := by
  obtain h | h := good <;> simp [substPath, h]

theorem substPath_of_subst {q : ImageEntry} (subst : q.quality = .subst) (id p : Nat) (e : ImageEntry) :
    substPath id p q e = if satSucc 255 e.heldCount ≤ holdAllowance id then
        { e with value := q.value, quality := .subst, heldCount := satSucc 255 e.heldCount, partner := some p }
      else { e with value := q.value, quality := .bad, heldCount := satSucc 255 e.heldCount } := by
  simp [substPath, subst]

theorem substPath_of_lost {q : ImageEntry} (lost : q.quality = .held ∨ q.quality = .bad ∨ q.quality = .absent) (id p : Nat)
    (e : ImageEntry) : substPath id p q e = holdPath id e := by
  obtain h | h | h := lost <;> simp [substPath, h]

/-! ### A signal that is not due (R73) -/

theorem notDue_of_good {e : ImageEntry} (good : e.quality = .fresh ∨ e.quality = .kept) (old : List ImageEntry) (id : Nat) :
    notDue old id e = { e with quality := .kept, heldCount := 0 } := by
  obtain h | h := good <;> simp [notDue, h]

theorem notDue_of_absent {e : ImageEntry} (absent : e.quality = .absent) (old : List ImageEntry) (id : Nat) :
    notDue old id e = if e.heldCount = 0 then e else holdPath id e := by
  simp [notDue, absent]

/-! ### The hold allowance is passed (R71, R74; log 3) -/

/-- A held count at its hold allowance passes it. -/
theorem holdExceeded_of_allowance {sig : Nat} {e : ImageEntry} {fs : List Nat} {s : State} (input : isInput sig = true)
    (entry : s.sgs.image[sig - 1]? = some ⟨e, fs⟩) (not_bad : e.quality ≠ .bad) (count : e.heldCount = holdAllowance sig) :
    holdExceeded sig s = latch .signalBad { s with
      sgs.image := s.sgs.image.set (sig - 1)
        ⟨{ e with quality := .bad, latchedBad := true, heldCount := holdAllowance sig + 1 }, fs⟩ } := by
  have at_allowance : holdAllowance sig ≤ e.heldCount := count.ge
  have passed : max e.heldCount (holdAllowance sig + 1) = holdAllowance sig + 1 := max_eq_right (by omega)
  simp [holdExceeded, entry, input, at_allowance, not_bad, passed]

/-- Settles O34. -/
theorem signalsAreSubstitutedKeptOrTurnedBad : Obligations.SignalsAreSubstitutedKeptOrTurnedBad := by
  refine ⟨?substitution, ?notDue, ?exceeded⟩
  case substitution =>
    intro id p q e h
    refine ⟨fun good => substPath_of_good good id p e, fun subst within => ?_, fun subst past => ?_,
      fun lost => substPath_of_lost lost id p e⟩
    · rw [substPath_of_subst subst]; exact if_pos within
    · rw [substPath_of_subst subst, if_neg (show ¬ satSucc 255 e.heldCount ≤ _ from Nat.not_le.2 past)]; exact ⟨rfl, rfl⟩
  case notDue =>
    intro old id e
    refine ⟨fun good => notDue_of_good good old id, fun held => ?_, fun p subst partner => ?_, fun absent none_held => ?_,
      fun absent held => ?_, fun bad => ?_⟩
    · simp [notDue, held]
    · simp [notDue, subst, partner]
    · rw [notDue_of_absent absent, if_pos none_held]
    · rw [notDue_of_absent absent, if_neg held]
    · simp [notDue, bad]
  case exceeded =>
    intro sig e fs s live input entry not_bad count
    exact (live_of_run (holdExceeded sig) live).trans
      (congrArg _ (holdExceeded_of_allowance input entry not_bad count))

end Sys2Proof.Machine
end

section
/-! SIGNAL-READ (R74, R75, R78). -/

namespace Sys2Proof.Machine

/-! ### The requests that are refused, and the one that is taken -/

section
variable {ids : List Byte} (some_id : ids ≠ []) (fits : ids.length ≤ 16) (tag : Byte)
include some_id fits

theorem takeSignalRead_of_fits (s : State) : takeSignalRead tag ids s =
    ((ids.map (·.toNat)).find? (fun n => !inCatalog n)).elim
      (clearLatched (ids.map (·.toNat)) ((signalItems (ids.map (·.toNat)) s).2.answered 0x89 tag
        (vList id (signalItems (ids.map (·.toNat)) s).1)))
      fun bad => s.turnedAway 0x89 tag .range .signal bad := by
  have within : ¬ ((ids.map (·.toNat)).length = 0 ∨ 16 < (ids.map (·.toNat)).length) := by
    rw [List.length_map, List.length_eq_zero_iff]
    rintro (h | h)
    · exact some_id h
    · omega
  have refused : ∀ q, refuse 0x09 tag .range .signal q s = s.turnedAway 0x89 tag .range .signal q := fun q => refuse_eq (by decide) ..
  have answered : ∀ (d : List Byte) (t : State), done 0x09 tag d t = t.answered 0x89 tag d := fun d t => done_eq (by decide) ..
  rw [takeSignalRead, if_neg within]
  cases (ids.map (·.toNat)).find? (fun n => !inCatalog n) with
  | none => exact congrArg (clearLatched _) (answered _ _)
  | some bad => exact refused bad

theorem takeSignalRead_of_catalog {s : State} (known : ∀ n ∈ ids.map (·.toNat), inCatalog n = true) :
    takeSignalRead tag ids s = clearLatched (ids.map (·.toNat)) ((signalItems (ids.map (·.toNat)) s).2.answered 0x89 tag
      (vList id (signalItems (ids.map (·.toNat)) s).1)) := by
  have none_bad : (ids.map (·.toNat)).find? (fun n => !inCatalog n) = none :=
    List.find?_eq_none.2 fun n mem => by simp [known n mem]
  rw [takeSignalRead_of_fits some_id fits, none_bad]
  rfl

end

/-! ### The items, read through the integrity monitor -/

/-- The item of an id, as the image and the postings stand. -/
def State.signalItem (s : State) (id : Nat) : List Byte :=
  if isInput id then imageItem (s.entry id)
  else if id = 60 then derivedItem s.sgs.vspd s.sgs.imageFrame
  else if id = 61 then derivedItem s.sgs.payload s.sgs.imageFrame
  else postedItem (s.out.get id)

theorem signalItems_sound {s : State} (sound : ∀ p ∈ s.sgs.image, p.flips = []) (ids : List Nat) :
    signalItems ids s = (ids.map s.signalItem, s) := by
  induction ids with
  | nil => rfl
  | cons id ids ih =>
    simp only [signalItems, readImage_sound sound, ih, List.map_cons, State.signalItem]
    split <;> rfl

theorem signalItems_length (ids : List Nat) (s : State) : (signalItems ids s).1.length = ids.length := by
  induction ids generalizing s with
  | nil => rfl
  | cons id ids ih =>
    simp only [signalItems]
    split <;> simp [ih]

/-- A protected image entry once it is read: corrected, or its damaged content, with no bit flipped. -/
def Prot.readBack (p : Prot ImageEntry) : Prot ImageEntry :=
  ⟨if p.flips.length ≤ 1 then p.val else imageDamaged p.flips p.val, []⟩

theorem Prot.readBack_readBack (p : Prot ImageEntry) : p.readBack.readBack = p.readBack := by
  simp [Prot.readBack]

/-- Reading a signal reads its own entry back and leaves every other. -/
theorem readImage_at (id : Nat) (s : State) (i : Nat) : (readImage id s).2.sgs.image[i]? =
    if i = id - 1 then (s.sgs.image[i]?).map Prot.readBack else s.sgs.image[i]? := by
  have written : ∀ e, s.sgs.image[id - 1]? = some ⟨e.1, e.2⟩ → ∀ q : Prot ImageEntry, q = Prot.readBack e →
      (s.sgs.image.set (id - 1) q)[i]? =
        if i = id - 1 then (s.sgs.image[i]?).map Prot.readBack else s.sgs.image[i]? := fun e at_id q q_eq => by
    obtain ⟨lt, -⟩ := List.getElem?_eq_some_iff.1 at_id
    by_cases here : i = id - 1
    · subst here
      rw [if_pos rfl, at_id, q_eq, List.getElem?_set_self lt]; rfl
    · rw [if_neg here, List.getElem?_set_ne (Ne.symm here)]
  unfold readImage
  split
  · rename_i none_at
    by_cases here : i = id - 1
    · rw [if_pos here, here, none_at]; rfl
    · rw [if_neg here]
  · rename_i p at_id
    split
    · rename_i no_flip
      by_cases here : i = id - 1
      · rw [if_pos here, here, at_id, Option.map_some, Prot.readBack, no_flip]
        obtain ⟨e, fs⟩ := p
        cases no_flip
        rfl
      · rw [if_neg here]
    · rename_i b flip
      exact written p at_id _ (by simp [Prot.readBack, flip])
    · rename_i none_flipped one_flipped
      have many : ¬ p.flips.length ≤ 1 := fun le => by
        cases h : p.flips with
        | nil => exact none_flipped h
        | cons b fs =>
          cases fs with
          | nil => exact one_flipped b h
          | cons c fs => simp [h] at le
      have read := written p at_id ⟨imageDamaged p.flips p.val, []⟩ (by simp [Prot.readBack, many])
      unfold latchIf
      split <;> exact read

theorem readImage_tx (id : Nat) (s : State) : (readImage id s).2.hli.tx = s.hli.tx := by
  unfold readImage
  (repeat' split) <;> simp [noteCorrected, noteUncorrectable, latchIf, apply_ite]

/-- The items' reads move only image, monitor and host link, of that no message, and read back the inputs named. -/
theorem signalItems_leaves (ids : List Nat) (s : State) : OnlySgsImnHli (signalItems ids s).2 s
    ∧ (signalItems ids s).2.hli.tx = s.hli.tx
    ∧ ∀ i, i < 34 → (signalItems ids s).2.sgs.image[i]? =
      if i + 1 ∈ ids then (s.sgs.image[i]?).map Prot.readBack else s.sgs.image[i]? := by
  induction ids generalizing s with
  | nil => simp [signalItems]
  | cons id ids ih =>
    by_cases input : isInput id = true
    · obtain ⟨frame, tx, image⟩ := ih (readImage id s).2
      have first := readImage_frame id s
      have first_tx := readImage_tx id s
      have one_le : 1 ≤ id := by simp [isInput] at input; exact input.1
      simp only [signalItems, input, if_true]
      refine ⟨by simp_all, tx.trans first_tx, fun i lt => ?_⟩
      rw [image i lt, readImage_at]
      by_cases here : i + 1 = id
      · have i_eq : i = id - 1 := by omega
        rw [if_pos i_eq, if_pos (c := i + 1 ∈ id :: ids) (by simp [here])]
        split
        · cases s.sgs.image[i]? <;> simp [Prot.readBack_readBack]
        · rfl
      · have i_ne : ¬ i = id - 1 := by omega
        rw [if_neg i_ne]
        simp [here]
    · obtain ⟨frame, tx, image⟩ := ih s
      simp only [signalItems, input]
      refine ⟨frame, tx, fun i lt => ?_⟩
      have i_ne : ¬ i + 1 = id := by
        rintro rfl
        exact input (by simp [isInput]; omega)
      have := image i lt
      simp [this, i_ne]

theorem clearLatched_answered (ns : List Nat) (k tag : Byte) (d : List Byte) (s : State) :
    clearLatched ns (s.answered k tag d) = (clearLatched ns s).answered k tag d := rfl

theorem clearLatched_at (ns : List Nat) (s : State) (i : Nat) : (clearLatched ns s).sgs.image[i]? =
    (s.sgs.image[i]?).map fun p => if i + 1 ∈ ns then { p with val := { p.val with latchedBad := p.val.quality == .bad } } else p := by
  simp [clearLatched]

/-- Settles O36. -/
theorem signalReadClearsTheMarksItNames : Obligations.SignalReadClearsTheMarksItNames := by
  intro tag ids s can_take tag_ne ns entry derived posted item cleared
  have taken : exec (.signalRead tag ids) s = .next (takeSignalRead tag ids s) :=
    exec_take (c := .signalRead tag ids) rfl can_take tag_ne (by simp) (.inr rfl)
  rw [taken]
  refine ⟨fun out => ?_, fun some_id fits n bad => ?_, fun some_id fits known sound => ?_, fun some_id fits known => ?_⟩
  · rw [takeSignalRead_of_length (out.imp_left List.length_eq_zero_iff.2)]
  · rw [takeSignalRead_of_fits some_id fits, show (ids.map (·.toNat)).find? (fun n => !inCatalog n) = some n from bad]
    rfl
  · rw [takeSignalRead_of_catalog some_id fits tag known, signalItems_sound sound]
    have derived_eq : ∀ d, derivedItem d s.sgs.imageFrame = derived d := fun _ => rfl
    have posted_eq : ∀ p, postedItem p = posted p := fun p => by
      obtain ⟨v, _ | f⟩ := p <;> rfl
    have item_eq : ∀ n ∈ ns, s.signalItem n = item n := fun n mem => by
      have input_iff : isInput n = true ↔ n ≤ 34 := by
        have := known n mem
        simp only [inCatalog, isInput, isOutput, isDerived, Bool.or_eq_true, Bool.and_eq_true, decide_eq_true_eq] at this ⊢
        omega
      simp only [State.signalItem, input_iff, derived_eq, posted_eq]
      rfl
    have items : vList id (ns.map s.signalItem) = beBytes 1 ids.length ++ ns.flatMap item := by
      rw [vList, List.length_map, List.length_map, List.flatMap_map]
      congr 1
      exact List.flatMap_congr item_eq
    have image : (clearLatched ns s).sgs.image =
        s.sgs.image.mapIdx (fun i p => if ns.contains (i + 1) then cleared p else p) := by
      refine List.ext_getElem? fun i => ?_
      rw [clearLatched_at, List.getElem?_mapIdx]
      cases at_i : s.sgs.image[i]? with
      | none => rfl
      | some p =>
        have no_flip := sound p (List.mem_of_getElem? at_i)
        simp [cleared, no_flip]
    rw [show (ids.map (·.toNat)).map s.signalItem = ns.map s.signalItem from rfl, items]
    rw [clearLatched_answered, ← image]
    rfl
  · obtain ⟨frame, tx, image⟩ := signalItems_leaves ns s
    rw [takeSignalRead_of_catalog some_id fits tag known]
    refine ⟨_, rfl, ?_, ?_, ?_, fun i p lt at_i => ?_, ?_, ?_, ?_⟩
    · show (signalItems ns s).2.hli.tx ++ _ = _
      rw [tx]
    · rw [signalItems_length, List.length_map]
    · have same : (signalItems ns s).2.sgs.image.length = s.sgs.image.length := by simp
      exact (List.length_mapIdx ..).trans same
    · have read := image i lt
      rw [at_i] at read
      have after := clearLatched_at ns (signalItems ns s).2 i
      rw [read] at after
      rw [clearLatched_answered]
      simp only [show ∀ (t : State) d, (t.answered 0x89 tag d).sgs = t.sgs from fun _ _ => rfl]
      rw [after]
      refine ⟨fun other => ?_, fun named few => ?_, fun named many => ?_⟩
      · rw [if_neg other]; simp [other]
      · rw [if_pos named]
        simp [named, Prot.readBack, few, cleared]
      · rw [if_pos named]
        refine ⟨{ imageDamaged p.flips p.val with latchedBad := true }, ?_, rfl, rfl⟩
        simp [named, Prot.readBack, Nat.not_le.2 many, imageDamaged]
    · exact frame.1
    · simp only [OnlySgsImnHli] at frame; exact frame.2.2.1
    · simp only [OnlySgsImnHli] at frame; exact frame.2.2.2.1

end Sys2Proof.Machine
end

section
/-! SUPPORT. TABLE-WRITE: the checks of the transfer, the first entry that fails, the place where entries go (R42, R68, R191). -/

namespace Sys2Proof.Machine

/-! ### The transfer (R191) -/

theorem exec_tableWrite {tag : Byte} {s : State} (can_take : CanTake s) (tag_ne : tag ≠ 0#8) (data : List Byte) :
    exec (.tableWrite tag data) s = .next (takeTableWrite tag data s) :=
  exec_take (c := .tableWrite tag data) rfl can_take tag_ne (by simp) (.inr rfl)

section
variable {data : List Byte} {s : State} (whole : data.length % entrySize s.hli.cursor.table = 0)
  (some_entry : data.length / entrySize s.hli.cursor.table ≠ 0) (table : s.hli.cursor.table ≤ 3)
  (fits : s.hli.cursor.index + data.length / entrySize s.hli.cursor.table ≤ tableSize s.hli.cursor.table) (tag : Byte)
include whole some_entry table fits

/-- A transfer of whole entries into a table that can be written, not past its end, that the owner refuses. -/
theorem takeTableWrite_of_error {c : RClass} {d : Detail} {q : Nat}
    (refused : writeTable s.hli.cursor.table s.hli.cursor.index
      (chunks (entrySize s.hli.cursor.table) (data.length / entrySize s.hli.cursor.table) data) s = .error (c, d, q)) :
    takeTableWrite tag data s = s.turnedAway 0x87 tag c d q := by
  rw [takeTableWrite, if_neg (by rintro (h | h); exacts [h whole, some_entry h]), if_neg (Nat.not_lt.2 table),
    if_neg (Nat.not_lt.2 fits), refused]
  exact refuse_eq (by decide) ..

/-- One that the owner takes. -/
theorem takeTableWrite_of_ok {t : State}
    (taken : writeTable s.hli.cursor.table s.hli.cursor.index
      (chunks (entrySize s.hli.cursor.table) (data.length / entrySize s.hli.cursor.table) data) s = .ok t) :
    takeTableWrite tag data s = { t with
      hli.cursor := s.hli.cursor.moved (data.length / entrySize s.hli.cursor.table) (s.hli.cursor.mode != CursorMode.none) }.answered
        0x87 tag [] := by
  rw [takeTableWrite, if_neg (by rintro (h | h); exacts [h whole, some_entry h]), if_neg (Nat.not_lt.2 table),
    if_neg (Nat.not_lt.2 fits), taken]
  exact done_eq (by decide) ..

end

theorem Cursor.moved_of_stays (c : Cursor) (n : Nat) : c.moved n false = c := rfl

/-- The bytes of entry `k` of a request. -/
theorem chunks_eq (n : Nat) : ∀ (k : Nat) (bs : List Byte),
    chunks n k bs = (List.range k).map fun j => (bs.drop (n * j)).take n
  | 0, _ => rfl
  | k + 1, bs => by
    rw [chunks, chunks_eq n k, List.range_succ_eq_map, List.map_cons, List.map_map]
    refine congrArg₂ _ (by simp) (List.map_congr_left fun j _ => ?_)
    simp [List.drop_drop, Nat.mul_succ, Nat.add_comm]

/-! ### The first entry that fails its checks -/

theorem firstFailure_of_sound {α : Type} {check : α → Option Detail} {es : List α} (sound : ∀ e ∈ es, check e = none)
    (i : Nat) : firstFailure check i es = none := by
  induction es generalizing i with
  | nil => rfl
  | cons e es ih =>
    rw [firstFailure, sound e (List.mem_cons_self ..)]
    exact ih (fun x mem => sound x (List.mem_cons_of_mem _ mem)) (i + 1)

theorem firstFailure_of_first {α : Type} {check : α → Option Detail} {es : List α} {k : Nat} {e : α} {d : Detail}
    (at_k : es[k]? = some e) (fails : check e = some d) (before : ∀ j x, j < k → es[j]? = some x → check x = none) (i : Nat) :
    firstFailure check i es = some (d, i + k) := by
  induction es generalizing i k with
  | nil => simp at at_k
  | cons x es ih =>
    cases k with
    | zero =>
      obtain rfl : x = e := by simpa using at_k
      rw [firstFailure, fails]
      rfl
    | succ k =>
      rw [firstFailure, before 0 x (by omega) rfl]
      rw [show i + (k + 1) = i + 1 + k by omega]
      exact ih (by simpa using at_k) (fun j y lt at_j => before (j + 1) y (by omega) (by simpa using at_j)) (i + 1)

/-! ### Where the entries go -/

theorem splice_getElem? {α : Type} (t : List α) (i : Nat) (es : List α) (fits : i + es.length ≤ t.length) (j : Nat) :
    (splice t i es)[j]? = if i ≤ j ∧ j < i + es.length then es[j - i]? else t[j]? := by
  have take_length : (t.take i).length = i := by simp; omega
  by_cases before : j < i
  · rw [if_neg (by omega), splice, List.append_assoc, List.getElem?_append_left (by omega), List.getElem?_take_of_lt before]
  · by_cases inside : j < i + es.length
    · rw [if_pos ⟨by omega, inside⟩, splice, List.append_assoc, List.getElem?_append_right (by omega), take_length,
        List.getElem?_append_left (by omega)]
    · rw [if_neg (by omega), splice, List.append_assoc, List.getElem?_append_right (by omega), take_length,
        List.getElem?_append_right (by omega), List.getElem?_drop]
      congr 1
      omega

theorem splice_single {α : Type} (t : List α) {i : Nat} (lt : i < t.length) (e : α) : splice t i [e] = t.set i e := by
  refine List.ext_getElem? fun j => ?_
  rw [splice_getElem? t i [e] (by simpa using lt)]
  by_cases here : j = i
  · subst here; simp [List.getElem?_set_self lt]
  · rw [List.getElem?_set_ne (Ne.symm here), if_neg (by simp; omega)]

/-- The pending injection strikes the first entry written. -/
theorem splice_mapIdx {α β : Type} (t : List β) (i : Nat) (es : List α) (f : Nat → α → β) (fits : i + es.length ≤ t.length)
    (written : Nat → α) (at_k : ∀ k, k < es.length → es[k]? = some (written k)) :
    splice t i (es.mapIdx f) = t.mapIdx fun j p => if i ≤ j ∧ j < i + es.length then f (j - i) (written (j - i)) else p := by
  refine List.ext_getElem? fun j => ?_
  rw [splice_getElem? _ _ _ (by simpa using fits)]
  simp only [List.getElem?_mapIdx, List.length_mapIdx]
  by_cases inside : i ≤ j ∧ j < i + es.length
  · have lt : j < t.length := by omega
    rw [if_pos inside, at_k _ (by omega), List.getElem?_eq_getElem lt]
    simp [inside]
  · rw [if_neg inside]
    cases at_j : t[j]? with
    | none => rfl
    | some p => simp [inside]

/-! ### The screening table (R68, R181) -/

theorem screenEntryFailure_eq (e : ScreenEntry) : screenEntryFailure e =
    if isInput e.signal = false then some .signalClass
    else if e.test = .unknown ∨ e.action = .unknown ∨ (e.test = .range ∧ e.high < e.low) then some .field
    else if e.test = .agree ∨ e.action = .subst then
      (if isInput e.partner = true ∧ e.partner ≠ e.signal then none else some .partner)
    else if e.partner = 0 then none else some .partner := by
  have wants_iff : (e.test == .agree || e.action == .subst) = decide (e.test = .agree ∨ e.action = .subst) := by
    rw [Bool.decide_or]; rfl
  have input_zero : isInput 0 = false := rfl
  simp only [screenEntryFailure, wants_iff, Bool.not_eq_true']
  by_cases input : isInput e.signal = false
  · simp [input]
  by_cases unknown : e.test = .unknown ∨ e.action = .unknown ∨ (e.test = .range ∧ e.high < e.low)
  · rw [if_neg input, if_neg input, if_pos unknown, if_pos unknown]
  rw [if_neg input, if_neg input, if_neg unknown, if_neg unknown]
  by_cases wants : e.test = .agree ∨ e.action = .subst
  · by_cases zero : e.partner = 0
    · simp [wants, zero, input_zero]
    · by_cases partner : isInput e.partner = true <;> by_cases own : e.partner = e.signal <;>
        simp_all
  · by_cases zero : e.partner = 0 <;> simp [wants, zero]

/-- A write of the screening table whose every valid entry passes its checks. -/
theorem writeScreen_of_sound {i : Nat} {es : List ScreenEntry} {s : State} (allowed : es.length ≤ 1 ∨ s.dsc.gov = .halted)
    (sound : ∀ e ∈ es, e.valid = true → screenEntryFailure e = none) :
    ∃ (fs : List Nat) (n : Nat), Struck s.imn.screen.inject fs ∧ (s.imn.screen.inject = .none → n = s.imn.freeCount)
      ∧ writeScreen i es s = .ok { s with
        sgs.screen := splice s.sgs.screen i (es.mapIdx (fun k e => ⟨screenStored e, if k = 0 then fs else []⟩))
        imn.screen.inject := .none, imn.freeCount := n } := by
  have taken : ¬ (1 < es.length ∧ s.dsc.gov ≠ .halted) := by
    rintro ⟨many, gov⟩
    obtain h | h := allowed
    · omega
    · exact gov h
  have passes : firstFailure (fun e : ScreenEntry => if e.valid then screenEntryFailure e else none) i es = none :=
    firstFailure_of_sound (fun e mem => by
      split
      · rename_i valid
        exact sound e mem valid
      · rfl) i
  obtain ⟨struck, count, injected⟩ := takeInjection_spec .screen s
  unfold writeScreen
  rw [if_neg taken, passes]
  generalize takeInjection .screen s = q at struck count injected ⊢
  obtain ⟨fs, t⟩ := q
  dsimp only at struck count injected ⊢
  generalize t.imn.freeCount = n at count injected
  subst injected
  exact ⟨fs, n, struck, count, rfl⟩

theorem writeScreen_of_first {i k : Nat} {es : List ScreenEntry} {e : ScreenEntry} {d : Detail} {s : State}
    (allowed : es.length ≤ 1 ∨ s.dsc.gov = .halted) (at_k : es[k]? = some e) (valid : e.valid = true)
    (fails : screenEntryFailure e = some d)
    (before : ∀ j x, j < k → es[j]? = some x → x.valid = true → screenEntryFailure x = none) :
    writeScreen i es s = .error (.range, d, i + k) := by
  have taken : ¬ (1 < es.length ∧ s.dsc.gov ≠ .halted) := by
    rintro ⟨many, gov⟩
    obtain h | h := allowed
    · omega
    · exact gov h
  have failure : firstFailure (fun e : ScreenEntry => if e.valid then screenEntryFailure e else none) i es = some (d, i + k) :=
    firstFailure_of_first at_k (by simp [valid, fails]) (fun j x lt at_j => by
      split
      · rename_i valid
        exact before j x lt at_j valid
      · rfl) i
  rw [writeScreen, if_neg taken, failure]

end Sys2Proof.Machine
end

section
/-! The screening table and its tests (R67 to R70). -/

namespace Sys2Proof.Machine

/-! ### The tests (R69) -/

theorem testPasses_of_range {e : ScreenEntry} (range : e.test = .range) (old : List ImageEntry) (buf : List Delivery)
    (id : Nat) (d : Int) : testPasses old buf e id d = true ↔ e.low ≤ d ∧ d ≤ e.high := by
  simp [testPasses, range]

theorem testPasses_of_step {e : ScreenEntry} (step : e.test = .step) (old : List ImageEntry) (buf : List Delivery)
    (id : Nat) (d : Int) : testPasses old buf e id d = true ↔
      ((entryOf old id).quality = .absent ∨ (entryOf old id).quality = .bad
        ∨ ((d - (entryOf old id).value).natAbs : Int) ≤ e.low) := by
  cases quality : (entryOf old id).quality <;> simp [testPasses, step, quality, Quality.usable, within]

theorem testPasses_of_agree {e : ScreenEntry} (agree : e.test = .agree) (old : List ImageEntry) (buf : List Delivery)
    (id : Nat) (d : Int) : testPasses old buf e id d = within e.low d (deliveredFor buf e.partner <|>
      if (entryOf old e.partner).quality.usable then some (entryOf old e.partner).value else none) := by
  simp [testPasses, agree]

/-! ### The entries that name a signal (R69, R70) -/

/-- Entries that do not name the signal are passed over. -/
theorem evaluate_append {old : List ImageEntry} {buf : List Delivery} {named : List ScreenEntry} {id : Nat} {d : Int}
    {js : List Nat} (others : ∀ j ∈ js, ¬ Names named id j) (is : List Nat) (s : State) :
    evaluate old buf named id d (js ++ is) s = evaluate old buf named id d is s := by
  induction js with
  | nil => rfl
  | cons j js ih =>
    have not_named : ¬ ((named.getD j .empty).valid && (named.getD j .empty).signal == id) = true := by
      simpa [Names] using others j (List.mem_cons_self ..)
    rw [List.cons_append, evaluate]
    dsimp only
    rw [if_neg not_named]
    exact ih fun k mem => others k (List.mem_cons_of_mem _ mem)

theorem evaluate_of_none {old : List ImageEntry} {buf : List Delivery} {named : List ScreenEntry} {id : Nat} {d : Int}
    {is : List Nat} (others : ∀ j ∈ is, ¬ Names named id j) (s : State) : evaluate old buf named id d is s = (none, s) := by
  simpa [evaluate] using evaluate_append (old := old) (buf := buf) (d := d) others [] s

theorem names_screenContent_iff {s : State} {id j : Nat} : Names (screenContent s) id j ↔
    ∃ p, s.sgs.screen[j]? = some p ∧ p.val.valid = true ∧ p.val.signal = id := by
  cases at_j : s.sgs.screen[j]? with
  | none => simp [Names, screenContent, List.getD_eq_getElem?_getD, at_j, ScreenEntry.empty]
  | some p => simp [Names, screenContent, List.getD_eq_getElem?_getD, at_j]

section
variable {old : List ImageEntry} {buf : List Delivery} {id i : Nat} {d : Int} {s : State}

/-- The one entry that names the signal decides. -/
theorem evaluate_of_single {c : ScreenEntry} (lt : i < 96) (entry : s.sgs.screen[i]? = some ⟨c, []⟩)
    (valid : c.valid = true) (names : c.signal = id) (sound : c.corrupt = false)
    (single : ∀ j p, j ≠ i → s.sgs.screen[j]? = some p → p.val.valid = true → p.val.signal ≠ id) :
    evaluate old buf (screenContent s) id d (List.range 96) s =
      if testPasses old buf c id d then (none, s) else (some (c.action, c.partner), countFailure i c s) := by
  have others : ∀ j, j ≠ i → ¬ Names (screenContent s) id j := fun j ne named => by
    obtain ⟨p, at_j, p_valid, p_names⟩ := names_screenContent_iff.1 named
    exact single j p ne at_j p_valid p_names
  have split : List.range 96 = List.range i ++ i :: (List.range' (i + 1) (95 - i)) := by
    rw [List.range_eq_range', List.range_eq_range', show (96 : Nat) = i + (95 - i + 1) by omega, ← List.range'_append_1,
      List.range'_succ]
    simp
  have content : (screenContent s).getD i .empty = c := by
    simp [screenContent, List.getD_eq_getElem?_getD, entry]
  have read : readScreen i s = (c, s) := by simp [readScreen, entry]
  rw [split, evaluate_append fun j mem => others j (by have := List.mem_range.1 mem; omega), evaluate]
  simp only [content, valid, names, beq_self_eq_true, Bool.and_self, if_true, read, sound, Bool.false_eq_true, if_false]
  rw [evaluate_of_none fun j mem => others j (by simp at mem; omega)]

/-- A failed delivery counts its entry's failure, in a write of the screening memory (R70, R181). -/
theorem countFailure_spec (i : Nat) (e : ScreenEntry) (s : State) :
    ∃ (fs : List Nat) (n : Nat), Struck s.imn.screen.inject fs ∧ (s.imn.screen.inject = .none → n = s.imn.freeCount)
      ∧ countFailure i e s = { s with
        sgs.screen := s.sgs.screen.set i ⟨{ e with failCount := satSucc 65535 e.failCount }, fs⟩
        imn.screen.inject := .none, imn.freeCount := n
        hli.counters.screenRejects := s.hli.counters.screenRejects.rise } := by
  obtain ⟨struck, count, injected⟩ := takeInjection_spec .screen s
  unfold countFailure
  generalize takeInjection .screen s = q at struck count injected ⊢
  obtain ⟨fs, t⟩ := q
  dsimp only at struck count injected ⊢
  generalize t.imn.freeCount = n at count injected
  subst injected
  exact ⟨fs, n, struck, count, rfl⟩

theorem screenSignal_of_passes {named : List ScreenEntry} {t : State} (delivered : deliveredFor buf id = some d)
    (passes : evaluate old buf named id d (List.range 96) s = (none, t)) : screenSignal old buf named id s =
      ({ entryOf old id with value := d, quality := .fresh, heldCount := 0 }, t) := by
  simp [screenSignal, delivered, passes]

theorem screenSignal_of_fails {named : List ScreenEntry} {t : State} {a : FailAction} {p : Nat}
    (delivered : deliveredFor buf id = some d)
    (fails : evaluate old buf named id d (List.range 96) s = (some (a, p), t)) : screenSignal old buf named id s =
      (if a = .hold then holdPath id (entryOf old id)
        else if a = .subst then substPath id p (entryOf old p) (entryOf old id)
        else { entryOf old id with quality := .bad }, t) := by
  cases a <;> simp [screenSignal, delivered, fails]

end

/-! ### TABLE-WRITE of screening entries (R68, R181) -/

/-- The entry that place `k` of a request writes. -/
def screenWritten (data : List Byte) (k : Nat) : ScreenEntry := decodeScreen ((data.drop (12 * k)).take 12)

theorem screenWritten_at {data : List Byte} {n k : Nat} (lt : k < n) :
    ((chunks 12 n data).map decodeScreen)[k]? = some (screenWritten data k) := by
  simp [chunks_eq, lt, screenWritten]

section
variable {tag : Byte} {data : List Byte} {s : State} (can_take : CanTake s) (tag_ne : tag ≠ 0#8)
  (table : s.hli.cursor.table = 2) (mode : s.hli.cursor.mode = .none) (some_data : data ≠ []) (whole : data.length % 12 = 0)
  (fits : s.hli.cursor.index + data.length / 12 ≤ 96)
include can_take tag_ne table some_data whole fits

theorem exec_tableWrite_screen_of_error {c : RClass} {d : Detail} {q : Nat}
    (refused : writeScreen s.hli.cursor.index ((chunks 12 (data.length / 12) data).map decodeScreen) s = .error (c, d, q)) :
    exec (.tableWrite tag data) s = .next (s.turnedAway 0x87 tag c d q) := by
  have some_entry : data.length / 12 ≠ 0 := by
    have := List.length_pos_of_ne_nil some_data
    omega
  rw [exec_tableWrite can_take tag_ne]
  refine congrArg _ (takeTableWrite_of_error (by rw [table]; exact whole) (by rw [table]; exact some_entry)
    (by rw [table]; decide) (by rw [table]; exact fits) tag ?_)
  rw [table]
  exact refused

include mode

theorem exec_tableWrite_screen_of_ok {t : State}
    (taken : writeScreen s.hli.cursor.index ((chunks 12 (data.length / 12) data).map decodeScreen) s = .ok t)
    (hli : t.hli = s.hli) :
    exec (.tableWrite tag data) s = .next (t.answered 0x87 tag []) := by
  have some_entry : data.length / 12 ≠ 0 := by
    have := List.length_pos_of_ne_nil some_data
    omega
  rw [exec_tableWrite can_take tag_ne]
  have moved := takeTableWrite_of_ok (s := s) (data := data) (t := t) (by rw [table]; exact whole)
    (by rw [table]; exact some_entry) (by rw [table]; decide) (by rw [table]; exact fits) tag (by rw [table]; exact taken)
  have stays : (s.hli.cursor.mode != CursorMode.none) = false := by rw [mode]; rfl
  rw [moved, stays, Cursor.moved_of_stays, ← hli]

end

/-- Settles O35. -/
theorem deliveriesAreScreenedByTheTable : Obligations.DeliveriesAreScreenedByTheTable := by
  refine ⟨?tests, ?screening, ?single, ?several⟩
  case tests =>
    intro old buf e id d
    refine ⟨fun range => testPasses_of_range range .., fun step => testPasses_of_step step .., fun v agree delivered => ?_,
      fun agree none_delivered usable => ?_, fun agree none_delivered lost => ?_⟩
    · simp [testPasses_of_agree agree, delivered, within]
    · simp [testPasses_of_agree agree, none_delivered, usable, within]
    · simp [testPasses_of_agree agree, none_delivered, lost, within]
  case screening =>
    intro old buf id d s delivered e pass
    refine ⟨fun nobody => ?_, fun i c lt entry valid names sound single => ⟨fun passes => ?_, fun fails => ?_⟩⟩
    · refine screenSignal_of_passes delivered (evaluate_of_none (fun j _ named => ?_) s)
      obtain ⟨p, at_j, p_valid, p_names⟩ := names_screenContent_iff.1 named
      exact nobody p (List.mem_of_getElem? at_j) p_valid p_names
    · exact screenSignal_of_passes delivered (by rw [evaluate_of_single lt entry valid names sound single, if_pos passes])
    · have rejected := screenSignal_of_fails delivered
        (by rw [evaluate_of_single lt entry valid names sound single, if_neg (by simp [fails])] :
          evaluate old buf (screenContent s) id d (List.range 96) s = (some (c.action, c.partner), countFailure i c s))
      rw [rejected]
      refine ⟨?_, countFailure_spec i c s⟩
      cases c.action <;> rfl
  case single =>
    intro tag data s can_take tag_ne table lt mode size length e valid input test action range wants unused
    have one : data.length / 12 = 1 := by rw [length]
    have some_data : data ≠ [] := fun h => by simp [h] at length
    have entries : (chunks 12 (data.length / 12) data).map decodeScreen = [e] := by
      rw [one, chunks, List.take_of_length_le length.le]
      rfl
    have passes : screenEntryFailure e = none := by
      rw [screenEntryFailure_eq, if_neg (by simp [input]), if_neg]
      · split
        · rename_i h
          rw [if_pos (wants h)]
        · rename_i h
          rw [if_pos (unused (fun agree => h (.inl agree)) (fun subst => h (.inr subst)))]
      · rintro (h | h | ⟨h, order⟩)
        · exact test h
        · exact action h
        · exact absurd (range h) (by omega)
    obtain ⟨fs, n, struck, count, taken⟩ := writeScreen_of_sound (i := s.hli.cursor.index) (es := [e]) (s := s)
      (.inl (Nat.le_refl 1)) (by simpa using fun _ => passes)
    refine ⟨screenStored e, fs, n, struck, count, ?_, ?_⟩
    · rw [exec_tableWrite_screen_of_ok can_take tag_ne table mode some_data (by rw [length]) (by rw [one]; omega)
        ((congrArg (writeScreen _ · s) entries).trans taken) rfl, ← splice_single _ (by rw [size]; exact lt)]
      rfl
    · rw [screenStored, if_pos valid]
      exact ⟨valid, rfl, rfl, rfl, rfl, rfl, rfl, rfl, fun h => if_pos h⟩
  case several =>
    intro tag data s can_take tag_ne table mode size some_data whole short n i written failing sound stored fits
    let es := (chunks 12 n data).map decodeScreen
    have es_length : es.length = n := by simp only [es]; rw [List.length_map, chunks_length]
    have at_k : ∀ k, k < n → es[k]? = some (written k) := fun k lt => screenWritten_at lt
    have failing_eq : ∀ x, screenEntryFailure x = failing x := screenEntryFailure_eq
    refine ⟨fun many not_halted => ?_, fun allowed => ⟨fun k d lt valid fails before => ?_, fun all_sound => ?_⟩⟩
    · refine exec_tableWrite_screen_of_error can_take tag_ne table some_data whole fits ?_
      show writeScreen i es s = _
      rw [writeScreen, if_pos ⟨es_length ▸ many, not_halted⟩]
    · refine exec_tableWrite_screen_of_error can_take tag_ne table some_data whole fits ?_
      refine writeScreen_of_first (es := es) (allowed.imp_left fun h => by rw [es_length, h]) (at_k k lt) valid
        ((failing_eq _).trans fails) fun j x j_lt at_j x_valid => ?_
      obtain rfl : written j = x := by
        have := at_k j (by omega)
        rw [this] at at_j
        exact Option.some.inj at_j
      exact (failing_eq _).trans (before j j_lt x_valid)
    · have sound_es : ∀ x ∈ es, x.valid = true → screenEntryFailure x = none := fun x mem x_valid => by
        obtain ⟨k, k_lt, rfl⟩ := List.getElem_of_mem mem
        have at_k' := at_k k (es_length ▸ k_lt)
        rw [List.getElem?_eq_getElem k_lt] at at_k'
        rw [Option.some.inj at_k'] at x_valid ⊢
        exact (failing_eq _).trans (all_sound k (es_length ▸ k_lt) x_valid)
      obtain ⟨fs, m, struck, count, taken⟩ := writeScreen_of_sound (i := i) (es := es) (s := s)
        (allowed.imp_left fun h => by rw [es_length, h]) sound_es
      refine ⟨fs, m, struck, count, ?_⟩
      have screen : splice s.sgs.screen i (es.mapIdx fun k e => ⟨screenStored e, if k = 0 then fs else []⟩) =
          s.sgs.screen.mapIdx fun j p => if i ≤ j ∧ j < i + n then ⟨stored (written (j - i)), if j = i then fs else []⟩ else p := by
        rw [splice_mapIdx _ _ _ _ (by rw [es_length, size]; exact fits) written (fun k lt => at_k k (es_length ▸ lt)), es_length]
        congr 1
        funext j p
        by_cases inside : i ≤ j ∧ j < i + n
        · have first : j - i = 0 ↔ j = i := by omega
          rw [if_pos inside, if_pos inside]
          simp only [first]
          rfl
        · rw [if_neg inside, if_neg inside]
      rw [exec_tableWrite_screen_of_ok can_take tag_ne table mode some_data whole fits taken rfl, screen]

end Sys2Proof.Machine
end

section
/-! SUPPORT. A raise as one event (R94): the notice, TRIP_RAISED, the DSC's part, the recorder's, the steering governor's. -/

namespace Sys2Proof.Machine

/-! ### The parts of a raise -/

/-- The TRIP notice and TRIP_RAISED: the first part of a raise. -/
def tripNoticed (c : TripCause) (s : State) : State := latch .tripRaised (notify (.trip c (tripSevere c) s.slc.frameNo) s)

/-- What every raise does before the steering governor's part. -/
def raisedHere (c : TripCause) (s : State) : State :=
  recorderRaise c (tripSevere c) s.slc.frameNo (dscRaise (tripSevere c) (tripNoticed c s))

theorem raise_of_ne_supply {c : TripCause} (h : c ≠ .steerSupply) (s : State) : raise c s = raisedHere c s := by
  rw [raise, if_neg h]
  rfl

theorem raise_supply (s : State) : raise .steerSupply s = steerSupplyRaise s.slc.frameNo (raisedHere .steerSupply s) := by
  rw [raise, if_pos rfl]
  rfl

theorem tripNoticed_frame (c : TripCause) (s : State) : OnlyHli (tripNoticed c s) s := by
  simp [tripNoticed]

theorem tripNoticed_tx (c : TripCause) (s : State) :
    (tripNoticed c s).hli.tx = s.hli.tx ++ sentNotice (.trip c (tripSevere c) s.slc.frameNo) s.hli := by
  simp [tripNoticed, notify_tx]

/-! ### The steering governor's part leaves the host link and the recorder (R153) -/

theorem steerSupplyRaise_outcome (n : Nat) (s : State) : (steerSupplyRaise n s).sgv.result.outcome = .none := by
  unfold steerSupplyRaise
  dsimp only
  split
  · rfl
  · rw [toRelease_sgv]

theorem steerSupplyRaise_hli (n : Nat) (s : State) : (steerSupplyRaise n s).hli = s.hli := by
  unfold steerSupplyRaise
  dsimp only
  split
  · rfl
  · rw [toRelease_hli]

theorem raise_hli (c : TripCause) (s : State) : (raise c s).hli = (raisedHere c s).hli := by
  by_cases supply : c = .steerSupply
  · subst supply
    rw [raise_supply, steerSupplyRaise_hli]
  · rw [raise_of_ne_supply supply]

theorem raise_trc (c : TripCause) (s : State) : (raise c s).trc = (raisedHere c s).trc := by
  by_cases supply : c = .steerSupply
  · subst supply
    rw [raise_supply]
    simp
  · rw [raise_of_ne_supply supply]

/-! ### The recorder's part (R170) -/

/-- The recorder hears a raise: in CAPTURE mode, and where the trigger asks for a SEVERE raise, one. -/
abbrev HearsRaise (severe : Bool) (s : State) : Prop :=
  s.trc.params.capture = true ∧ (severe = true ∨ s.trc.params.severeOnly = false)

section
variable (c : TripCause) (severe : Bool) (n : Nat) {s : State}

theorem recorderRaise_of_deaf (deaf : ¬HearsRaise severe s ∨ s.trc.st = .idle) : recorderRaise c severe n s = s := by
  unfold recorderRaise
  split
  case isFalse => rfl
  case isTrue hears =>
    obtain not_heard | idle := deaf
    · exact absurd (by simpa using hears) not_heard
    · rw [idle]

variable {severe} (hears : HearsRaise severe s)
include hears

theorem recorderRaise_of_running (running : s.trc.st = .running) (post : 0 < s.trc.params.post) :
    recorderRaise c severe n s = { s with trc.st := .post, trc.postCount := s.trc.params.post, trc.marks := [(n, c)] } := by
  unfold recorderRaise
  rw [if_pos (by simpa using hears), running]
  exact if_neg (Nat.pos_iff_ne_zero.1 post)

theorem recorderRaise_of_no_post (running : s.trc.st = .running) (post : s.trc.params.post = 0) :
    recorderRaise c severe n s = notify (.frozen n c) { s with
      trc.st := .frozen, trc.postCount := 0, trc.cursor := 0, trc.marks := [(n, c)] } := by
  unfold recorderRaise
  rw [if_pos (by simpa using hears), running]
  exact (if_pos post).trans (freeze_of_marks rfl)

theorem recorderRaise_of_room (post : s.trc.st = .post) (room : s.trc.marks.length < 4) :
    recorderRaise c severe n s = { s with trc.marks := s.trc.marks ++ [(n, c)] } := by
  unfold recorderRaise
  rw [if_pos (by simpa using hears), post]
  exact if_pos room

theorem recorderRaise_of_missed (missed : s.trc.st = .frozen ∨ s.trc.st = .post ∧ 4 ≤ s.trc.marks.length) :
    recorderRaise c severe n s = { s with trc.missed := satSucc 65535 s.trc.missed } := by
  unfold recorderRaise
  rw [if_pos (by simpa using hears)]
  obtain frozen | ⟨post, full⟩ := missed
  · rw [frozen]
  · rw [post]
    exact if_neg (Nat.not_lt.2 full)

end

/-- The recorder's part leaves the host link but for a FROZEN notice. -/
theorem recorderRaise_hli (c : TripCause) (severe : Bool) (n : Nat) (s : State) :
    (recorderRaise c severe n s).hli = s.hli ∨ ∃ t : State, t.hli = s.hli ∧
      (recorderRaise c severe n s).hli = (notify (.frozen n c) t).hli := by
  by_cases hears : HearsRaise severe s
  · cases st : s.trc.st with
    | idle => exact .inl (by rw [recorderRaise_of_deaf c severe n (.inr st)])
    | running =>
      obtain post | post := Nat.eq_zero_or_pos s.trc.params.post
      · have frozen := congrArg State.hli (recorderRaise_of_no_post c n hears st post)
        refine .inr ⟨_, ?_, frozen⟩
        rfl
      · exact .inl (by rw [recorderRaise_of_running c n hears st post])
    | post =>
      obtain room | full := Nat.lt_or_ge s.trc.marks.length 4
      · exact .inl (by rw [recorderRaise_of_room c n hears st room])
      · exact .inl (by rw [recorderRaise_of_missed c n hears (.inr ⟨st, full⟩)])
    | frozen => exact .inl (by rw [recorderRaise_of_missed c n hears (.inl st)])
  · exact .inl (by rw [recorderRaise_of_deaf c severe n (.inl hears)])

theorem recorderRaise_keepsFlags (c : TripCause) (severe : Bool) (n : Nat) (s : State) :
    KeepsFlags (recorderRaise c severe n s) s := by
  obtain same | ⟨t, base, sent⟩ := recorderRaise_hli c severe n s
  · exact keepsFlags_of_flags (by rw [same])
  · have flags := (notify_keepsFlags (.frozen n c) t).trans (keepsFlags_of_flags (s := s) (by rw [base]))
    exact KeepsFlags.trans (keepsFlags_of_flags (by rw [sent])) flags

theorem recorderRaise_tx (c : TripCause) (severe : Bool) (n : Nat) (s : State) :
    ∃ more, (recorderRaise c severe n s).hli.tx = s.hli.tx ++ more ∧ ∀ m ∈ more, m = .notice (.frozen n c) := by
  obtain same | ⟨t, base, sent⟩ := recorderRaise_hli c severe n s
  · exact ⟨[], by simp [same], by simp⟩
  · refine ⟨sentNotice (.frozen n c) s.hli, by rw [sent, notify_tx, base], fun m mem => ?_⟩
    unfold sentNotice at mem
    split at mem <;> simp_all

/-! ### The DSC's part (R8) -/

theorem dscRaise_keepsFlags (severe : Bool) (s : State) : KeepsFlags (dscRaise severe s) s := by
  unfold dscRaise
  split
  · exact KeepsFlags.trans (notify_keepsFlags _ _) (keepsFlags_of_flags (s := s) rfl)
  · exact keepsFlags_of_flags rfl

theorem dscRaise_tx (severe : Bool) (s : State) :
    ∃ more, (dscRaise severe s).hli.tx = s.hli.tx ++ more ∧ ∀ m ∈ more, m = .notice (.state .drive .safeHold .trip) := by
  unfold dscRaise
  split
  case isTrue severe_drive =>
    refine ⟨sentNotice (.state .drive .safeHold .trip) s.hli, ?_, fun m mem => ?_⟩
    · rw [changeState, notify_tx, severe_drive.2]
    · unfold sentNotice at mem
      split at mem <;> simp_all
  case isFalse => exact ⟨[], by simp, by simp⟩

/-! ### The raise -/

theorem raise_tripRaised (c : TripCause) (s : State) : standing .tripRaised (raise c s) = true := by
  have latched : standing .tripRaised (tripNoticed c s) = true := standing_latch ..
  have kept : KeepsFlags (raisedHere c s) (tripNoticed c s) :=
    KeepsFlags.trans (recorderRaise_keepsFlags _ _ _ _) (dscRaise_keepsFlags _ _)
  exact keepsFlags_of_flags (by rw [raise_hli]) _ (kept _ latched)

theorem raise_tx (c : TripCause) (s : State) (mask : s.hli.force.noticeMask.testBit 1 = true)
    (room : s.hli.tx.countP (·.isNotice) < 6) :
    ∃ more, (raise c s).hli.tx = s.hli.tx ++ .notice (.trip c (tripSevere c) s.slc.frameNo) :: more
      ∧ ∀ m ∈ more, m = .notice (.state .drive .safeHold .trip) ∨ m = .notice (.frozen s.slc.frameNo c) := by
  obtain ⟨stated, state_tx, state_only⟩ := dscRaise_tx (tripSevere c) (tripNoticed c s)
  obtain ⟨frozen, frozen_tx, frozen_only⟩ :=
    recorderRaise_tx c (tripSevere c) s.slc.frameNo (dscRaise (tripSevere c) (tripNoticed c s))
  refine ⟨stated ++ frozen, ?_, fun m mem => (List.mem_append.1 mem).imp (state_only m) (frozen_only m)⟩
  rw [raise_hli, raisedHere, frozen_tx, state_tx, tripNoticed_tx, sentNotice_of_room mask room]
  simp

/-- What the recorder's part meets is the recorder as the raise found it. -/
theorem raisedHere_trc_eq (c : TripCause) (s : State) : (dscRaise (tripSevere c) (tripNoticed c s)).trc = s.trc := by
  have noticed := tripNoticed_frame c s
  simp only [OnlyHli] at noticed
  simp [noticed]

end Sys2Proof.Machine
end

section
/-! SUPPORT. The trip list meets a cause, the pending set, the records TRIP-CLEAR removes (R91 to R97). -/

namespace Sys2Proof.Machine

/-! ### The record of a cause -/

section
variable {α : Type} {p : α → Bool} {pre post : List α} {x : α} (hit : p x = true) (rest : ∀ y ∈ pre ++ post, p y = false)
include hit rest

theorem find?_of_only_one : (pre ++ x :: post).find? p = some x := by
  have not_before : pre.find? p = none := by
    rw [List.find?_eq_none]
    exact fun y mem => by simp [rest y (List.mem_append_left _ mem)]
  rw [List.find?_append, not_before, Option.none_or, List.find?_cons_of_pos hit]

theorem map_if_of_only_one (f : α → α) : (pre ++ x :: post).map (fun y => if p y then f y else y) = pre ++ f x :: post := by
  have others : ∀ {ys : List α}, (∀ y ∈ ys, y ∈ pre ++ post) → ys.map (fun y => if p y then f y else y) = ys :=
    fun sub => (List.map_congr_left fun y mem => by simp [rest y (sub y mem)]).trans (List.map_id _)
  rw [List.map_append, List.map_cons, if_pos hit, others fun y => List.mem_append_left _,
    others fun y => List.mem_append_right _]

end

/-- One record of the cause: an update of it stands in its place. -/
theorem updTrip_of_only_one {pre post : List Trip} {t : Trip} {c : TripCause} {s : State} (list : s.epu.trips = pre ++ t :: post)
    (hit : t.cause = c) (rest : ∀ x ∈ pre ++ post, x.cause ≠ c) (f : Trip → Trip) :
    updTrip c f s = { s with epu.trips := pre ++ f t :: post } := by
  have mapped := map_if_of_only_one (p := fun x => x.cause == c) (x := t) (by simp [hit]) (by simpa using rest) f
  rw [updTrip, list]
  exact congrArg (fun l => ({ s with epu.trips := l } : State)) mapped

theorem find?_trip_of_only_one {pre post : List Trip} {t : Trip} {c : TripCause} {s : State}
    (list : s.epu.trips = pre ++ t :: post) (hit : t.cause = c) (rest : ∀ x ∈ pre ++ post, x.cause ≠ c) :
    s.epu.trips.find? (·.cause == c) = some t := by
  rw [list]
  exact find?_of_only_one (by simp [hit]) (by simpa using rest)

/-! ### A cause that has no record (R93, R95) -/

theorem tripRoom_iff {s : State} : tripRoom s = true ↔ s.epu.trips.countP (·.cause != .overflow) < 7 := by
  exact decide_eq_true_iff

theorem joinPending_of_overflow_held {pre post : List Trip} {o : Trip} {s : State} (list : s.epu.trips = pre ++ o :: post)
    (hit : o.cause = .overflow) (rest : ∀ x ∈ pre ++ post, x.cause ≠ .overflow) (c : TripCause) (detail : Int) :
    joinPending c detail s = { s with
      epu.pendingSet := s.epu.pendingSet ++ [⟨c, s.slc.frameNo, detail⟩]
      epu.trips := pre ++ { o with detail := min 65535 (o.detail + 1), last := s.slc.frameNo } :: post } := by
  have held : s.epu.trips.any (·.cause == .overflow) = true := by simp [list, hit]
  rw [joinPending]
  refine (if_pos held).trans ?_
  exact updTrip_of_only_one (s := { s with epu.pendingSet := s.epu.pendingSet ++ [⟨c, s.slc.frameNo, detail⟩] }) list hit rest _

theorem joinPending_of_no_overflow {s : State} (none_held : s.epu.trips.any (·.cause == .overflow) = false) (c : TripCause)
    (detail : Int) : joinPending c detail s = raise .overflow { s with
      epu.pendingSet := s.epu.pendingSet ++ [⟨c, s.slc.frameNo, detail⟩]
      epu.trips := s.epu.trips ++ [⟨.overflow, true, s.slc.frameNo, s.slc.frameNo, 0, true,
        min 65535 (((s.epu.pendingSet.length + 1 : Nat)) : Int)⟩] } := by
  rw [joinPending]
  refine (if_neg (by simp [hasTrip, none_held])).trans ?_
  simp only [createOverflow, createTrip, List.length_append, List.length_singleton]

section
variable {v : TripView} {s : State} (none_held : s.epu.trips.find? (·.cause == v.cause) = none)
include none_held

theorem updateTrip_of_absent (absent : v.present = false) : updateTrip v s = s := by
  simp [updateTrip, none_held, absent]

theorem updateTrip_of_pending (pending : s.epu.pendingSet.any (·.cause == v.cause) = true) : updateTrip v s = s := by
  simp only [updateTrip, none_held, pending]
  simp

variable (present : v.present = true) (not_pending : s.epu.pendingSet.any (·.cause == v.cause) = false)
include present not_pending

theorem updateTrip_of_room (room : s.epu.trips.countP (·.cause != .overflow) < 7) :
    updateTrip v s = raise v.cause { s with
      epu.trips := s.epu.trips ++ [⟨v.cause, tripSevere v.cause, s.slc.frameNo, s.slc.frameNo, 0, false, v.detail⟩] } := by
  simp only [updateTrip, none_held, present, not_pending, tripRoom_iff.2 room]
  rfl

theorem updateTrip_of_full (full : 7 ≤ s.epu.trips.countP (·.cause != .overflow)) :
    updateTrip v s = joinPending v.cause v.detail s := by
  have no_room : tripRoom s = false := by
    rw [Bool.eq_false_iff, Ne, tripRoom_iff]
    omega
  simp only [updateTrip, none_held, present, not_pending, no_room]
  rfl

end

/-! ### A cause that has a record (R93) -/

section
variable {v : TripView} {pre post : List Trip} {t : Trip} {s : State} (list : s.epu.trips = pre ++ t :: post)
  (hit : t.cause = v.cause) (rest : ∀ x ∈ pre ++ post, x.cause ≠ v.cause)
include list hit rest

theorem updateTrip_of_active (present : v.present = true) (active : t.clearable = false) :
    updateTrip v s = { s with epu.trips := pre ++ { t with last := s.slc.frameNo } :: post } := by
  simp only [updateTrip, find?_trip_of_only_one list hit rest, present, if_true]
  exact (if_neg (by simp [active])).trans (updTrip_of_only_one list hit rest _)

theorem updateTrip_of_gone (absent : v.present = false) :
    updateTrip v s = { s with epu.trips := pre ++ { t with clearable := true } :: post } := by
  simp only [updateTrip, find?_trip_of_only_one list hit rest, absent, Bool.false_eq_true, if_false]
  exact updTrip_of_only_one list hit rest _

theorem updateTrip_of_recurs (present : v.present = true) (clearable : t.clearable = true) :
    updateTrip v s = raise v.cause { s with epu.trips := pre ++ { t with
      clearable := false, recurrences := if t.recurrences < 255 then t.recurrences + 1 else 255
      last := s.slc.frameNo, detail := v.detail } :: post } := by
  simp only [updateTrip, find?_trip_of_only_one list hit rest, present, clearable, if_true]
  exact congrArg (raise v.cause) (updTrip_of_only_one list hit rest _)

end

/-! ### The pending causes (R96) -/

section
variable {views : List TripView} {s : State}

theorem takePending_of_none (none_pending : s.epu.pendingSet = []) : takePending views s = s := by
  simp [takePending, placePending, none_pending]

theorem takePending_of_room {p : PendingTrip} {ps : List PendingTrip} (pending : s.epu.pendingSet = p :: ps)
    (room : s.epu.trips.countP (·.cause != .overflow) < 7) :
    takePending views s = takePending views (raise p.cause { s with
      epu.pendingSet := ps
      epu.trips := s.epu.trips ++ [⟨p.cause, tripSevere p.cause, p.frame, s.slc.frameNo, 0,
        !views.any (fun v => v.cause == p.cause && v.present), p.detail⟩] }) := by
  simp only [takePending, pending, List.length_cons, placePending, tripRoom_iff.2 room, if_true, createTrip,
    (raise_dsc _ _).2.1]

theorem placePending_of_full (full : 7 ≤ s.epu.trips.countP (·.cause != .overflow)) :
    ∀ n, placePending views n s = s
  | 0 => rfl
  | n + 1 => by
    have no_room : tripRoom s = false := by
      rw [Bool.eq_false_iff, Ne, tripRoom_iff]
      omega
    rw [placePending]
    cases s.epu.pendingSet with
    | nil => rfl
    | cons p ps => simp [no_room]

theorem takePending_of_full (some_pending : s.epu.pendingSet ≠ []) (full : 7 ≤ s.epu.trips.countP (·.cause != .overflow)) :
    takePending views s = if s.epu.trips.any (·.cause == .overflow) then s
      else raise .overflow { s with epu.trips := s.epu.trips ++ [⟨.overflow, true, s.slc.frameNo, s.slc.frameNo, 0, true,
        min 65535 ((s.epu.pendingSet.length : Nat) : Int)⟩] } := by
  rw [takePending, placePending_of_full full]
  cases held : s.epu.trips.any (·.cause == .overflow)
  · exact if_pos ⟨some_pending, by simp [hasTrip, held]⟩
  · exact if_neg (by simp [hasTrip, held])

end

theorem notify_trc (n : Notice) (s : State) : (notify n s).trc = s.trc := by
  simp

/-- Settles O40. -/
theorem tripsAreRecordedAndRaised : Obligations.TripsAreRecordedAndRaised := by
  refine ⟨fun v s => ⟨fun none_held => updateTrip_of_absent none_held, fun none_held _ => updateTrip_of_pending none_held,
      fun none_held present not_pending => updateTrip_of_room none_held present not_pending,
      fun none_held present not_pending full => ?joins,
      fun pre post t list hit rest => ⟨updateTrip_of_active list hit rest, updateTrip_of_gone list hit rest,
        updateTrip_of_recurs list hit rest⟩⟩,
    fun views s => ⟨rfl, takePending_of_none, fun p ps pending not_full =>
        takePending_of_room pending (Nat.lt_of_not_le not_full), ?overflows, ?stays⟩,
    ?severe, fun c s => ?raise⟩
  case joins =>
    have joins := updateTrip_of_full none_held present not_pending full
    exact ⟨fun no_overflow => joins.trans (joinPending_of_no_overflow no_overflow ..),
      fun pre post o list hit rest => joins.trans (joinPending_of_overflow_held list hit rest ..)⟩
  case overflows =>
    intro some_pending full none_held
    rw [takePending_of_full some_pending full, if_neg (by simp [none_held])]
  case stays =>
    intro some_pending full held
    rw [takePending_of_full some_pending full, if_pos held]
  case severe =>
    intro c
    cases c <;> simp [tripSevere]
  case raise =>
    intro t n p heard
    obtain ⟨dsc, epu, sgv⟩ := raise_dsc c s
    have heard_here := raisedHere_trc_eq c s
    have trc : t.trc = (raisedHere c s).trc := raise_trc c s
    have hears (h : heard) : HearsRaise (tripSevere c) (dscRaise (tripSevere c) (tripNoticed c s)) := by
      rw [HearsRaise, heard_here]
      exact h
    refine ⟨fun drive severe => ?_, fun other => ?_, raise_tripRaised c s, epu, by rw [dsc], ?_, sgv, fun deaf => ?_,
      fun h running post => ?_, fun h running post => ?_, fun h post room => ?_, fun h missed => ?_, raise_tx c s⟩
    · rw [dsc]
      exact if_pos ⟨severe, drive⟩
    · rw [dsc]
      refine if_neg fun ⟨severe, drive⟩ => ?_
      obtain not_drive | limiting := other
      · exact not_drive drive
      · simp [severe] at limiting
    · rintro rfl
      exact (congrArg (·.sgv.result.outcome) (raise_supply s)).trans (steerSupplyRaise_outcome ..)
    · rw [trc, raisedHere, recorderRaise_of_deaf _ _ _ (by rwa [HearsRaise, heard_here]), heard_here]
    · rw [trc, raisedHere, recorderRaise_of_running _ _ (hears h) (by rwa [heard_here]) (by rwa [heard_here]), heard_here]
    · rw [trc, raisedHere, recorderRaise_of_no_post _ _ (hears h) (by rwa [heard_here]) (by rwa [heard_here]),
        notify_trc, heard_here]
    · rw [trc, raisedHere, recorderRaise_of_room _ _ (hears h) (by rwa [heard_here]) (by rwa [heard_here]), heard_here]
    · rw [trc, raisedHere, recorderRaise_of_missed _ _ (hears h) (by rwa [heard_here]), heard_here]
      rfl

/-! ### TRIP-CLEAR (R97) -/

theorem tripOfCode_tripCode (c : TripCause) : tripOfCode (tripCode c) = some c := by
  cases c <;> rfl

theorem tripCode_of_tripOfCode {n : Nat} {c : TripCause} (h : tripOfCode n = some c) : tripCode c = n := by
  unfold tripOfCode at h
  split at h <;> simp_all <;> subst h <;> rfl

theorem tripCode_ne_ff (c : TripCause) : tripCode c ≠ (0xFF#8).toNat := by
  cases c <;> decide

theorem exec_tripClear {tag : Byte} {s : State} (can_take : CanTake s) (tag_ne : tag ≠ 0#8) (cause : Byte) :
    exec (.tripClear tag cause) s = .next (takeTripClear tag cause s) :=
  exec_take (c := .tripClear tag cause) rfl can_take tag_ne (by simp) (.inr rfl)

theorem clearTrips_eq (tag : Byte) (which : TripCause → Bool) (s : State) :
    clearTrips tag which s =
      let keep := s.epu.trips.filter (fun t => !(t.clearable && which t.cause))
      { s with epu.trips := keep }.answered 0x8C tag
        (vCount (s.epu.trips.length - keep.length) ++ vCount (keep.countP (fun (t : Trip) => !t.clearable))) :=
  done_eq (k := 0x0C#8) (by decide) ..

/-- Settles O41. -/
theorem tripClearRemovesClearableRecords : Obligations.TripClearRemovesClearableRecords := by
  intro tag cause s can_take tag_ne clear
  have taken := exec_tripClear can_take tag_ne cause
  refine ⟨fun all => ?_, fun c code => ?_, fun not_all no_cause => ?_⟩
  · rw [taken, takeTripClear, if_pos all, clearTrips_eq]
    simp only [Bool.and_true]
    rfl
  · have not_all : cause ≠ 0xFF#8 := fun all => tripCode_ne_ff c (by rw [code, all])
    rw [taken, takeTripClear, if_neg not_all, ← code, tripOfCode_tripCode]
    exact congrArg Host.Outcome.next (clearTrips_eq tag (· == c) s)
  · have unknown : tripOfCode cause.toNat = none := by
      cases known : tripOfCode cause.toNat with
      | none => rfl
      | some c => exact absurd (tripCode_of_tripOfCode known) (no_cause c)
    rw [taken, takeTripClear, if_neg not_all, unknown]
    exact congrArg Host.Outcome.next (refuse_eq (by decide) ..)

end Sys2Proof.Machine
end

section
/-! SUPPORT. The derate list meets a key, and a hold runs out (R90). -/

namespace Sys2Proof.Machine

theorem hasKey_of_eq {d : Derate} {c : DerateCause} {t : DerateTarget} (cause : d.cause = c) (target : d.target = t) :
    d.hasKey c t = true := by
  simp [Derate.hasKey, cause, target]

/-! ### The list meets a key -/

section
variable {n hold : Nat} {k : KeyView} {ds : List Derate}

theorem updateDerate_of_no_record (none_held : ∀ d ∈ ds, d.hasKey k.cause k.target = false) :
    updateDerate n hold k ds = if k.present then
      ds ++ [⟨k.cause, k.target, k.kind, k.limit.getD (baseLimit k.kind), n, false, 0⟩] else ds := by
  refine if_neg ?_
  rw [List.any_eq_true]
  rintro ⟨d, mem, key⟩
  simp [none_held d mem] at key

theorem filterMap_of_other_keys (f : Derate → Option Derate) (others : ∀ d ∈ ds, d.hasKey k.cause k.target = false) :
    ds.filterMap (fun d => if d.hasKey k.cause k.target then f d else some d) = ds :=
  (List.filterMap_congr fun d mem => by simp [others d mem]).trans (List.filterMap_some (l := ds))

/-- One record of the key: what it becomes stands in its place. -/
theorem updateDerate_of_record {pre post : List Derate} {d : Derate} (hit : d.hasKey k.cause k.target = true)
    (rest : ∀ x ∈ pre ++ post, x.hasKey k.cause k.target = false) :
    updateDerate n hold k (pre ++ d :: post) = pre ++ (d.meet hold k).toList ++ post := by
  have held : (pre ++ d :: post).any (Derate.hasKey k.cause k.target) = true := by simp [hit]
  rw [updateDerate, if_pos held, List.filterMap_append, filterMap_of_other_keys _ fun x mem => rest x (List.mem_append_left _ mem),
    List.filterMap_cons, filterMap_of_other_keys _ fun x mem => rest x (List.mem_append_right _ mem), if_pos hit]
  cases d.meet hold k <;> simp

end

/-! ### A hold runs out -/

theorem exec_derateHoldExpiry {s : State} (live : Live s) (c : DerateCause) (t : DerateTarget) :
    exec (.derateHoldExpiry c t) s = .next (derateHoldExpiry c t s) :=
  live_of_run _ live

theorem derateHoldExpiry_of_record {c : DerateCause} {t : DerateTarget} {pre post : List Derate} {d : Derate} {s : State}
    (governing : s.dsc.gov ≠ .halted) (list : s.epu.derates = pre ++ d :: post) (hit : d.hasKey c t = true)
    (holding : d.holding = true) (rest : ∀ x ∈ pre ++ post, x.hasKey c t = false) :
    derateHoldExpiry c t s = if d.holdRemaining ≤ 1 then { s with epu.derates := pre ++ post } else s := by
  have others : ∀ {ys : List Derate}, (∀ y ∈ ys, y ∈ pre ++ post) →
      ys.filter (fun d => !(d.hasKey c t && d.holding && decide (d.holdRemaining ≤ 1))) = ys :=
    fun sub => List.filter_eq_self.2 fun y mem => by simp [rest y (sub y mem)]
  rw [derateHoldExpiry, if_neg governing, list, List.filter_append, List.filter_cons, others fun y => List.mem_append_left _,
    others fun y => List.mem_append_right _]
  by_cases last : d.holdRemaining ≤ 1
  · simp [hit, holding, last]
  · simp only [hit, holding, last, ← list, Bool.and_self, decide_false, Bool.not_false, Bool.and_false, if_true, if_false]

/-- Settles O39. -/
theorem deratesAreMadeHeldAndRemoved : Obligations.DeratesAreMadeHeldAndRemoved := by
  refine ⟨fun n hold k ds => ⟨fun none_held => ⟨fun absent => ?_, fun l present limit => ?_⟩,
      fun pre post d list cause target rest => ?_⟩,
    fun c t pre post d s live => ⟨fun halted => ?_, fun governing list cause target holding rest => ?_⟩,
    fun n hold ks ds => rfl⟩
  · rw [updateDerate_of_no_record none_held, if_neg (by simp [absent])]
  · rw [updateDerate_of_no_record none_held, if_pos present, limit]
    rfl
  · rw [list, updateDerate_of_record (hasKey_of_eq cause target) rest, Derate.meet]
    split_ifs <;> simp_all
  · rw [exec_derateHoldExpiry live, derateHoldExpiry, if_pos halted]
  · rw [exec_derateHoldExpiry live, derateHoldExpiry_of_record governing list (hasKey_of_eq cause target) holding rest]

end Sys2Proof.Machine
end

section
/-! SUPPORT. The haul payload and the envelope (R82, R83, R99, R100). -/

namespace Sys2Proof.Machine

/-! ### The envelope (R99, R100) -/

/-- `m` is the least of `base` and the limits of the records that apply. -/
def LeastLimit (ds : List Derate) (applies : Derate → Prop) (m base : Int) : Prop :=
  m ≤ base ∧ (∀ d ∈ ds, applies d → m ≤ d.limit) ∧ (m = base ∨ ∃ d ∈ ds, applies d ∧ m = d.limit)

theorem leastLimit_least (ds : List Derate) (base : Int) : LeastLimit ds (fun _ => True) (leastLimit base ds) base := by
  induction ds generalizing base with
  | nil => exact ⟨Int.le_refl _, by simp, .inl rfl⟩
  | cons d ds ih =>
    obtain ⟨le_base, le_each, reached⟩ := ih (min base d.limit)
    refine ⟨le_base.trans (min_le_left ..), fun x mem _ => ?_, ?_⟩
    · obtain rfl | mem := List.mem_cons.1 mem
      · exact le_base.trans (min_le_right ..)
      · exact le_each x mem trivial
    · obtain start | ⟨x, mem, -, eq⟩ := reached
      · obtain low | low := min_choice base d.limit
        · exact .inl (start.trans low)
        · exact .inr ⟨d, List.mem_cons_self .., trivial, start.trans low⟩
      · exact .inr ⟨x, List.mem_cons_of_mem _ mem, trivial, eq⟩

theorem leastLimit_filter (ds : List Derate) (base : Int) (p : Derate → Bool) {applies : Derate → Prop}
    (means : ∀ d, p d = true ↔ applies d) : LeastLimit ds applies (leastLimit base (ds.filter p)) base := by
  obtain ⟨le_base, le_each, reached⟩ := leastLimit_least (ds.filter p) base
  refine ⟨le_base, fun d mem ok => le_each d (List.mem_filter.2 ⟨mem, (means d).2 ok⟩) trivial, reached.imp_right ?_⟩
  rintro ⟨d, mem, -, eq⟩
  obtain ⟨mem, ok⟩ := List.mem_filter.1 mem
  exact ⟨d, mem, (means d).1 ok, eq⟩

theorem wheelLimit_least (side : DerateTarget) (kind : DerateKind) (ds : List Derate) :
    LeastLimit ds (fun d => (d.target = side ∨ d.target = .vehicle) ∧ (d.kind = kind ∨ d.kind = .torque))
      (leastLimit 1000 (wheelDerates side kind ds)) 1000 :=
  leastLimit_filter ds 1000 _ fun d => by simp

/-- A bound from the trip list lowers the base. -/
theorem LeastLimit.lowered {ds : List Derate} {applies : Derate → Prop} {m base : Int} (least : LeastLimit ds applies m base)
    {b : Int} (lower : b ≤ base) : LeastLimit ds applies (min m b) b := by
  obtain ⟨le_base, le_each, reached⟩ := least
  refine ⟨min_le_right .., fun d mem ok => (min_le_left ..).trans (le_each d mem ok), ?_⟩
  obtain low | low := min_choice m b
  · obtain eq | ⟨d, mem, ok, eq⟩ := reached
    · exact .inl (by omega)
    · exact .inr ⟨d, mem, ok, low.trans eq⟩
  · exact .inl low

/-- The speed limit's base by the trip list (R99). -/
def speedBase (s : State) : Int :=
  if hasTrip .payloadGross s then 100 else if hasTrip .screenFault s then 200 else 640

theorem speedLimitOf_least (s : State) : LeastLimit s.epu.derates (fun d => d.kind = .speed) (speedLimitOf s) (speedBase s) := by
  have open_road : LeastLimit s.epu.derates (fun d => d.kind = .speed)
      (leastLimit 640 (s.epu.derates.filter (·.kind == .speed))) 640 :=
    leastLimit_filter _ _ _ fun d => by simp
  unfold speedLimitOf speedBase
  cases hasTrip .payloadGross s <;> cases hasTrip .screenFault s
  · exact open_road
  · exact open_road.lowered (by omega)
  · exact open_road.lowered (by omega)
  · have both := open_road.lowered (b := 100) (by omega)
    have capped : min (min (leastLimit 640 (s.epu.derates.filter (·.kind == .speed))) 100) 200
        = min (leastLimit 640 (s.epu.derates.filter (·.kind == .speed))) 100 := by omega
    simp only [if_true, capped]
    exact both

theorem steerRateOf_eq (s : State) : steerRateOf s =
    (let r : Int := if 300 < s.sgs.vspd.value ∨ s.sgs.vspd.quality.usable = false
        then min (10 * (s.hli.force.steerRate : Int)) 80 else 10 * (s.hli.force.steerRate : Int)
     if s.epu.cls = .over ∨ s.epu.cls = .gross then r / 2 else r) := by
  simp only [steerRateOf, Bool.not_eq_true', mul_comm (10 : Int)]

/-! ### The haul payload (R82, R83) -/

/-- A mean to the nearest step lies within half a step. -/
theorem roundNearest_near (site : Config.RoundSite) (num : Int) {den : Int} (pos : 0 < den) :
    -den ≤ 2 * num - 2 * (den * roundNearest site num den) ∧ 2 * num - 2 * (den * roundNearest site num den) ≤ den := by
  have parts := Int.mul_ediv_add_emod num den
  have low := Int.emod_nonneg num pos.ne'
  have high := Int.emod_lt_of_pos num pos
  unfold roundNearest
  dsimp only
  split_ifs <;> constructor <;> (try rw [mul_add, mul_one]) <;> omega

section
variable {s : State}

theorem weighPayload_of_rest (rest : atRest s = true) : weighPayload s = { s with
    epu.restCount := satSucc 65535 s.epu.restCount
    epu.restWindow := (s.epu.restWindow ++ [(s.sgs.payload.value, s.sgs.payload.quality.usable)]).drop
      (s.epu.restWindow.length + 1 - 50) } := by
  simp [weighPayload, rest]

theorem weighPayload_of_leaving (moving : atRest s = false) (rested : 0 < s.epu.restCount) :
    weighPayload s = { captureHaul s with epu.restCount := 0, epu.restWindow := [] } := by
  simp [weighPayload, moving, rested]

theorem weighPayload_of_away (moving : atRest s = false) (none_rested : s.epu.restCount = 0) : weighPayload s = s := by
  simp [weighPayload, moving, none_rested]

theorem captureHaul_of_short (short : s.epu.restCount < 50) : captureHaul s = s := if_pos short

theorem captureHaul_of_unknown (long : 50 ≤ s.epu.restCount) (gap : s.epu.restWindow.all (·.2) = false) :
    captureHaul s = { s with epu.cls := .unknown } :=
  (if_neg (Nat.not_lt.2 long)).trans (if_neg (by simp [gap]))

theorem captureHaul_of_window (long : 50 ≤ s.epu.restCount) (whole : s.epu.restWindow.all (·.2) = true) :
    captureHaul s = { s with
      epu.haul := roundNearest .haulPayload ((s.epu.restWindow.map (·.1)).sum) 50
      epu.cls := classOf s.hli.force.ratedPayload (roundNearest .haulPayload ((s.epu.restWindow.map (·.1)).sum) 50) } :=
  (if_neg (Nat.not_lt.2 long)).trans (if_pos whole)

end

theorem classOf_iff (rated haul : Int) :
    (classOf rated haul = .empty ↔ 100 * haul < 15 * (10 * rated))
      ∧ (0 ≤ rated → (classOf rated haul = .loaded ↔ 15 * (10 * rated) ≤ 100 * haul ∧ 100 * haul ≤ 100 * (10 * rated))
        ∧ (classOf rated haul = .over ↔ 100 * (10 * rated) < 100 * haul ∧ 100 * haul ≤ 110 * (10 * rated))
        ∧ (classOf rated haul = .gross ↔ 110 * (10 * rated) < 100 * haul)) := by
  unfold classOf
  split_ifs <;> refine ⟨?_, fun nonneg => ⟨?_, ?_, ?_⟩⟩ <;> simp <;> omega

end Sys2Proof.Machine
end

section
/-! SUPPORT. What an evaluation, the blocks of a publication and a pass begun leave: the frame they stand in (R50, R80). -/

namespace Sys2Proof.Machine

/-! ### The frame that an operation leaves standing -/

/-- The frame, the directory, the demand record and the settings stand; DRIVE can go to SAFE-HOLD, no flag goes. -/
structure FrameStands (t s : State) : Prop where
  pins : t.pins = s.pins
  demand : t.dsc.demand = s.dsc.demand
  gov : t.dsc.gov = s.dsc.gov ∨ s.dsc.gov = .drive ∧ t.dsc.gov = .safeHold
  dir : t.slc.dir = s.slc.dir
  frameNo : t.slc.frameNo = s.slc.frameNo
  mark : t.slc.markReached = s.slc.markReached
  force : t.hli.force = s.hli.force
  stored : t.hli.stored = s.hli.stored
  flags : KeepsFlags t s

namespace FrameStands

theorem refl (s : State) : FrameStands s s :=
  ⟨rfl, rfl, .inl rfl, rfl, rfl, rfl, rfl, rfl, keepsFlags_of_flags rfl⟩

theorem trans {u t s : State} (h : FrameStands u t) (h' : FrameStands t s) : FrameStands u s where
  pins := h.pins.trans h'.pins
  demand := h.demand.trans h'.demand
  gov := by
    obtain same | ⟨drive, held⟩ := h.gov
    · rw [same]
      exact h'.gov
    · obtain same' | ⟨_, held'⟩ := h'.gov
      · exact .inr ⟨same'.symm.trans drive, held⟩
      · simp [held'] at drive
  dir := h.dir.trans h'.dir
  frameNo := h.frameNo.trans h'.frameNo
  mark := h.mark.trans h'.mark
  force := h.force.trans h'.force
  stored := h.stored.trans h'.stored
  flags := h.flags.trans h'.flags

/-- What neither the pins, the DSC, the station loop nor the settings and flags show leaves the frame standing. -/
theorem of_eq {t s : State} (pins : t.pins = s.pins) (dsc : t.dsc = s.dsc) (dir : t.slc.dir = s.slc.dir)
    (frameNo : t.slc.frameNo = s.slc.frameNo) (mark : t.slc.markReached = s.slc.markReached)
    (hli : t.hli.force = s.hli.force ∧ t.hli.stored = s.hli.stored) (flags : KeepsFlags t s) : FrameStands t s :=
  ⟨pins, by rw [dsc], .inl (by rw [dsc]), dir, frameNo, mark, hli.1, hli.2, flags⟩

theorem governing_not_drive {t s : State} (h : FrameStands t s) (not_drive : s.dsc.gov ≠ .drive) : t.dsc.gov = s.dsc.gov :=
  h.gov.resolve_right fun ⟨drive, _⟩ => not_drive drive

theorem governing_drive {t s : State} (h : FrameStands t s) (drive : s.dsc.gov = .drive) :
    t.dsc.gov = .drive ∨ t.dsc.gov = .safeHold :=
  h.gov.imp (fun same => same.trans drive) fun ⟨_, held⟩ => held

end FrameStands

/-! ### Notices, flags and counts -/

theorem latch_stands (f : Flag) (s : State) : FrameStands (latch f s) s :=
  .of_eq rfl rfl rfl rfl rfl ⟨rfl, rfl⟩ (keepsFlags_of_or rfl)

theorem latchIf_stands (b : Bool) (f : Flag) (s : State) : FrameStands (latchIf b f s) s := by
  cases b
  · exact .refl s
  · exact latch_stands f s

theorem bump_stands (c : CounterId) (s : State) : FrameStands (bump c s) s := by
  refine .of_eq ?_ ?_ ?_ ?_ ?_ ?_ (keepsFlags_of_flags ?_) <;> simp

theorem notify_stands (n : Notice) (s : State) : FrameStands (notify n s) s := by
  refine .of_eq ?_ ?_ ?_ ?_ ?_ ?_ (notify_keepsFlags n s) <;> simp

/-! ### A raise (R94) -/

/-- Only what a raise can change may differ: the DSC, the service queue, the EPU, the SGV, the recorder, the host link. -/
@[simp] abbrev OnlyRaise (t s : State) : Prop :=
  t.pins = s.pins ∧ t.out = s.out ∧ t.sgs = s.sgs ∧ t.tal = s.tal ∧ t.rgv = s.rgv ∧ t.imn = s.imn ∧ t.pending = s.pending
    ∧ OnlyQueue t s ∧ t.hli.counters.screenRejects = s.hli.counters.screenRejects

theorem notify_rejects (n : Notice) (s : State) : (notify n s).hli.counters.screenRejects = s.hli.counters.screenRejects := by
  obtain same | queued | dropped := notify_hli n s
  · rw [same]
  · rw [queued]
  · rw [dropped]
    rfl

theorem changeState_stands_safeHold {s : State} (drive : s.dsc.gov = .drive) (c : StateCause) :
    FrameStands (changeState .safeHold c s) s := by
  refine .trans (notify_stands ..) ?_
  exact ⟨rfl, rfl, .inr ⟨drive, rfl⟩, rfl, rfl, rfl, rfl, rfl, keepsFlags_of_flags rfl⟩

theorem dscRaise_stands (severe : Bool) (s : State) : FrameStands (dscRaise severe s) s := by
  unfold dscRaise
  split
  case isTrue h => exact changeState_stands_safeHold h.2 _
  case isFalse => exact .refl s

theorem dscRaise_rejects (severe : Bool) (s : State) :
    (dscRaise severe s).hli.counters.screenRejects = s.hli.counters.screenRejects := by
  unfold dscRaise
  split
  · exact notify_rejects ..
  · rfl

theorem recorderRaise_settings (c : TripCause) (severe : Bool) (n : Nat) (s : State) :
    (recorderRaise c severe n s).hli.force = s.hli.force ∧ (recorderRaise c severe n s).hli.stored = s.hli.stored
      ∧ (recorderRaise c severe n s).hli.counters.screenRejects = s.hli.counters.screenRejects := by
  obtain same | ⟨t, base, sent⟩ := recorderRaise_hli c severe n s
  · simp [same]
  · have rejects := notify_rejects (.frozen n c) t
    simp [sent, base, rejects]

theorem recorderRaise_stands (c : TripCause) (severe : Bool) (n : Nat) (s : State) :
    FrameStands (recorderRaise c severe n s) s := by
  obtain ⟨force, stored, -⟩ := recorderRaise_settings c severe n s
  refine .of_eq ?_ ?_ ?_ ?_ ?_ ⟨force, stored⟩ (recorderRaise_keepsFlags c severe n s) <;> simp

theorem raisedHere_stands (c : TripCause) (s : State) : FrameStands (raisedHere c s) s :=
  (recorderRaise_stands ..).trans ((dscRaise_stands ..).trans ((latch_stands ..).trans (notify_stands ..)))

theorem raisedHere_only (c : TripCause) (s : State) : OnlyRaise (raisedHere c s) s := by
  have rejects : (raisedHere c s).hli.counters.screenRejects = s.hli.counters.screenRejects := by
    obtain ⟨-, -, recorded⟩ :=
      recorderRaise_settings c (tripSevere c) s.slc.frameNo (dscRaise (tripSevere c) (tripNoticed c s))
    rw [raisedHere, recorded, dscRaise_rejects, tripNoticed, latch_hli]
    exact notify_rejects ..
  have others : ∀ u, OnlyTrcHli u (dscRaise (tripSevere c) (tripNoticed c s)) → u.pins = s.pins ∧ u.out = s.out
      ∧ u.sgs = s.sgs ∧ u.tal = s.tal ∧ u.rgv = s.rgv ∧ u.imn = s.imn ∧ u.pending = s.pending ∧ OnlyQueue u s := by
    intro u frame
    simp only [OnlyTrcHli] at frame
    simp [frame, tripNoticed]
  obtain ⟨pins, out, sgs, tal, rgv, imn, pending, queue⟩ := others _ (recorderRaise_frame ..)
  exact ⟨pins, out, sgs, tal, rgv, imn, pending, queue, rejects⟩

theorem steerSupplyRaise_queue (n : Nat) (s : State) : OnlyQueue (steerSupplyRaise n s) s := by
  simp only [steerSupplyRaise]
  split <;> simp

theorem raise_only (c : TripCause) (s : State) : OnlyRaise (raise c s) s := by
  have here := raisedHere_only c s
  by_cases supply : c = .steerSupply
  · subst supply
    have queue := steerSupplyRaise_queue s.slc.frameNo (raisedHere .steerSupply s)
    have frame := steerSupplyRaise_frame s.slc.frameNo (raisedHere .steerSupply s)
    have hli := steerSupplyRaise_hli s.slc.frameNo (raisedHere .steerSupply s)
    rw [raise_supply]
    simp only [OnlyRaise, OnlyQueue, OnlySlcSgvHli] at here queue frame ⊢
    simp only [frame, queue, hli, here, and_self]
  · rwa [raise_of_ne_supply supply]

theorem raise_stands (c : TripCause) (s : State) : FrameStands (raise c s) s := by
  obtain ⟨dsc, -, -⟩ := raise_dsc c s
  obtain ⟨pins, -, -, -, -, -, -, ⟨-, -, dir, -, -, frameNo, -, -, mark, -⟩, -⟩ := raise_only c s
  have here := raisedHere_stands c s
  refine ⟨pins, by rw [dsc], ?_, dir, frameNo, mark, ?_, ?_, ?_⟩
  · rw [dsc]
    dsimp only
    split
    case isTrue severe_drive => exact .inr ⟨severe_drive.2, rfl⟩
    case isFalse => exact .inl rfl
  · rw [raise_hli, here.force]
  · rw [raise_hli, here.stored]
  · exact KeepsFlags.trans (keepsFlags_of_flags (by rw [raise_hli])) here.flags

/-! ### The trip list brought up to date (R93, R96) -/

/-- An operation on the trip list: the frame stands, and only what a raise can change differs. -/
structure TripsOnly (t s : State) : Prop where
  stands : FrameStands t s
  only : OnlyRaise t s

namespace TripsOnly

theorem refl (s : State) : TripsOnly s s := ⟨.refl s, by simp⟩

theorem trans {u t s : State} (h : TripsOnly u t) (h' : TripsOnly t s) : TripsOnly u s := by
  refine ⟨h.stands.trans h'.stands, ?_⟩
  have first := h.only
  have second := h'.only
  simp only [OnlyRaise, OnlyQueue] at first second ⊢
  simp only [first, second, and_self]

theorem of_epu (e : Epu) (s : State) : TripsOnly { s with epu := e } s :=
  ⟨.of_eq rfl rfl rfl rfl rfl ⟨rfl, rfl⟩ (keepsFlags_of_flags rfl), by simp⟩

end TripsOnly

theorem raise_trips (c : TripCause) (s : State) : TripsOnly (raise c s) s := ⟨raise_stands c s, raise_only c s⟩

theorem createTrip_trips (x : Trip) (s : State) : TripsOnly (createTrip x s) s :=
  (raise_trips ..).trans (.of_epu _ s)

theorem joinPending_trips (c : TripCause) (detail : Int) (s : State) : TripsOnly (joinPending c detail s) s := by
  unfold joinPending
  dsimp only
  split
  · exact .trans (.of_epu _ _) (.of_epu _ s)
  · exact (createTrip_trips ..).trans (.of_epu _ s)

theorem updateTrip_trips (v : TripView) (s : State) : TripsOnly (updateTrip v s) s := by
  unfold updateTrip
  dsimp only
  split
  case h_1 =>
    split
    · split
      · exact createTrip_trips ..
      · exact joinPending_trips ..
    · exact .refl s
  case h_2 =>
    split
    · split
      · exact (raise_trips ..).trans (.of_epu _ s)
      · exact .of_epu _ s
    · exact .of_epu _ s

theorem placePending_trips (views : List TripView) (n : Nat) (s : State) : TripsOnly (placePending views n s) s := by
  induction n generalizing s with
  | zero => exact .refl s
  | succ n ih =>
    unfold placePending
    split
    · exact .refl s
    · split
      · exact (ih _).trans ((createTrip_trips ..).trans (.of_epu _ s))
      · exact .refl s

theorem takePending_trips (views : List TripView) (s : State) : TripsOnly (takePending views s) s := by
  unfold takePending
  dsimp only
  split
  · exact (createTrip_trips ..).trans (placePending_trips ..)
  · exact placePending_trips ..

theorem updateTrips_trips (views : List TripView) (s : State) : TripsOnly (updateTrips views s) s := by
  have each : ∀ (vs : List TripView) (t : State), TripsOnly (vs.foldl (fun u v => updateTrip v u) t) t := by
    intro vs
    induction vs with
    | nil => exact .refl
    | cons v vs ih => exact fun t => (ih _).trans (updateTrip_trips v t)
  exact (each _ _).trans (takePending_trips views s)

theorem weighPayload_trips (s : State) : TripsOnly (weighPayload s) s := by
  unfold weighPayload
  split
  · exact .of_epu _ s
  · split
    · refine .trans (.of_epu _ _) ?_
      unfold captureHaul
      split_ifs
      exacts [.refl s, .of_epu _ s, .of_epu _ s]
    · exact .refl s

end Sys2Proof.Machine
end

section
/-! SUPPORT. What the guarded reads and the computations of a publication leave, whatever the image holds (R50, R80, R104,
R120, R148, R178). -/

namespace Sys2Proof.Machine

/-! ### Guarded reads of the image (R176, R178) -/

/-- What reads of the image leave: all but the image, the guard of its memory, flags. -/
structure ImageReads (t s : State) : Prop where
  frame : OnlySgsImnHli t s
  sgs : t.sgs = { s.sgs with image := t.sgs.image }
  posting : t.imn.posting = s.imn.posting
  stands : FrameStands t s

theorem ImageReads.refl (s : State) : ImageReads s s := ⟨by simp, rfl, rfl, .refl s⟩

theorem ImageReads.trans {u t s : State} (h : ImageReads u t) (h' : ImageReads t s) : ImageReads u s := by
  refine ⟨?_, ?_, h.posting.trans h'.posting, h.stands.trans h'.stands⟩
  · have first := h.frame
    have second := h'.frame
    simp only [OnlySgsImnHli] at first second ⊢
    simp only [first, second, and_self]
  · rw [h.sgs, h'.sgs]

theorem noteCorrected_reads (n : Nat) (i : List (Prot ImageEntry)) (s : State) :
    ImageReads (noteCorrected .image n { s with sgs.image := i }) s :=
  ⟨by simp, rfl, rfl, (latch_stands ..).trans (.of_eq rfl rfl rfl rfl rfl ⟨rfl, rfl⟩ (keepsFlags_of_flags rfl))⟩

theorem noteUncorrectable_reads (n : Nat) (i : List (Prot ImageEntry)) (s : State) :
    ImageReads (noteUncorrectable .image n { s with sgs.image := i }) s :=
  ⟨by simp, rfl, rfl, (latch_stands ..).trans (.of_eq rfl rfl rfl rfl rfl ⟨rfl, rfl⟩ (keepsFlags_of_flags rfl))⟩

theorem latchIf_reads (b : Bool) (f : Flag) (s : State) : ImageReads (latchIf b f s) s := by
  refine ⟨by simp, ?_, ?_, latchIf_stands b f s⟩ <;> cases b <;> rfl

theorem readImage_reads (id : Nat) (s : State) : ImageReads (readImage id s).2 s := by
  unfold readImage
  split
  · exact .refl s
  · split
    · exact .refl s
    · exact noteCorrected_reads ..
    · exact (latchIf_reads ..).trans (noteUncorrectable_reads ..)

theorem readImages_reads (ids : List Nat) (s : State) : ImageReads (readImages ids s).2 s := by
  induction ids generalizing s with
  | nil => exact .refl s
  | cons id ids ih => exact (ih _).trans (readImage_reads id s)

/-! ### The evaluation (R80) -/

/-- What the posting for frame N says of the lists (R101). -/
def PostsEnvelope (t : State) : Prop :=
  t.epu.posting = ⟨buildEnvelope t, t.epu.haul, t.epu.cls, t.epu.trips.any (·.cause == .inverterFaultL),
    t.epu.trips.any (·.cause == .inverterFaultR), t.epu.trips.any (·.cause == .gridOvertempA),
    t.epu.trips.any (·.cause == .gridOvertempB)⟩

theorem postEpu_posts (s : State) : PostsEnvelope (postEpu s) := rfl

/-- The envelope is built from the lists, VSPD and the settings. -/
theorem buildEnvelope_congr {t s : State} (epu : t.epu = s.epu) (vspd : t.sgs.vspd = s.sgs.vspd)
    (force : t.hli.force = s.hli.force) : buildEnvelope t = buildEnvelope s := by
  simp only [buildEnvelope, speedLimitOf, steerRateOf, hasTrip, epu, vspd, force]
  rfl

/-- What an evaluation leaves: all but the image and the guards, the EPU, its outputs, and what its raises change. -/
structure Evaluates (t s : State) : Prop where
  stands : FrameStands t s
  queue : OnlyQueue t s
  sgs : t.sgs = { s.sgs with image := t.sgs.image }
  posting : t.imn.posting = s.imn.posting
  tal : t.tal = s.tal
  rgv : t.rgv = s.rgv
  out : t.out = { s.out with
    speedLimit := ⟨(buildEnvelope t).speedLimit, some s.slc.frameNo⟩, haul := ⟨t.epu.haul, some s.slc.frameNo⟩ }
  posts : PostsEnvelope t
  reports : t.epu.stopReport = false ∧ t.epu.demandReport = false

/-- Of the EPU only the trip list and the pending set may differ. -/
def OnlyTripList (t s : State) : Prop := t.epu = { s.epu with trips := t.epu.trips, pendingSet := t.epu.pendingSet }

theorem OnlyTripList.trans {u t s : State} (h : OnlyTripList u t) (h' : OnlyTripList t s) : OnlyTripList u s := by
  rw [OnlyTripList, h, h']

theorem OnlyTripList.of_epu {t s : State} (h : t.epu = s.epu) : OnlyTripList t s := by
  rw [OnlyTripList, h]

theorem raise_tripList (c : TripCause) (s : State) : OnlyTripList (raise c s) s := .of_epu (raise_dsc c s).2.1

theorem createTrip_tripList (x : Trip) (s : State) : OnlyTripList (createTrip x s) s :=
  (raise_tripList ..).trans rfl

theorem joinPending_tripList (c : TripCause) (detail : Int) (s : State) : OnlyTripList (joinPending c detail s) s := by
  unfold joinPending
  dsimp only
  split
  · rfl
  · exact (createTrip_tripList ..).trans rfl

theorem updateTrip_tripList (v : TripView) (s : State) : OnlyTripList (updateTrip v s) s := by
  unfold updateTrip
  dsimp only
  split
  case h_1 =>
    split
    · split
      · exact createTrip_tripList ..
      · exact joinPending_tripList ..
    · rfl
  case h_2 =>
    split
    · split
      · exact (raise_tripList ..).trans rfl
      · rfl
    · rfl

theorem placePending_tripList (views : List TripView) (n : Nat) (s : State) : OnlyTripList (placePending views n s) s := by
  induction n generalizing s with
  | zero => rfl
  | succ n ih =>
    unfold placePending
    split
    · rfl
    · split
      · exact (ih _).trans ((createTrip_tripList ..).trans rfl)
      · rfl

theorem takePending_tripList (views : List TripView) (s : State) : OnlyTripList (takePending views s) s := by
  unfold takePending
  dsimp only
  split
  · exact (createTrip_tripList ..).trans (placePending_tripList ..)
  · exact placePending_tripList ..

theorem updateTrips_tripList (views : List TripView) (s : State) : OnlyTripList (updateTrips views s) s := by
  have each : ∀ (vs : List TripView) (t : State), OnlyTripList (vs.foldl (fun u v => updateTrip v u) t) t := by
    intro vs
    induction vs with
    | nil => exact fun t => rfl
    | cons v vs ih => exact fun t => (ih _).trans (updateTrip_tripList v t)
  exact (each _ _).trans (takePending_tripList views s)

/-- The posting of an evaluated state. -/
theorem postEpu_evaluates {t s : State} (trips : TripsOnly t s)
    (reports : t.epu.stopReport = false ∧ t.epu.demandReport = false) : Evaluates (postEpu t) s := by
  obtain ⟨-, out, sgs, tal, rgv, imn, -, queue, -⟩ := trips.only
  have posted : FrameStands (postEpu t) t := .of_eq rfl rfl rfl rfl rfl ⟨rfl, rfl⟩ (keepsFlags_of_flags rfl)
  refine ⟨posted.trans trips.stands, queue, ?_, ?_, tal, rgv, ?_, postEpu_posts t, reports⟩
  · show t.sgs = { s.sgs with image := t.sgs.image }
    rw [sgs]
  · exact congrArg Imn.posting imn
  · have now : t.slc.frameNo = s.slc.frameNo := trips.stands.frameNo
    show ({ t.out with speedLimit := ⟨(buildEnvelope t).speedLimit, some t.slc.frameNo⟩
                       haul := ⟨t.epu.haul, some t.slc.frameNo⟩ } : Outputs) = _
    rw [out, now]
    rfl

/-- An evaluation after reads of the image. -/
theorem Evaluates.after_reads {u t s : State} (h : Evaluates u t) (reads : ImageReads t s) : Evaluates u s := by
  obtain ⟨-, -, slc, out, -, tal, rgv, -, -, -⟩ := reads.frame
  refine ⟨h.stands.trans reads.stands, ?_, ?_, h.posting.trans reads.posting, h.tal.trans tal, h.rgv.trans rgv, ?_, h.posts,
    h.reports⟩
  · have queue := h.queue
    rwa [OnlyQueue, slc] at queue
  · rw [h.sgs, reads.sgs]
  · rw [h.out, out, slc]

theorem evaluateEpu_evaluates (old : List ImageEntry) (oldVspd : Quality) (imn : Option (Option Nat × Option Nat)) (s : State) :
    Evaluates (evaluateEpu old oldVspd imn s) s := by
  have reads := readImages_reads [9, 10, 11, 12, 13, 14, 15, 18, 19] s
  unfold evaluateEpu evalInputs
  generalize readImages [9, 10, 11, 12, 13, 14, 15, 18, 19] s = read at reads ⊢
  obtain ⟨es, u⟩ := read
  refine Evaluates.after_reads ?_ reads
  refine postEpu_evaluates ((updateTrips_trips ..).trans (.trans (.of_epu _ _) (weighPayload_trips _))) ?_
  rw [updateTrips_tripList]
  exact ⟨rfl, rfl⟩

/-! ### The computations of the blocks (R104, R120, R148) -/

/-- What the computation of a block leaves: all but its own state, the image, the guards, and the procedures. -/
structure Computes (t s : State) : Prop where
  stands : FrameStands t s
  dsc : t.dsc = s.dsc
  out : t.out = s.out
  epu : t.epu = s.epu
  sgs : t.sgs = { s.sgs with image := t.sgs.image }
  posting : t.imn.posting = s.imn.posting
  phase : t.slc.phase = s.slc.phase ∨ s.slc.phase = .service

theorem Computes.refl (s : State) : Computes s s := ⟨.refl s, rfl, rfl, rfl, rfl, rfl, .inl rfl⟩

theorem Computes.trans {u t s : State} (h : Computes u t) (h' : Computes t s) : Computes u s := by
  refine ⟨h.stands.trans h'.stands, h.dsc.trans h'.dsc, h.out.trans h'.out, h.epu.trans h'.epu, ?_,
    h.posting.trans h'.posting, ?_⟩
  · rw [h.sgs, h'.sgs]
  · obtain same | service := h'.phase
    · rw [← same]
      exact h.phase
    · exact .inr service

theorem ImageReads.computes {t s : State} (h : ImageReads t s) : Computes t s := by
  obtain ⟨dsc, -, slc, out, epu, -⟩ := h.frame
  exact ⟨h.stands, dsc, out, epu, h.sgs, h.posting, .inl (by rw [slc])⟩

theorem computes_tal (x : Tal) (s : State) : Computes { s with tal := x } s :=
  ⟨.of_eq rfl rfl rfl rfl rfl ⟨rfl, rfl⟩ (keepsFlags_of_flags rfl), rfl, rfl, rfl, rfl, rfl, .inl rfl⟩

theorem computes_rgv (x : Rgv) (s : State) : Computes { s with rgv := x } s :=
  ⟨.of_eq rfl rfl rfl rfl rfl ⟨rfl, rfl⟩ (keepsFlags_of_flags rfl), rfl, rfl, rfl, rfl, rfl, .inl rfl⟩

theorem computes_sgv (x : Sgv) (s : State) : Computes { s with sgv := x } s :=
  ⟨.of_eq rfl rfl rfl rfl rfl ⟨rfl, rfl⟩ (keepsFlags_of_flags rfl), rfl, rfl, rfl, rfl, rfl, .inl rfl⟩

theorem latchIf_computes (b : Bool) (f : Flag) (s : State) : Computes (latchIf b f s) s := (latchIf_reads b f s).computes

theorem gridAbort_computes (c : ProcCause) (s : State) : Computes (gridAbort c s) s := by
  obtain ⟨⟨dsc, pins, out, sgs, epu, -, -, -, imn, -⟩, -, -, dir, -, -, frameNo, -, mark, -⟩ := gridAbort_frame c s
  have settings : (gridAbort c s).hli.force = s.hli.force ∧ (gridAbort c s).hli.stored = s.hli.stored := by
    cases run : s.rgv.check.run with
    | none => simp [gridAbort_of_idle run]
    | some r => simp [gridAbort_of_run run]
  refine ⟨.of_eq pins dsc dir frameNo mark settings (gridAbort_keepsFlags c s), dsc, out, epu, by rw [sgs], by rw [imn], ?_⟩
  exact (gridAbort_phase c s).imp_right And.left

theorem steerAbort_computes (c : ProcCause) (s : State) : Computes (steerAbort c s) s := by
  obtain ⟨⟨dsc, pins, out, sgs, epu, -, -, -, imn, -⟩, -, -, dir, -, -, frameNo, -, phase, mark, -⟩ := steerAbort_frame c s
  exact ⟨.of_eq pins dsc dir frameNo mark (by simp [steerAbort_hli]) (steerAbort_keepsFlags c s), dsc, out, epu, by rw [sgs],
    by rw [imn], .inl phase⟩

theorem toRelease_computes (r : SteerRun) (p : Option (SteerOutcome × ProcCause)) (s : State) :
    Computes (toRelease r p s) s := by
  obtain ⟨⟨dsc, pins, out, sgs, epu, -, -, -, imn, -⟩, -, -, dir, -, -, frameNo, -, phase, mark, -⟩ := toRelease_frame r p s
  exact ⟨.of_eq pins dsc dir frameNo mark (by simp [toRelease_hli]) (keepsFlags_of_flags (by rw [toRelease_hli])), dsc, out, epu,
    by rw [sgs], by rw [imn], .inl phase⟩

theorem steerWatch_computes (e : ImageEntry) (s : State) : Computes (steerWatch e s) s := by
  have still : Computes (if atRest s then s else steerAbort .moved s) s := by
    split
    · exact .refl s
    · exact steerAbort_computes ..
  unfold steerWatch
  generalize (if atRest s then s else steerAbort .moved s) = u at still ⊢
  dsimp only
  refine Computes.trans ?_ still
  split
  · exact .refl u
  · split
    · split
      · exact computes_sgv _ u
      · exact steerAbort_computes ..
    · split
      · split
        · exact (toRelease_computes ..)
        · exact computes_sgv _ u
      · exact steerAbort_computes ..
    · exact .refl u

/-- A read of the image, with what reads keep. -/
theorem exists_read_keeping {P : State → Prop} (keeps : ∀ id u, P u → P (readImage id u).2) (id : Nat) {t : State} (before : P t) :
    ∃ e u, readImage id t = (e, u) ∧ P u :=
  ⟨_, _, rfl, keeps id t before⟩

/-- A read of the image, with what it leaves. -/
theorem exists_read (id : Nat) {t s : State} (before : Computes t s) :
    ∃ e u, readImage id t = (e, u) ∧ Computes u s :=
  exists_read_keeping (fun id u h => (readImage_reads id u).computes.trans h) id before

theorem computeTal_computes (gov : Gov) (d : Demand) (p : EpuPosting) (s : State) : Computes (computeTal gov d p s) s := by
  obtain ⟨wsL, _, read1, h⟩ := exists_read 1 (.refl s)
  obtain ⟨wsR, _, read2, h⟩ := exists_read 2 h
  obtain ⟨fsL, _, read3, h⟩ := exists_read 3 h
  obtain ⟨fsR, u, read4, h⟩ := exists_read 4 h
  simp only [computeTal, read1, read2, read3, read4]
  exact (latchIf_computes ..).trans ((computes_tal _ u).trans h)

/-- What a computation of the RGV reads of the image. -/
structure RgvIn where
  vdc : ImageEntry
  giA : ImageEntry
  giB : ImageEntry
  bsA : ImageEntry
  bsB : ImageEntry
  inc : ImageEntry
  ap : ImageEntry
  at' : ImageEntry

section
variable (gov : Gov) (d : Demand) (p : EpuPosting) (i : RgvIn) (u : State)

/-- The cooling of a grid with the given blower speed. -/
def rgvCooling (bs : ImageEntry) : Int := coolingOf u.hli.force bs (densityRatio i.ap i.at')

/-- The power dissipated in a grid with the given current and posted duty. -/
def rgvPower (gi : ImageEntry) (cd : Posted) : Int :=
  dissipated u.hli.force u.sgs.vspd i.vdc gi u.out.rreq.read cd.read

def rgvUseA : Bool := !chopperPosted 44 u && decide (6 ≤ u.rgv.gridA.good) && !p.gridOvertempA

def rgvUseB : Bool := !chopperPosted 45 u && decide (6 ≤ u.rgv.gridB.good) && !p.gridOvertempB

def rgvEnergyA : Int := nextEnergy u.hli.force (rgvPower i u i.giA u.out.cdA) (rgvCooling i u i.bsA) u.rgv.gridA.energy
  (emaxOf u.hli.force u.rgv.gridA.good)

def rgvEnergyB : Int := nextEnergy u.hli.force (rgvPower i u i.giB u.out.cdB) (rgvCooling i u i.bsB) u.rgv.gridB.energy
  (emaxOf u.hli.force u.rgv.gridB.good)

/-- The retard capacity of a grid. -/
def rgvCapA : Int := rcapOf (rgvUseA p u) (rgvCooling i u i.bsA) (rgvEnergyA i u) (emaxOf u.hli.force u.rgv.gridA.good)

def rgvCapB : Int := rcapOf (rgvUseB p u) (rgvCooling i u i.bsB) (rgvEnergyB i u) (emaxOf u.hli.force u.rgv.gridB.good)

/-- The capacity torque. -/
def rgvTorque : Int := torqueFor u.hli.force u.sgs.vspd (rgvCapA p i u + rgvCapB p i u) 1

/-- The grade direction after the computation. -/
def rgvGrade : Grade := nextGrade (atRest u) d.dir u.rgv.grade

/-- The feed-forward term. -/
def rgvForward : Int := feedForward u.hli.force p u.sgs.vspd (downhill i.inc (rgvGrade d u))

/-- The hold and retard-to-rest after the computation. -/
def rgvHeld : Rgv :=
  nextRtr gov u.hli.force (rgvForward d p i u) (atRest u) u.sgs.vspd
    (nextHold gov u.hli.force (rgvForward d p i u) (rgvTorque p i u) d u.sgs.vspd { u.rgv with grade := rgvGrade d u })

/-- What the computation stages. -/
def rgvStages : RgvStaged where
  frame := u.slc.frameNo
  rreq := retardRequest gov d (rgvForward d p i u) p.env.speedLimit (rgvTorque p i u) u.sgs.vspd (rgvHeld gov d p i u)
  rcap := rgvCapA p i u + rgvCapB p i u
  cdA := ceilingDuty (rgvUseA p u) (rgvCapA p i u) (rgvCapA p i u + rgvCapB p i u)
  cdB := ceilingDuty (rgvUseB p u) (rgvCapB p i u) (rgvCapA p i u + rgvCapB p i u)
  bfA := blowerOf (rgvPower i u i.giA u.out.cdA) (rgvEnergyA i u) (emaxOf u.hli.force u.rgv.gridA.good)
  bfB := blowerOf (rgvPower i u i.giB u.out.cdB) (rgvEnergyB i u) (emaxOf u.hli.force u.rgv.gridB.good)
  geA := rgvEnergyA i u / 100
  geB := rgvEnergyB i u / 100
  cond := ⟨rgvEnergyA i u, rgvEnergyB i u, emaxOf u.hli.force u.rgv.gridA.good, emaxOf u.hli.force u.rgv.gridB.good,
    rgvUseA p u, rgvUseB p u⟩

/-- The state of the RGV after the computation. -/
def rgvNext : Rgv := { rgvHeld gov d p i u with
  gridA.energy := rgvEnergyA i u, gridB.energy := rgvEnergyB i u
  gridA.emax := emaxOf u.hli.force u.rgv.gridA.good, gridB.emax := emaxOf u.hli.force u.rgv.gridB.good
  staged := some (rgvStages gov d p i u) }

/-- The state after the reads, computed. -/
def rgvComputed : State :=
  latchIf ((rgvHeld gov d p i u).hold == .short && u.rgv.hold != .short) .retardShort { u with rgv := rgvNext gov d p i u }

end

/-- A computation of the RGV: a grid check not at rest is aborted, the image is read, and the state computed. -/
theorem computeRgv_form {P : State → Prop} (keeps : ∀ id u, P u → P (readImage id u).2) (gov : Gov) (d : Demand)
    (p : EpuPosting) {s : State} (still : P (if atRest s then s else gridAbort .moved s)) :
    ∃ i u, P u ∧ computeRgv gov d p s = rgvComputed gov d p i u := by
  obtain ⟨vdc, _, read15, h⟩ := exists_read_keeping keeps 15 still
  obtain ⟨giA, _, read16, h⟩ := exists_read_keeping keeps 16 h
  obtain ⟨giB, _, read17, h⟩ := exists_read_keeping keeps 17 h
  obtain ⟨bsA, _, read22, h⟩ := exists_read_keeping keeps 22 h
  obtain ⟨bsB, _, read23, h⟩ := exists_read_keeping keeps 23 h
  obtain ⟨inc, _, read32, h⟩ := exists_read_keeping keeps 32 h
  obtain ⟨ap, _, read33, h⟩ := exists_read_keeping keeps 33 h
  obtain ⟨at', u, read34, h⟩ := exists_read_keeping keeps 34 h
  refine ⟨⟨vdc, giA, giB, bsA, bsB, inc, ap, at'⟩, u, h, ?_⟩
  simp only [computeRgv, read15, read16, read17, read22, read23, read32, read33, read34]
  rfl

theorem rgvComputed_rgv (gov : Gov) (d : Demand) (p : EpuPosting) (i : RgvIn) (u : State) :
    (rgvComputed gov d p i u).rgv = rgvNext gov d p i u := by
  simp [rgvComputed]

theorem stillAtRest_computes (s : State) : Computes (if atRest s then s else gridAbort .moved s) s := by
  split
  · exact .refl s
  · exact gridAbort_computes ..

theorem computeRgv_computes (gov : Gov) (d : Demand) (p : EpuPosting) (s : State) : Computes (computeRgv gov d p s) s := by
  obtain ⟨i, u, h, value⟩ := computeRgv_form (P := (Computes · s))
    (fun id u h => (readImage_reads id u).computes.trans h) gov d p (stillAtRest_computes s)
  rw [value]
  exact (latchIf_computes ..).trans ((computes_rgv _ u).trans h)

theorem computeSgv_computes (gov : Gov) (target rate : Int) (s : State) : Computes (computeSgv gov target rate s) s := by
  obtain ⟨ang, _, read28, h⟩ := exists_read 28 (.refl s)
  obtain ⟨prs, _, read29, h⟩ := exists_read 29 h
  obtain ⟨acc, u, read30, h⟩ := exists_read 30 h
  simp only [computeSgv, read28, read29, read30]
  exact (steerWatch_computes ..).trans ((computes_sgv _ u).trans h)

end Sys2Proof.Machine
end

section
/-! SUPPORT. What the walk over the acquisition table leaves, and the dispatch pass as it begins (R48, R51). -/

namespace Sys2Proof.Machine

/-- What a pass changes as it moves on: the table, the guard of its memory, the delivery buffer, where it stands, flags and
counters. -/
structure PassMoves (t s : State) : Prop where
  stands : FrameStands t s
  frame : OnlySlcImnHli t s
  posting : t.imn.posting = s.imn.posting
  rejects : t.hli.counters.screenRejects = s.hli.counters.screenRejects
  failed : t.hli.counters.exchFailed = s.hli.counters.exchFailed
  link : t.hli.tx = s.hli.tx ∧ t.hli.deferred = s.hli.deferred
  slot : t.slc.slot = s.slc.slot
  queue : t.slc.queue = s.slc.queue ∧ t.slc.held = s.slc.held
  loop : t.slc.loopState = s.slc.loopState ∧ t.slc.loopLost = s.slc.loopLost ∧ t.slc.scan = s.slc.scan

namespace PassMoves

theorem refl (s : State) : PassMoves s s := ⟨.refl s, by simp, rfl, rfl, rfl, ⟨rfl, rfl⟩, rfl, ⟨rfl, rfl⟩, rfl, rfl, rfl⟩

theorem trans {u t s : State} (h : PassMoves u t) (h' : PassMoves t s) : PassMoves u s := by
  refine ⟨h.stands.trans h'.stands, ?_, h.posting.trans h'.posting, h.rejects.trans h'.rejects, h.failed.trans h'.failed, ?_, h.slot.trans h'.slot, ?_,
    ?_⟩
  · have first := h.frame
    have second := h'.frame
    simp only [OnlySlcImnHli] at first second ⊢
    simp only [first, second, and_self]
  · exact ⟨h.link.1.trans h'.link.1, h.link.2.trans h'.link.2⟩
  · exact ⟨h.queue.1.trans h'.queue.1, h.queue.2.trans h'.queue.2⟩
  · obtain ⟨state, lost, scan⟩ := h.loop
    obtain ⟨state', lost', scan'⟩ := h'.loop
    exact ⟨state.trans state', lost.trans lost', scan.trans scan'⟩

/-- Where a pass stands, its buffer and its phase. -/
theorem of_pass (s : State) (delivery : List Delivery) (run : Option Run) (idx slots : Nat) (phase : Phase) :
    PassMoves { s with slc.delivery := delivery, slc.run := run, slc.passIdx := idx, slc.slots := slots, slc.phase := phase } s :=
  ⟨.of_eq rfl rfl rfl rfl rfl ⟨rfl, rfl⟩ (keepsFlags_of_flags rfl), by simp, rfl, rfl, rfl, ⟨rfl, rfl⟩, rfl,
    ⟨rfl, rfl⟩, rfl, rfl, rfl⟩

end PassMoves

theorem readAcq_moves (i : Nat) (s : State) : PassMoves (readAcq i s).2 s := by
  have noted : ∀ (note : Nat → State → State) (acq : List (Prot AcqEntry)),
      note = noteCorrected .acq ∨ note = noteUncorrectable .acq → PassMoves (note i { s with slc.acq := acq }) s := by
    rintro note acq (rfl | rfl) <;>
      exact ⟨(latch_stands ..).trans (.of_eq rfl rfl rfl rfl rfl ⟨rfl, rfl⟩ (keepsFlags_of_flags rfl)), by simp, rfl, rfl,
        rfl, ⟨rfl, rfl⟩, rfl, ⟨rfl, rfl⟩, rfl, rfl, rfl⟩
  unfold readAcq
  split
  · exact .refl s
  · split
    · exact .refl s
    · exact noted _ _ (.inl rfl)
    · exact noted _ _ (.inr rfl)

theorem missed_moves (i : Nat) (e : AcqEntry) (c : MissCause) (s : State) : PassMoves (missed i e c s) s := by
  unfold missed
  split
  · exact .of_pass s _ s.slc.run s.slc.passIdx s.slc.slots s.slc.phase
  · exact .refl s

theorem skipEntry_moves (i : Nat) (e : AcqEntry) (c : MissCause) (s : State) : PassMoves (skipEntry i e c s) s :=
  .trans ⟨bump_stands .entriesSkipped _, by simp [skipEntry], rfl, rfl, rfl, ⟨rfl, rfl⟩, rfl, ⟨rfl, rfl⟩, rfl,
    rfl, rfl⟩ (missed_moves i e c s)

theorem readAcq_phase (i : Nat) (s : State) : (readAcq i s).2.slc.phase = s.slc.phase := by
  rw [readAcq_slc]

theorem skipEntry_phase (i : Nat) (e : AcqEntry) (c : MissCause) (s : State) : (skipEntry i e c s).slc.phase = s.slc.phase := by
  unfold skipEntry missed
  split <;> rfl

theorem walk_moves (f : Func) (is : List Nat) (s : State) :
    PassMoves (walk f is s) s ∧ (walk f is s).slc.phase = s.slc.phase := by
  induction is generalizing s with
  | nil => exact ⟨.of_pass s s.slc.delivery none 64 s.slc.slots s.slc.phase, rfl⟩
  | cons i is ih =>
    have read := readAcq_moves i s
    have read_phase := readAcq_phase i s
    unfold walk
    generalize readAcq i s = q at read read_phase ⊢
    obtain ⟨e, u⟩ := q
    dsimp only at read read_phase ⊢
    have skipped : ∀ c, PassMoves (walk f is (skipEntry i e c u)) s
        ∧ (walk f is (skipEntry i e c u)).slc.phase = s.slc.phase := fun c => by
      obtain ⟨moves, phase⟩ := ih (skipEntry i e c u)
      exact ⟨moves.trans ((skipEntry_moves ..).trans read), by rw [phase, skipEntry_phase, read_phase]⟩
    split_ifs
    · exact skipped _
    · exact skipped _
    · exact skipped _
    · exact ⟨.trans (.of_pass u u.slc.delivery _ _ u.slc.slots u.slc.phase) read, read_phase⟩
    · obtain ⟨moves, phase⟩ := ih u
      exact ⟨moves.trans read, by rw [phase, read_phase]⟩

theorem beginService_moves (s : State) :
    PassMoves (beginService s) s ∧ ((beginService s).slc.phase = .done ∨ (beginService s).slc.phase = .service) := by
  refine ⟨.of_pass s s.slc.delivery s.slc.run s.slc.passIdx 0 _, ?_⟩
  unfold beginService
  dsimp only
  split
  · exact .inl rfl
  · exact .inr rfl

theorem endIfOver_moves (s : State) : PassMoves (endIfOver s) s := by
  unfold endIfOver
  split
  · exact .refl s
  · split
    · exact .of_pass s s.slc.delivery s.slc.run s.slc.passIdx s.slc.slots _
    · exact (beginService_moves s).1
    · exact .refl s

theorem endIfOver_phase_of_dispatch {s : State} (dispatch : s.slc.phase = .dispatch) : (endIfOver s).slc.phase = .dispatch
    ∨ (endIfOver s).slc.phase = .done ∨ (endIfOver s).slc.phase = .service := by
  unfold endIfOver
  split
  · exact .inl dispatch
  · rw [dispatch]
    exact .inr (beginService_moves s).2

theorem beginDispatch_moves (s : State) : PassMoves (beginDispatch s) s :=
  (endIfOver_moves _).trans ((walk_moves ..).1.trans (.of_pass s s.slc.delivery none 0 0 .dispatch))

theorem beginDispatch_phase (s : State) : (beginDispatch s).slc.phase = .dispatch ∨ (beginDispatch s).slc.phase = .done
    ∨ (beginDispatch s).slc.phase = .service := by
  refine endIfOver_phase_of_dispatch ?_
  rw [(walk_moves ..).2]

end Sys2Proof.Machine
end

section
/-! SUPPORT. A publication: the stages it goes through, and the envelope it posts (R50, R80, R99 to R101). -/

namespace Sys2Proof.Machine

/-! ### The stages of a publication (R50) -/

/-- The reads of image N-1, under the settings that come into force. -/
def publishRead (s : State) : List ImageEntry × State := readImages inputIds { s with hli.force := s.hli.stored }

/-- Image N published, the integrity monitor posted. -/
def publishedImage (s : State) : State := postImn (publishImage (publishRead s).1 (publishRead s).2)

/-- The evaluation of a publication. -/
def publishedEpu (s : State) : State :=
  evaluateEpu (publishRead s).1 s.sgs.vspd.quality (publishImage (publishRead s).1 (publishRead s).2).imn.posting
    (publishedImage s)

/-- The computations of the blocks. -/
def publishedBlocks (s : State) : State :=
  let u := publishImage (publishRead s).1 (publishRead s).2
  computeSgv u.dsc.gov u.dsc.demand.steer u.epu.posting.env.steerRate
    (computeRgv u.dsc.gov u.dsc.demand u.epu.posting (computeTal u.dsc.gov u.dsc.demand u.epu.posting (publishedEpu s)))

theorem publish_eq (s : State) : publish s =
    if (publishedBlocks s).slc.markReached then beginDispatch (publishedBlocks s)
    else { publishedBlocks s with slc.phase := .published } := by
  obtain ⟨old, u, read⟩ : ∃ old u, publishRead s = (old, u) := ⟨_, _, rfl⟩
  have begun : readImages inputIds { s with hli.force := s.hli.stored } = (old, u) := read
  simp only [publish, begun, computeBlocks, publishedBlocks, publishedEpu, publishedImage, read]

theorem publication_eq {s : State} (ended : s.slc.phase = .acqEnded) : publication s = publish s := by
  simp [publication, ended]

theorem exec_publication {s : State} (live : Live s) : exec .publication s = .next (publication s) :=
  live_of_run publication live

theorem publishedBlocks_computes (s : State) : Computes (publishedBlocks s) (publishedEpu s) := by
  unfold publishedBlocks
  exact (computeSgv_computes ..).trans ((computeRgv_computes ..).trans (computeTal_computes ..))

/-- The dispatch pass begins, or waits for its mark: the blocks' state stands. -/
theorem publish_moves (s : State) : PassMoves (publish s) (publishedBlocks s) := by
  rw [publish_eq]
  split
  · exact beginDispatch_moves _
  · exact .of_pass _ _ _ _ _ _

/-! ### Image N (R50, R70) -/

/-- What the publication of the image leaves. -/
structure PublishesImage (t s : State) : Prop where
  frame : OnlySgsImnHli t s
  stands : FrameStands t s

theorem PublishesImage.trans {u t s : State} (h : PublishesImage u t) (h' : PublishesImage t s) : PublishesImage u s := by
  refine ⟨?_, h.stands.trans h'.stands⟩
  have first := h.frame
  have second := h'.frame
  simp only [OnlySgsImnHli] at first second ⊢
  simp only [first, second, and_self]

theorem PublishesImage.refl (s : State) : PublishesImage s s := ⟨by simp, .refl s⟩

theorem publishesImage_sgs (x : Sgs) (s : State) : PublishesImage { s with sgs := x } s :=
  ⟨by simp, .of_eq rfl rfl rfl rfl rfl ⟨rfl, rfl⟩ (keepsFlags_of_flags rfl)⟩

theorem publishesImage_imn (x : Imn) (s : State) : PublishesImage { s with imn := x } s :=
  ⟨by simp, .of_eq rfl rfl rfl rfl rfl ⟨rfl, rfl⟩ (keepsFlags_of_flags rfl)⟩

theorem latchIf_publishes (b : Bool) (f : Flag) (s : State) : PublishesImage (latchIf b f s) s :=
  ⟨by simp, latchIf_stands b f s⟩

theorem readScreen_publishes (i : Nat) (s : State) : PublishesImage (readScreen i s).2 s := by
  have noted : ∀ (note : Nat → State → State) (x : List (Prot ScreenEntry)),
      note = noteCorrected .screen ∨ note = noteUncorrectable .screen → PublishesImage (note i { s with sgs.screen := x }) s := by
    rintro note x (rfl | rfl) <;>
      exact ⟨by simp, (latch_stands ..).trans (.of_eq rfl rfl rfl rfl rfl ⟨rfl, rfl⟩ (keepsFlags_of_flags rfl))⟩
  unfold readScreen
  split
  · exact .refl s
  · split
    · exact .refl s
    · exact noted _ _ (.inl rfl)
    · exact noted _ _ (.inr rfl)

theorem takeInjection_publishes (m : Mem) (s : State) : PublishesImage (takeInjection m s).2 s := by
  obtain ⟨-, -, injected⟩ := takeInjection_spec m s
  rw [injected]
  exact publishesImage_imn _ s

theorem countFailure_publishes (i : Nat) (e : ScreenEntry) (s : State) : PublishesImage (countFailure i e s) s := by
  have taken := takeInjection_publishes .screen s
  unfold countFailure
  generalize takeInjection .screen s = q at taken ⊢
  obtain ⟨fs, u⟩ := q
  exact .trans ⟨by simp, bump_stands ..⟩ ((publishesImage_sgs _ u).trans taken)

/-- What holds of each step of the screening, and of steps one after the other. -/
structure ScreeningSteps (R : State → State → Prop) : Prop where
  refl : ∀ s, R s s
  trans : ∀ {u t s}, R u t → R t s → R u s
  read : ∀ i s, R (readScreen i s).2 s
  count : ∀ i e s, R (countFailure i e s) s
  latch : ∀ b s, R (latchIf b .signalBad s) s

section
variable {R : State → State → Prop} (steps : ScreeningSteps R) (old : List ImageEntry) (buf : List Delivery)
  (named : List ScreenEntry)
include steps

theorem ScreeningSteps.evaluate (id : Nat) (d : Int) (is : List Nat) (s : State) :
    R (evaluate old buf named id d is s).2 s := by
  induction is generalizing s with
  | nil => exact steps.refl s
  | cons i is ih =>
    have read := steps.read i s
    unfold Machine.evaluate
    generalize readScreen i s = q at read ⊢
    obtain ⟨e, u⟩ := q
    dsimp only at read ⊢
    split_ifs
    · exact steps.trans (steps.count ..) read
    · exact steps.trans (ih u) read
    · exact steps.trans (steps.count ..) read
    · exact ih s

theorem ScreeningSteps.screenSignal (id : Nat) (s : State) : R (screenSignal old buf named id s).2 s := by
  unfold Machine.screenSignal
  dsimp only
  cases deliveredFor buf id with
  | none => exact steps.refl s
  | some d =>
    have evaluated := steps.evaluate old buf named id d (List.range 96) s
    dsimp only
    generalize Machine.evaluate old buf named id d (List.range 96) s = q at evaluated ⊢
    obtain ⟨r, u⟩ := q
    dsimp only at evaluated ⊢
    (repeat' split) <;> exact evaluated

theorem ScreeningSteps.screenSignals (ids : List Nat) (s : State) : R (screenSignals old buf named ids s).2 s := by
  induction ids generalizing s with
  | nil => exact steps.refl s
  | cons id ids ih =>
    have screened := steps.screenSignal old buf named id s
    unfold Machine.screenSignals
    generalize Machine.screenSignal old buf named id s = q at screened ⊢
    obtain ⟨n, u⟩ := q
    exact steps.trans (ih _) (steps.trans (steps.latch ..) screened)

end

theorem publishesImage_steps : ScreeningSteps PublishesImage :=
  ⟨.refl, .trans, readScreen_publishes, countFailure_publishes, fun b => latchIf_publishes b _⟩

theorem writeImage_publishes (es : List ImageEntry) (s : State) : PublishesImage (writeImage es s) s := by
  have taken := takeInjection_publishes .image s
  unfold writeImage
  generalize takeInjection .image s = q at taken ⊢
  obtain ⟨fs, u⟩ := q
  exact (publishesImage_sgs _ u).trans taken

theorem publishImage_publishes (old : List ImageEntry) (s : State) : PublishesImage (publishImage old s) s := by
  have screened := publishesImage_steps.screenSignals old s.slc.delivery (screenContent s) inputIds s
  unfold publishImage
  generalize screenSignals old s.slc.delivery (screenContent s) inputIds s = q at screened ⊢
  obtain ⟨es, u⟩ := q
  exact (publishesImage_sgs _ _).trans ((writeImage_publishes ..).trans screened)

/-- Up to the evaluation a publication leaves the blocks, the outputs and the lists. -/
theorem publishedImage_publishes (s : State) : PublishesImage (publishedImage s) { s with hli.force := s.hli.stored } := by
  have reads := readImages_reads inputIds { s with hli.force := s.hli.stored }
  unfold publishedImage publishRead
  generalize readImages inputIds { s with hli.force := s.hli.stored } = read at reads ⊢
  exact (publishesImage_imn _ _).trans ((publishImage_publishes ..).trans ⟨reads.frame, reads.stands⟩)

/-! ### The envelope posted -/

theorem PostsEnvelope.of_eq {t s : State} (posts : PostsEnvelope s) (epu : t.epu = s.epu) (vspd : t.sgs.vspd = s.sgs.vspd)
    (force : t.hli.force = s.hli.force) : PostsEnvelope t := by
  rw [PostsEnvelope, epu, buildEnvelope_congr epu vspd force]
  exact posts

/-- A publication posts as its evaluation does. -/
theorem publish_posts (s : State) : PostsEnvelope (publish s) ∧ (publish s).out = { s.out with
    speedLimit := ⟨(buildEnvelope (publish s)).speedLimit, some s.slc.frameNo⟩
    haul := ⟨(publish s).epu.haul, some s.slc.frameNo⟩ } := by
  obtain ⟨-, -, slc, before_out, -⟩ := (publishedImage_publishes s).frame
  have evaluates : Evaluates (publishedEpu s) (publishedImage s) := evaluateEpu_evaluates ..
  have blocks := publishedBlocks_computes s
  have moves := publish_moves s
  obtain ⟨-, -, out, sgs, epu, -⟩ := moves.frame
  have epu_kept : (publish s).epu = (publishedEpu s).epu := epu.trans blocks.epu
  have vspd_kept : (publish s).sgs.vspd = (publishedEpu s).sgs.vspd := by rw [sgs, blocks.sgs]
  have force_kept : (publish s).hli.force = (publishedEpu s).hli.force := moves.stands.force.trans blocks.stands.force
  refine ⟨evaluates.posts.of_eq epu_kept vspd_kept force_kept, ?_⟩
  rw [out, blocks.out, evaluates.out, before_out, buildEnvelope_congr epu_kept vspd_kept force_kept, epu_kept, slc]

/-- Settles O42. -/
theorem envelopeAndHaulPayload : Obligations.EnvelopeAndHaulPayload := by
  refine ⟨fun s => ?envelope, fun s moving rested => ?haul,
    ⟨fun old oldVspd imn s => ?evaluation, fun s live ended => ?publication⟩, fun s => ?rest⟩
  case envelope =>
    exact ⟨wheelLimit_least .left .propel _, wheelLimit_least .left .retard _, wheelLimit_least .right .propel _,
      wheelLimit_least .right .retard _, speedLimitOf_least s, steerRateOf_eq s⟩
  case haul =>
    intro t g
    have leaves : t = { captureHaul s with epu.restCount := 0, epu.restWindow := [] } := weighPayload_of_leaving moving rested
    refine ⟨by rw [leaves], by rw [leaves], fun short => ?_, fun long gap => ?_, fun long whole => ?_⟩
    · rw [leaves, captureHaul_of_short short]
      exact ⟨rfl, rfl⟩
    · rw [leaves, captureHaul_of_unknown long gap]
      exact ⟨rfl, rfl⟩
    · have captured := captureHaul_of_window long whole
      have near := roundNearest_near .haulPayload ((s.epu.restWindow.map (·.1)).sum) (den := 50) (by decide)
      obtain ⟨empty, others⟩ := classOf_iff s.hli.force.ratedPayload
        (roundNearest .haulPayload ((s.epu.restWindow.map (·.1)).sum) 50)
      obtain ⟨loaded, above, gross⟩ := others (by omega)
      rw [leaves, captured]
      exact ⟨by dsimp only; omega, by dsimp only; omega, empty, loaded, above, gross⟩
  case evaluation =>
    have evaluates := evaluateEpu_evaluates old oldVspd imn s
    exact ⟨evaluates.posts, evaluates.out⟩
  case publication =>
    refine ⟨publish s, ?_, publish_posts s⟩
    rw [exec_publication live, publication_eq ended]
  case rest =>
    intro entry
    refine ⟨fun rest => weighPayload_of_rest rest, fun rest => ?_, fun moving none_rested => weighPayload_of_away moving none_rested⟩
    rw [weighPayload_of_rest rest]
    simp only [List.length_drop, List.length_append, List.length_singleton]
    omega

end Sys2Proof.Machine
end

section
/-! SUPPORT. A publication leaves the frame standing and stages the outputs of the blocks (R50, R51). -/

namespace Sys2Proof.Machine

/-! ### What each block stages (R104, R120, R148) -/

theorem computeTal_staged (gov : Gov) (d : Demand) (p : EpuPosting) (s : State) :
    (computeTal gov d p s).tal.staged.map (·.frame) = some s.slc.frameNo := by
  obtain ⟨wsL, _, read1, h⟩ := exists_read 1 (.refl s)
  obtain ⟨wsR, _, read2, h⟩ := exists_read 2 h
  obtain ⟨fsL, _, read3, h⟩ := exists_read 3 h
  obtain ⟨fsR, u, read4, h⟩ := exists_read 4 h
  simp only [computeTal, read1, read2, read3, read4]
  simp [h.stands.frameNo]

/-- The computations of the RGV and the SGV leave the state of the TAL. -/
theorem computeRgv_tal (gov : Gov) (d : Demand) (p : EpuPosting) (s : State) : (computeRgv gov d p s).tal = s.tal := by
  unfold computeRgv
  split <;> simp

theorem computeRgv_staged (gov : Gov) (d : Demand) (p : EpuPosting) (s : State) :
    (computeRgv gov d p s).rgv.staged.map (·.frame) = some s.slc.frameNo := by
  obtain ⟨i, u, h, value⟩ := computeRgv_form (P := (Computes · s))
    (fun id u h => (readImage_reads id u).computes.trans h) gov d p (stillAtRest_computes s)
  rw [value, rgvComputed_rgv]
  exact congrArg some h.stands.frameNo

theorem steerAbort_staged (c : ProcCause) (s : State) : (steerAbort c s).sgv.staged = s.sgv.staged := by
  cases run : s.sgv.run with
  | none => rw [steerAbort_of_idle run]
  | some r => rw [steerAbort_of_run run, toRelease_sgv]

theorem steerWatch_staged (e : ImageEntry) (s : State) : (steerWatch e s).sgv.staged = s.sgv.staged := by
  have still : (if atRest s then s else steerAbort .moved s).sgv.staged = s.sgv.staged := by
    split
    · rfl
    · exact steerAbort_staged ..
  unfold steerWatch
  generalize (if atRest s then s else steerAbort .moved s) = u at still ⊢
  dsimp only
  rw [← still]
  (repeat' split) <;> simp [watchEnd, toRelease_sgv, steerAbort_staged]

theorem computeSgv_staged (gov : Gov) (target rate : Int) (s : State) :
    (computeSgv gov target rate s).sgv.staged.map (·.frame) = some s.slc.frameNo := by
  obtain ⟨ang, _, read28, h⟩ := exists_read 28 (.refl s)
  obtain ⟨prs, _, read29, h⟩ := exists_read 29 h
  obtain ⟨acc, u, read30, h⟩ := exists_read 30 h
  simp only [computeSgv, read28, read29, read30, steerWatch_staged]
  simp [h.stands.frameNo]

theorem computeSgv_tal_rgv (gov : Gov) (target rate : Int) (s : State) :
    (computeSgv gov target rate s).tal = s.tal ∧ (computeSgv gov target rate s).rgv = s.rgv := by
  simp [computeSgv]

theorem publishedBlocks_staged (s : State) :
    (publishedBlocks s).tal.staged.map (·.frame) = some (publishedEpu s).slc.frameNo
      ∧ (publishedBlocks s).rgv.staged.map (·.frame) = some (publishedEpu s).slc.frameNo
      ∧ (publishedBlocks s).sgv.staged.map (·.frame) = some (publishedEpu s).slc.frameNo := by
  unfold publishedBlocks
  dsimp only
  refine ⟨?_, ?_, ?_⟩
  · rw [(computeSgv_tal_rgv ..).1, computeRgv_tal, computeTal_staged]
  · rw [(computeSgv_tal_rgv ..).2, computeRgv_staged, (computeTal_computes ..).stands.frameNo]
  · rw [computeSgv_staged, (computeRgv_computes ..).stands.frameNo, (computeTal_computes ..).stands.frameNo]

/-! ### The state after a publication -/

theorem publishedEpu_evaluates (s : State) : Evaluates (publishedEpu s) (publishedImage s) := by
  unfold publishedEpu
  exact evaluateEpu_evaluates ..

/-- With the settings stored in force, the frame stands through a publication. -/
theorem publish_stands (s : State) : FrameStands (publish s) { s with hli.force := s.hli.stored } :=
  (publish_moves s).stands.trans ((publishedBlocks_computes s).stands.trans
    ((publishedEpu_evaluates s).stands.trans (publishedImage_publishes s).stands))

theorem publishImage_imageFrame (old : List ImageEntry) (s : State) : (publishImage old s).sgs.imageFrame = s.slc.frameNo := by
  have screened := publishesImage_steps.screenSignals old s.slc.delivery (screenContent s) inputIds s
  unfold publishImage
  generalize screenSignals old s.slc.delivery (screenContent s) inputIds s = q at screened ⊢
  obtain ⟨es, u⟩ := q
  exact screened.stands.frameNo

theorem publish_sgs (s : State) :
    (publish s).sgs = { (publishedImage s).sgs with image := (publish s).sgs.image } := by
  obtain ⟨-, -, -, sgs, -⟩ := (publish_moves s).frame
  have evaluates := publishedEpu_evaluates s
  rw [sgs, (publishedBlocks_computes s).sgs, evaluates.sgs]

theorem publishRead_reads (s : State) : ImageReads (publishRead s).2 { s with hli.force := s.hli.stored } := by
  unfold publishRead
  exact readImages_reads ..

theorem postImn_sgs (s : State) : (postImn s).sgs = s.sgs := rfl

theorem postImn_posting (s : State) : (postImn s).imn.posting.isSome = true := rfl

theorem publishedImage_sgs (s : State) :
    (publishedImage s).sgs = (publishImage (publishRead s).1 (publishRead s).2).sgs := by
  rw [publishedImage, postImn_sgs]

/-- The image frame is not of the image. -/
theorem imageFrame_of_image_only {x y : Sgs} (h : x = { y with image := x.image }) : x.imageFrame = y.imageFrame := by
  rw [h]

theorem publish_imageFrame (s : State) : (publish s).sgs.imageFrame = s.slc.frameNo := by
  have read : (publishRead s).2.slc = s.slc := by
    obtain ⟨-, -, slc, -⟩ := (publishRead_reads s).frame
    exact slc
  have published : (publishedImage s).sgs.imageFrame = (publishRead s).2.slc.frameNo := by
    rw [publishedImage_sgs, publishImage_imageFrame]
  have kept : (publish s).sgs.imageFrame = (publishedImage s).sgs.imageFrame :=
    imageFrame_of_image_only (publish_sgs s)
  rw [kept, published, read]

theorem publish_staged (s : State) : (publish s).tal.staged.map (·.frame) = some s.slc.frameNo
    ∧ (publish s).rgv.staged.map (·.frame) = some s.slc.frameNo
    ∧ (publish s).sgv.staged.map (·.frame) = some s.slc.frameNo := by
  obtain ⟨-, -, -, -, -, tal, rgv, sgv, -⟩ := (publish_moves s).frame
  have evaluates := publishedEpu_evaluates s
  have frame : (publishedEpu s).slc.frameNo = s.slc.frameNo :=
    evaluates.stands.frameNo.trans (publishedImage_publishes s).stands.frameNo
  rw [tal, rgv, sgv, ← frame]
  exact publishedBlocks_staged s

theorem publish_imnPosting (s : State) : (publish s).imn.posting = (publishedImage s).imn.posting := by
  have evaluates := publishedEpu_evaluates s
  exact (publish_moves s).posting.trans ((publishedBlocks_computes s).posting.trans evaluates.posting)

theorem publish_reports (s : State) : (publish s).epu.stopReport = false ∧ (publish s).epu.demandReport = false := by
  obtain ⟨-, -, -, -, epu, -⟩ := (publish_moves s).frame
  have evaluates := publishedEpu_evaluates s
  rw [epu, (publishedBlocks_computes s).epu]
  exact evaluates.reports

theorem publish_phase (s : State) : (publish s).slc.phase ≠ .acqEnded
    ∧ (s.slc.markReached = false → (publish s).slc.phase = .published) := by
  have mark : (publishedBlocks s).slc.markReached = s.slc.markReached :=
    (publishedBlocks_computes s).stands.mark.trans ((publishedEpu_evaluates s).stands.mark.trans
      (publishedImage_publishes s).stands.mark)
  rw [publish_eq, mark]
  cases s.slc.markReached with
  | false => simp
  | true =>
    obtain dispatch | done | service := beginDispatch_phase (publishedBlocks s) <;> simp [*]

/-- Before the acquisition pass has ended, with no budget used up, nothing is published. -/
theorem publication_of_early {s : State} (early : s.slc.phase ≠ .acqEnded) (unused : budgetUsedUp s = false) :
    publication s = s := by
  simp [publication, budgetExhaustion, unused, early]

theorem publishedImage_posting (s : State) : (publishedImage s).imn.posting.isSome = true := by
  rw [publishedImage, postImn_posting]

/-- The frame after a publication. -/
theorem publish_frame (s : State) :
    (publish s).hli.force = s.hli.stored ∧ (publish s).sgs.imageFrame = s.slc.frameNo
      ∧ (publish s).slc.frameNo = s.slc.frameNo ∧ (publish s).imn.posting.isSome
      ∧ (publish s).tal.staged.map (·.frame) = some s.slc.frameNo
      ∧ (publish s).rgv.staged.map (·.frame) = some s.slc.frameNo ∧ (publish s).sgv.staged.map (·.frame) = some s.slc.frameNo
      ∧ (publish s).slc.phase ≠ .acqEnded ∧ (s.slc.markReached = false → (publish s).slc.phase = .published)
      ∧ (publish s).epu.stopReport = false ∧ (publish s).epu.demandReport = false
      ∧ (publish s).dsc.demand = s.dsc.demand ∧ (publish s).slc.dir = s.slc.dir
      ∧ (s.dsc.gov ≠ .drive → (publish s).dsc.gov = s.dsc.gov)
      ∧ (s.dsc.gov = .drive → (publish s).dsc.gov = .drive ∨ (publish s).dsc.gov = .safeHold) := by
  have stands := publish_stands s
  obtain ⟨tal, rgv, sgv⟩ := publish_staged s
  obtain ⟨moved_on, waits⟩ := publish_phase s
  obtain ⟨stop, demand⟩ := publish_reports s
  refine ⟨stands.force, publish_imageFrame s, stands.frameNo, ?_, tal, rgv, sgv, moved_on, waits, stop, demand, stands.demand,
    stands.dir, stands.governing_not_drive, stands.governing_drive⟩
  rw [publish_imnPosting]
  exact publishedImage_posting s

theorem steerWatch_hli (e : ImageEntry) (s : State) : (steerWatch e s).hli = s.hli := by
  have still : (if atRest s then s else steerAbort .moved s).hli = s.hli := by
    split
    · rfl
    · exact steerAbort_hli ..
  unfold steerWatch
  generalize (if atRest s then s else steerAbort .moved s) = u at still ⊢
  dsimp only
  rw [← still]
  (repeat' split) <;> simp [watchEnd, toRelease_hli, steerAbort_hli]

end Sys2Proof.Machine
end

section
/-! SUPPORT. Screening with sound memories and no injection pending: the rejecting entry of each signal, the entry decided,
and the state after the screening of several signals (R69, R70). -/

namespace Sys2Proof.Machine

/-! ### The entry that rejects a delivery -/

section
variable (old : List ImageEntry) (buf : List Delivery) (named : List ScreenEntry) (id : Nat)

/-- The entry at place `j` is valid, names the signal, and is CORRUPT or fails the delivered value. -/
def rejectsAt (d : Int) (j : Nat) : Bool :=
  (named.getD j .empty).valid && (named.getD j .empty).signal == id
    && ((named.getD j .empty).corrupt || !testPasses old buf (named.getD j .empty) id d)

/-- The first entry, in table order, that rejects the signal's delivery. -/
def rejecterOf : Option Nat := (deliveredFor buf id).bind fun d => (List.range 96).find? (rejectsAt old buf named id d)

/-- What a rejecting entry makes of the signal. -/
def rejectedEntry (c : ScreenEntry) : ImageEntry :=
  if c.corrupt then { entryOf old id with quality := .bad }
  else if c.action = .hold then holdPath id (entryOf old id)
  else if c.action = .subst then substPath id c.partner (entryOf old c.partner) (entryOf old id)
  else { entryOf old id with quality := .bad }

/-- The entry decided for a signal. -/
def decidedEntry : ImageEntry :=
  (deliveredFor buf id).elim (if hasItem buf id then holdPath id (entryOf old id) else notDue old id (entryOf old id)) fun d =>
    (rejecterOf old buf named id).elim { entryOf old id with value := d, quality := .fresh, heldCount := 0 } fun j =>
      rejectedEntry old id (named.getD j .empty)

/-- The rejection counted, at the entry and in SCREEN_REJECTS. -/
def countedAt (j : Nat) (s : State) : State := { s with
  sgs.screen := s.sgs.screen.set j
    ⟨{ named.getD j .empty with failCount := satSucc 65535 (named.getD j .empty).failCount }, []⟩
  hli.counters.screenRejects := s.hli.counters.screenRejects.rise }

end

theorem takeInjection_of_none {m : Mem} {s : State} (none_pending : (s.imn.guard m).inject = .none) :
    takeInjection m s = ([], s) := by
  simp [takeInjection, none_pending]

theorem countFailure_of_no_injection {named : List ScreenEntry} {s : State} (none_pending : s.imn.screen.inject = .none)
    (j : Nat) : countFailure j (named.getD j .empty) s = countedAt named j s := by
  rw [countFailure, takeInjection_of_none (m := .screen) none_pending]
  rfl

theorem rejecterOf_names {old : List ImageEntry} {buf : List Delivery} {named : List ScreenEntry} {id j : Nat}
    (rejects : rejecterOf old buf named id = some j) : Names named id j := by
  obtain ⟨d, -, found⟩ := Option.bind_eq_some_iff.1 rejects
  have fails := List.find?_some found
  simp only [rejectsAt, Bool.and_eq_true, beq_iff_eq] at fails
  exact fails.1

/-! ### One signal -/

/-- The entries that name the signal stand in the table as the publication found it. -/
def StandsFor (named : List ScreenEntry) (id : Nat) (s : State) : Prop :=
  ∀ j, Names named id j → s.sgs.screen[j]? = some ⟨named.getD j .empty, []⟩

section
variable {old : List ImageEntry} {buf : List Delivery} {named : List ScreenEntry} {id : Nat} {s : State}
  (stand : StandsFor named id s) (none_pending : s.imn.screen.inject = .none)
include stand none_pending

/-- The action and partner that an entry's rejection hands on. -/
def rejection (c : ScreenEntry) : FailAction × Nat := if c.corrupt then (.bad, 0) else (c.action, c.partner)

omit stand none_pending in
theorem rejectedEntry_eq (old : List ImageEntry) (id : Nat) (c : ScreenEntry) : rejectedEntry old id c =
    if (rejection c).1 = .hold then holdPath id (entryOf old id)
    else if (rejection c).1 = .subst then
      substPath id (rejection c).2 (entryOf old (rejection c).2) (entryOf old id)
    else { entryOf old id with quality := .bad } := by
  unfold rejectedEntry rejection
  split <;> simp

theorem evaluate_of_stands (d : Int) (is : List Nat) : evaluate old buf named id d is s =
    (is.find? (rejectsAt old buf named id d)).elim (none, s) fun j =>
      (some (rejection (named.getD j .empty)), countedAt named j s) := by
  induction is with
  | nil => rfl
  | cons i is ih =>
    unfold evaluate
    dsimp only
    by_cases names : ((named.getD i .empty).valid && (named.getD i .empty).signal == id) = true
    · have at_i := stand i (by simpa [Names] using names)
      have read : readScreen i s = (named.getD i .empty, s) := by simp [readScreen, at_i]
      rw [if_pos names, read, List.find?_cons]
      dsimp only
      cases corrupt : (named.getD i .empty).corrupt with
      | true =>
        have rejects : rejectsAt old buf named id d i = true := by rw [rejectsAt, names, corrupt]; rfl
        simp only [rejects, if_true, Option.elim, rejection, corrupt, countFailure_of_no_injection none_pending]
      | false =>
        cases passes : testPasses old buf (named.getD i .empty) id d with
        | true =>
          have accepts : rejectsAt old buf named id d i = false := by rw [rejectsAt, corrupt, passes]; simp
          simp only [accepts, Bool.false_eq_true, if_false, if_true]
          exact ih
        | false =>
          have rejects : rejectsAt old buf named id d i = true := by rw [rejectsAt, names, corrupt, passes]; rfl
          simp only [rejects, Bool.false_eq_true, if_false, Option.elim, rejection, corrupt,
            countFailure_of_no_injection none_pending]
    · have accepts : rejectsAt old buf named id d i = false := by
        rw [rejectsAt, Bool.eq_false_iff.2 names]
        rfl
      rw [if_neg names, List.find?_cons, accepts]
      exact ih

theorem screenSignal_of_stands : screenSignal old buf named id s =
    (decidedEntry old buf named id, (rejecterOf old buf named id).elim s fun j => countedAt named j s) := by
  cases delivered : deliveredFor buf id with
  | none => simp [screenSignal, decidedEntry, rejecterOf, delivered]
  | some d =>
    have evaluated := evaluate_of_stands (old := old) (buf := buf) stand none_pending d (List.range 96)
    have rejecter : rejecterOf old buf named id = (List.range 96).find? (rejectsAt old buf named id d) := by
      simp [rejecterOf, delivered]
    rw [← rejecter] at evaluated
    cases rejects : rejecterOf old buf named id with
    | none =>
      rw [rejects] at evaluated
      rw [screenSignal_of_passes delivered evaluated]
      simp [decidedEntry, delivered, rejects]
    | some j =>
      rw [rejects] at evaluated
      rw [screenSignal_of_fails (a := (rejection (named.getD j .empty)).1) (p := (rejection (named.getD j .empty)).2) delivered
        evaluated, ← rejectedEntry_eq]
      simp [decidedEntry, delivered, rejects]

end

/-! ### Several signals -/

section
variable (old : List ImageEntry) (buf : List Delivery) (named : List ScreenEntry)

/-- The signal turns BAD. -/
def turnsBad (id : Nat) : Bool := (decidedEntry old buf named id).quality == .bad && (entryOf old id).quality != .bad

/-- The screening table with the rejections of several signals counted. -/
def countedScreen (ids : List Nat) (screen : List (Prot ScreenEntry)) : List (Prot ScreenEntry) :=
  screen.mapIdx fun j q => if ids.any (fun id => rejecterOf old buf named id == some j) then
    ⟨{ q.val with failCount := satSucc 65535 q.val.failCount }, []⟩ else q

/-- The state after the screening of several signals. -/
def screenedState (ids : List Nat) (s : State) : State := { s with
  hli.flags := if ids.any (turnsBad old buf named) then s.hli.flags ||| Flag.signalBad.mask else s.hli.flags
  hli.counters.screenRejects :=
    Nat.repeat Counter.rise (ids.countP fun id => (rejecterOf old buf named id).isSome) s.hli.counters.screenRejects
  sgs.screen := countedScreen old buf named ids s.sgs.screen }

end

theorem repeat_apply {α : Type} (f : α → α) (n : Nat) (a : α) : Nat.repeat f n (f a) = f (Nat.repeat f n a) := by
  induction n with
  | zero => rfl
  | succ n ih => simp only [Nat.repeat, ih]

section
variable {old : List ImageEntry} {buf : List Delivery} {named : List ScreenEntry}

theorem countedScreen_of_no_reject {id : Nat} (accepts : rejecterOf old buf named id = none) (ids : List Nat)
    (screen : List (Prot ScreenEntry)) :
    countedScreen old buf named (id :: ids) screen = countedScreen old buf named ids screen := by
  simp [countedScreen, accepts]

/-- No other signal counts a rejection at an entry that names this one. -/
theorem rejecterOf_ne {id j : Nat} (names : Names named id j) {k : Nat} (ne : k ≠ id) : rejecterOf old buf named k ≠ some j :=
  fun rejects => ne ((rejecterOf_names rejects).2.symm.trans names.2)

theorem countedScreen_of_reject {id j : Nat} (rejects : rejecterOf old buf named id = some j) {ids : List Nat}
    (other : id ∉ ids) {screen : List (Prot ScreenEntry)} (at_j : screen[j]? = some ⟨named.getD j .empty, []⟩) :
    countedScreen old buf named (id :: ids) screen = countedScreen old buf named ids (screen.set j
      ⟨{ named.getD j .empty with failCount := satSucc 65535 (named.getD j .empty).failCount }, []⟩) := by
  have lt : j < screen.length := (List.getElem?_eq_some_iff.1 at_j).1
  have nobody_else : ids.any (fun k => rejecterOf old buf named k == some j) = false := by
    rw [List.any_eq_false]
    intro k mem
    simpa using rejecterOf_ne (rejecterOf_names rejects) fun same => other (same ▸ mem)
  refine List.ext_getElem? fun i => ?_
  simp only [countedScreen, List.getElem?_mapIdx]
  by_cases here : i = j
  · subst here
    simp [List.getElem?_set_self lt, at_j, rejects, nobody_else]
  · have not_here : (some j == some i) = false := by simpa using Ne.symm here
    simp [List.getElem?_set_ne (Ne.symm here), rejects, not_here]

theorem screenedState_cons {id : Nat} {ids : List Nat} (other : id ∉ ids) {s : State} (stand : StandsFor named id s) :
    screenedState old buf named ids (latchIf (turnsBad old buf named id) .signalBad
      ((rejecterOf old buf named id).elim s fun j => countedAt named j s)) = screenedState old buf named (id :: ids) s := by
  have flags : ∀ f : BitVec 16, (if ids.any (turnsBad old buf named) = true then
      (if turnsBad old buf named id = true then f ||| Flag.signalBad.mask else f) ||| Flag.signalBad.mask
      else (if turnsBad old buf named id = true then f ||| Flag.signalBad.mask else f)) =
      if (turnsBad old buf named id || ids.any (turnsBad old buf named)) = true then f ||| Flag.signalBad.mask else f := by
    intro f
    cases turnsBad old buf named id <;> cases ids.any (turnsBad old buf named) <;> simp [BitVec.or_assoc]
  have latched : ∀ u : State, latchIf (turnsBad old buf named id) .signalBad u = { u with
      hli.flags := if turnsBad old buf named id = true then u.hli.flags ||| Flag.signalBad.mask else u.hli.flags } := by
    intro u
    cases turnsBad old buf named id <;> rfl
  rw [latched]
  cases rejects : rejecterOf old buf named id with
  | none =>
    simp only [Option.elim, screenedState, flags, countedScreen_of_no_reject rejects, List.any_cons,
      List.countP_cons, rejects, Option.isSome, Bool.false_eq_true, if_false, Nat.add_zero]
    rfl
  | some j =>
    have at_j := stand j (rejecterOf_names rejects)
    simp only [Option.elim, countedAt, screenedState, flags, countedScreen_of_reject rejects other at_j, List.any_cons,
      List.countP_cons, rejects, Option.isSome, if_true, repeat_apply]
    rfl

/-- Each signal is decided by the table as the publication found it, and every rejection is counted. -/
theorem screenSignals_of_stands {ids : List Nat} (distinct : ids.Nodup) {s : State}
    (stand : ∀ id ∈ ids, StandsFor named id s) (none_pending : s.imn.screen.inject = .none) :
    screenSignals old buf named ids s =
      (ids.map fun id => finishEntry (entryOf old id) (decidedEntry old buf named id), screenedState old buf named ids s) := by
  induction ids generalizing s with
  | nil =>
    have screen : countedScreen old buf named [] s.sgs.screen = s.sgs.screen := by
      simp [countedScreen, List.mapIdx_eq_zipIdx_map]
    simp only [screenSignals, screenedState, screen]
    rfl
  | cons id ids ih =>
    obtain ⟨other, distinct⟩ := List.nodup_cons.1 distinct
    have stand_id := stand id (List.mem_cons_self ..)
    unfold screenSignals
    rw [screenSignal_of_stands stand_id none_pending]
    dsimp only
    rw [← turnsBad]
    have rest := ih distinct (s := latchIf (turnsBad old buf named id) .signalBad
      ((rejecterOf old buf named id).elim s fun j => countedAt named j s)) ?_ ?_
    · rw [rest, screenedState_cons other stand_id]
      rfl
    · intro k mem j names
      have ne : k ≠ id := fun same => other (same ▸ mem)
      have kept := stand k (List.mem_cons_of_mem _ mem) j names
      cases rejects : rejecterOf old buf named id with
      | none => simpa [rejects] using kept
      | some i =>
        have apart : i ≠ j := fun same => rejecterOf_ne names (Ne.symm ne) (same ▸ rejects)
        simpa [countedAt, List.getElem?_set_ne apart] using kept
    · cases rejecterOf old buf named id <;> simpa [countedAt] using none_pending

end

end Sys2Proof.Machine
end

section
/-! SUPPORT. A publication with sound memories, given whole (R50, R70, R76, R77, R177). -/

namespace Sys2Proof.Machine

/-! ### Reads of a sound image leave the state -/

/-- No bit of the image is flipped. -/
abbrev SoundImage (s : State) : Prop := ∀ p ∈ s.sgs.image, p.flips = []

theorem readImages_sound {s : State} (sound : SoundImage s) (ids : List Nat) :
    readImages ids s = (ids.map fun id => ((s.sgs.image[id - 1]?).map (·.val)).getD .initial, s) := by
  induction ids with
  | nil => rfl
  | cons id ids ih =>
    rw [readImages, readImage_sound sound]
    dsimp only
    rw [ih]
    rfl

/-- The image and SCREEN_REJECTS stand. -/
structure ImageStands (t s : State) : Prop where
  sgs : t.sgs = s.sgs
  rejects : t.hli.counters.screenRejects = s.hli.counters.screenRejects

namespace ImageStands

theorem trans {u t s : State} (h : ImageStands u t) (h' : ImageStands t s) : ImageStands u s :=
  ⟨h.sgs.trans h'.sgs, h.rejects.trans h'.rejects⟩

theorem sound {t s : State} (h : ImageStands t s) (sound : SoundImage s) : SoundImage t := by
  rw [SoundImage, h.sgs]
  exact sound

end ImageStands

theorem latchIf_imageStands (b : Bool) (f : Flag) (s : State) : ImageStands (latchIf b f s) s := by
  cases b <;> exact ⟨rfl, rfl⟩

/-- What an evaluation reads of a sound image. -/
def evalInOf (old : List ImageEntry) (oldVspd : Quality) (imn : Option (Option Nat × Option Nat)) (s : State) : EvalIn :=
  ⟨s.entry 9, s.entry 10, s.entry 11, s.entry 12, s.entry 13, s.entry 14, s.entry 15, s.entry 18, s.entry 19, old, oldVspd, imn⟩

/-- The presences and the derate list of an evaluation, with the payload weighed. -/
def presencesMet (i : EvalIn) (w : State) : State := { w with
  epu.pres := nextPresences i w, epu.stopReport := false, epu.demandReport := false
  epu.derates := updateDerates w.slc.frameNo w.hli.force.derateHold (keyViews i (nextPresences i w) w) w.epu.derates }

theorem presencesMet_trips (i : EvalIn) (w : State) : TripsOnly (presencesMet i w) w := .of_epu _ w

theorem postEpu_imageStands (s : State) : ImageStands (postEpu s) s := ⟨rfl, rfl⟩

section
variable {s : State} (sound : SoundImage s)
include sound

/-- With a sound image the evaluation meets both lists with the presences drawn from it. -/
theorem evaluateEpu_of_sound (old : List ImageEntry) (oldVspd : Quality) (imn : Option (Option Nat × Option Nat)) :
    evaluateEpu old oldVspd imn s = postEpu (updateTrips
      (tripViews (evalInOf old oldVspd imn s) (nextPresences (evalInOf old oldVspd imn s) (weighPayload s)) (weighPayload s))
      (presencesMet (evalInOf old oldVspd imn s) (weighPayload s))) := by
  unfold evaluateEpu evalInputs
  rw [readImages_sound sound]
  rfl

theorem evaluateEpu_imageStands (old : List ImageEntry) (oldVspd : Quality) (imn : Option (Option Nat × Option Nat)) :
    ImageStands (evaluateEpu old oldVspd imn s) s := by
  have trips := (updateTrips_trips
    (tripViews (evalInOf old oldVspd imn s) (nextPresences (evalInOf old oldVspd imn s) (weighPayload s)) (weighPayload s)) _).trans
    ((presencesMet_trips (evalInOf old oldVspd imn s) (weighPayload s)).trans (weighPayload_trips s))
  obtain ⟨-, -, sgs, -, -, -, -, -, rejects⟩ := trips.only
  rw [evaluateEpu_of_sound sound]
  exact ImageStands.trans (postEpu_imageStands _) ⟨sgs, rejects⟩

theorem computeTal_imageStands (gov : Gov) (d : Demand) (p : EpuPosting) : ImageStands (computeTal gov d p s) s := by
  simp only [computeTal, readImage_sound sound]
  exact (latchIf_imageStands ..).trans ⟨rfl, rfl⟩

theorem computeRgv_imageStands (gov : Gov) (d : Demand) (p : EpuPosting) : ImageStands (computeRgv gov d p s) s := by
  have still : ImageStands (if atRest s then s else gridAbort .moved s) s := by
    split
    · exact ⟨rfl, rfl⟩
    · refine ⟨by simp, ?_⟩
      cases run : s.rgv.check.run with
      | none => rw [gridAbort_of_idle run]
      | some r =>
        rw [gridAbort_of_run run, notify_rejects]
        simp
  unfold computeRgv
  generalize (if atRest s then s else gridAbort .moved s) = u at still ⊢
  simp only [readImage_sound (still.sound sound)]
  exact (latchIf_imageStands ..).trans ⟨still.sgs, still.rejects⟩

theorem computeSgv_imageStands (gov : Gov) (target rate : Int) : ImageStands (computeSgv gov target rate s) s := by
  rw [computeSgv_eq sound]
  refine ⟨by simp, ?_⟩
  rw [steerWatch_hli]

end

/-! ### Image N, published from sound memories -/

/-- Image N as decided from image N-1, the delivery buffer and the screening table. -/
def newImage (old : List ImageEntry) (buf : List Delivery) (named : List ScreenEntry) : List ImageEntry :=
  inputIds.map fun id => finishEntry (entryOf old id) (decidedEntry old buf named id)

/-- The stored content of the image. -/
def imageContent (s : State) : List ImageEntry := s.sgs.image.map (·.val)

theorem publishRead_of_sound {s : State} (sound : SoundImage s) (size : s.sgs.image.length = 34) :
    publishRead s = (imageContent s, { s with hli.force := s.hli.stored }) := by
  have entries : inputIds.map (fun id => ((s.sgs.image[id - 1]?).map (·.val)).getD .initial) = imageContent s := by
    refine List.ext_getElem (by simp [inputIds, imageContent, size]) fun i lt lt' => ?_
    have in_image : i < s.sgs.image.length := by simpa [imageContent] using lt'
    simp [inputIds, imageContent, List.getElem?_eq_getElem in_image]
  unfold publishRead
  rw [readImages_sound (s := { s with hli.force := s.hli.stored }) sound]
  exact congrArg (·, _) entries

theorem writeImage_of_no_injection {s : State} (none_pending : s.imn.image.inject = .none) (es : List ImageEntry) :
    writeImage es s = { s with sgs.image := es.map (⟨·, []⟩) } := by
  rw [writeImage, takeInjection_of_none (m := .image) none_pending]
  dsimp only
  congr 2
  refine List.ext_getElem (by simp) fun i lt lt' => ?_
  simp

theorem publishImage_of_sound {s : State} {old : List ImageEntry} (sound : ∀ p ∈ s.sgs.screen, p.flips = [])
    (image_quiet : s.imn.image.inject = .none) (screen_quiet : s.imn.screen.inject = .none) :
    publishImage old s = { screenedState old s.slc.delivery (screenContent s) inputIds s with
      sgs.image := (newImage old s.slc.delivery (screenContent s)).map (⟨·, []⟩)
      sgs.vspd := vspdOf s.hli.force (newImage old s.slc.delivery (screenContent s)) s.sgs.vspd
      sgs.payload := payloadOf s.hli.force (newImage old s.slc.delivery (screenContent s)) s.sgs.payload
      sgs.imageFrame := s.slc.frameNo } := by
  have stand : ∀ id ∈ inputIds, StandsFor (screenContent s) id s := fun id _ j names => by
    obtain ⟨p, at_j, -⟩ := names_screenContent_iff.1 names
    have flips := sound p (List.mem_of_getElem? at_j)
    rw [at_j]
    simp [screenContent, List.getD_eq_getElem?_getD, at_j, ← flips]
  have distinct : inputIds.Nodup := by decide
  unfold publishImage
  rw [screenSignals_of_stands distinct stand screen_quiet]
  dsimp only
  rw [writeImage_of_no_injection (by exact image_quiet)]
  rfl

/-! ### The lowest CORRUPT entries (R177) -/

theorem lowestCorrupt_eq (marks : List Bool) :
    lowestCorrupt marks = (List.range marks.length).find? (fun i => marks.getD i false) := by
  unfold lowestCorrupt
  dsimp only
  split
  case isTrue lt =>
    symm
    rw [List.find?_range_eq_some]
    refine ⟨?_, List.mem_range.2 lt, fun j before => ?_⟩
    · have := List.findIdx_getElem (w := lt)
      simpa [List.getD_eq_getElem?_getD, List.getElem?_eq_getElem lt] using this
    · have := List.not_of_lt_findIdx before
      have in_marks : j < marks.length := before.trans lt
      simpa [List.getD_eq_getElem?_getD, List.getElem?_eq_getElem in_marks] using this
  case isFalse none_found =>
    symm
    rw [List.find?_eq_none]
    intro j mem
    have in_marks := List.mem_range.1 mem
    have before : j < marks.findIdx id := by omega
    have := List.not_of_lt_findIdx before
    simpa [List.getD_eq_getElem?_getD, List.getElem?_eq_getElem in_marks] using this

/-- A counted rejection leaves the CORRUPT marks. -/
theorem countedScreen_corrupt (old : List ImageEntry) (buf : List Delivery) (named : List ScreenEntry) (ids : List Nat)
    (screen : List (Prot ScreenEntry)) :
    (countedScreen old buf named ids screen).map (·.val.corrupt) = screen.map (·.val.corrupt) := by
  refine List.ext_getElem (by simp [countedScreen]) fun i lt lt' => ?_
  simp only [countedScreen, List.getElem_map, List.getElem_mapIdx]
  split <;> rfl

/-! ### The publication -/

/-- The state once image N and the postings of the monitor are published, from sound memories. -/
def imagePublished (s : State) : State :=
  let old := imageContent s
  let named := screenContent s
  let image := newImage old s.slc.delivery named
  { s with
    hli.force := s.hli.stored
    hli.flags := if inputIds.any (turnsBad old s.slc.delivery named) then s.hli.flags ||| Flag.signalBad.mask else s.hli.flags
    hli.counters.screenRejects := Nat.repeat Counter.rise
      (inputIds.countP fun id => (rejecterOf old s.slc.delivery named id).isSome) s.hli.counters.screenRejects
    sgs.image := image.map (⟨·, []⟩)
    sgs.screen := countedScreen old s.slc.delivery named inputIds s.sgs.screen
    sgs.vspd := vspdOf s.hli.stored image s.sgs.vspd
    sgs.payload := payloadOf s.hli.stored image s.sgs.payload
    sgs.imageFrame := s.slc.frameNo
    imn.posting := some (lowestCorrupt (s.slc.acq.map (·.val.corrupt)), lowestCorrupt (s.sgs.screen.map (·.val.corrupt))) }

section
variable {s : State} (image_sound : SoundImage s) (size : s.sgs.image.length = 34)
  (screen_sound : ∀ p ∈ s.sgs.screen, p.flips = []) (image_quiet : s.imn.image.inject = .none)
  (screen_quiet : s.imn.screen.inject = .none)
include image_sound size screen_sound image_quiet screen_quiet

theorem publishedImage_of_sound : publishedImage s = imagePublished s := by
  have corrupt := countedScreen_corrupt (imageContent s) s.slc.delivery (screenContent s) inputIds s.sgs.screen
  unfold publishedImage
  rw [publishRead_of_sound image_sound size]
  dsimp only
  rw [publishImage_of_sound (by exact screen_sound) (by exact image_quiet) (by exact screen_quiet), imagePublished, ← corrupt]
  rfl

theorem publishedBlocks_of_sound : publishedBlocks s =
    computeSgv s.dsc.gov s.dsc.demand.steer s.epu.posting.env.steerRate
      (computeRgv s.dsc.gov s.dsc.demand s.epu.posting (computeTal s.dsc.gov s.dsc.demand s.epu.posting
        (evaluateEpu (imageContent s) s.sgs.vspd.quality s.imn.posting (imagePublished s)))) := by
  unfold publishedBlocks publishedEpu
  rw [publishedImage_of_sound image_sound size screen_sound image_quiet screen_quiet, publishRead_of_sound image_sound size]
  dsimp only
  rw [publishImage_of_sound (by exact screen_sound) (by exact image_quiet) (by exact screen_quiet)]
  rfl

/-- The blocks leave what was published. -/
theorem publishedBlocks_imageStands : ImageStands (publishedBlocks s) (imagePublished s) := by
  have sound : SoundImage (imagePublished s) := by
    intro p mem
    obtain ⟨e, -, rfl⟩ := List.mem_map.1 mem
    rfl
  have evaluated := evaluateEpu_imageStands sound (imageContent s) s.sgs.vspd.quality s.imn.posting
  have tal := (computeTal_imageStands (evaluated.sound sound) s.dsc.gov s.dsc.demand s.epu.posting).trans evaluated
  have rgv := (computeRgv_imageStands (tal.sound sound) s.dsc.gov s.dsc.demand s.epu.posting).trans tal
  rw [publishedBlocks_of_sound image_sound size screen_sound image_quiet screen_quiet]
  exact (computeSgv_imageStands (rgv.sound sound) ..).trans rgv

/-- A signal that turns BAD stands latched after the blocks. -/
theorem publishedBlocks_signalBad
    (turned : inputIds.any (turnsBad (imageContent s) s.slc.delivery (screenContent s)) = true) :
    standing .signalBad (publishedBlocks s) = true := by
  have latched : standing .signalBad (imagePublished s) = true := by
    have flags : (imagePublished s).hli.flags = (latch .signalBad s).hli.flags := by
      show (if _ then _ else _) = _
      rw [if_pos turned]
      rfl
    have alone := standing_latch .signalBad s
    rwa [standing_eq_getLsbD, ← flags, ← standing_eq_getLsbD] at alone
  have published := publishedImage_of_sound image_sound size screen_sound image_quiet screen_quiet
  have evaluated := (publishedEpu_evaluates s).stands.flags
  rw [published] at evaluated
  exact (publishedBlocks_computes s).stands.flags _ (evaluated _ latched)

end

end Sys2Proof.Machine
end

section
/-! The publication event (R50, R51, R70). -/

namespace Sys2Proof.Machine

/-- Settles O37. -/
theorem publicationPublishesTheFrame : Obligations.PublicationPublishesTheFrame := by
  refine ⟨fun s live => ⟨fun early unused => ?_, fun ended => ?_⟩, fun s live sizes ended image_sound screen_sound
    image_quiet screen_quiet => ?_⟩
  · rw [exec_publication live, publication_of_early early unused]
  · exact ⟨publish s, by rw [exec_publication live, publication_eq ended], publish_frame s⟩
  · intro buf old ids scr rejecter decided turns image lowest p env e v
    have size : s.sgs.image.length = 34 := congrArg (·.2.2.1) sizes
    have decided_eq : ∀ id, decided id = decidedEntry old buf (screenContent s) id := by
      intro id
      have rejecter_eq : rejecter id = rejecterOf old buf (screenContent s) id := rfl
      simp only [decided, rejecter_eq, decidedEntry, rejectedEntry]
      cases deliveredFor buf id with
      | none => rfl
      | some d =>
        cases rejecterOf old buf (screenContent s) id with
        | none => rfl
        | some j =>
          simp only [Option.elim]
          have content : (screenContent s).getD j .empty = scr j := rfl
          rw [content]
          cases action : (scr j).action <;> rfl
    have turns_eq : turns = turnsBad old buf (screenContent s) := funext fun id => by
      simp only [turns, decided_eq]
      rfl
    have image_eq : image = newImage old buf (screenContent s) := by
      simp only [image, decided_eq, turns_eq]
      rfl
    have published : p = imagePublished s := by
      simp only [p, image_eq, turns_eq, lowest, ← lowestCorrupt_eq]
      rfl
    have blocks : v = publishedBlocks s := by
      rw [publishedBlocks_of_sound image_sound size screen_sound image_quiet screen_quiet, ← published]
      rfl
    have stands := publishedBlocks_imageStands image_sound size screen_sound image_quiet screen_quiet
    have mark : (publishedBlocks s).slc.markReached = s.slc.markReached :=
      (publishedBlocks_computes s).stands.mark.trans ((publishedEpu_evaluates s).stands.mark.trans
        (publishedImage_publishes s).stands.mark)
    rw [blocks, published]
    refine ⟨?_, fun _ => ?_, ?_, ?_, stands.rejects, fun turned => ?_⟩
    · rw [exec_publication live, publication_eq ended, publish_eq, mark]
    · obtain ⟨-, -, -, sgs, epu, tal, rgv, sgv, -⟩ := (beginDispatch_moves (publishedBlocks s)).frame
      exact ⟨tal, rgv, sgv, sgs, epu⟩
    · rw [stands.sgs]
    · rw [stands.sgs]
    · refine publishedBlocks_signalBad image_sound size screen_sound image_quiet screen_quiet ?_
      rwa [turns_eq] at turned

end Sys2Proof.Machine
end

section
/-! SUPPORT. VSPD and PAYLOAD_NOW: their arithmetic, and where a publication and the entry to HALTED take them from (R66,
R76, R77). -/

namespace Sys2Proof.Machine

/-! ### Arithmetic -/

/-- `v` is a whole number nearest to num/den. -/
def NearestTo (num den v : Int) : Prop := -den ≤ 2 * num - 2 * v * den ∧ 2 * num - 2 * v * den ≤ den

theorem nearest_nearestTo (num : Int) {den : Int} (pos : 0 < den) : NearestTo num den (nearest num den) := by
  have parts := Int.mul_ediv_add_emod (2 * num + den) (2 * den)
  have low := Int.emod_nonneg (2 * num + den) (by omega : 2 * den ≠ 0)
  have high := Int.emod_lt_of_pos (2 * num + den) (by omega : 0 < 2 * den)
  have shape : 2 * nearest num den * den = 2 * den * ((2 * num + den) / (2 * den)) := by
    rw [nearest]
    ring
  unfold NearestTo
  omega

theorem nearest_nonneg {num den : Int} (num_nonneg : 0 ≤ num) (pos : 0 < den) : 0 ≤ nearest num den :=
  Int.ediv_nonneg (by omega) (by omega)

theorem piNum_pos : 0 < piNum := by decide

theorem piDen_pos : 0 < piDen := by decide

theorem usable_iff (q : Quality) : q.usable = true ↔ q = .fresh ∨ q = .kept ∨ q = .subst := by
  cases q <;> simp [Quality.usable]

/-- The lowest quality of usable signals, in the order FRESH, KEPT, SUBST. -/
theorem lowestQuality_spec {es : List ImageEntry} (usable : ∀ e ∈ es, e.quality.usable = true) :
    (lowestQuality es = .fresh ∨ lowestQuality es = .kept ∨ lowestQuality es = .subst)
      ∧ (lowestQuality es = .subst ↔ ∃ e ∈ es, e.quality = .subst)
      ∧ (lowestQuality es = .fresh ↔ ∀ e ∈ es, e.quality = .fresh) := by
  unfold lowestQuality
  by_cases subst : es.any (·.quality == .subst) = true
  · obtain ⟨e, mem, eq⟩ := List.any_eq_true.1 subst
    have is_subst : e.quality = .subst := by simpa using eq
    rw [if_pos subst]
    exact ⟨by simp, by simpa using ⟨e, mem, is_subst⟩, by simpa using ⟨e, mem, by simp [is_subst]⟩⟩
  · have none_subst : ∀ e ∈ es, e.quality ≠ .subst := fun e mem eq => subst (List.any_eq_true.2 ⟨e, mem, by simp [eq]⟩)
    rw [if_neg subst]
    by_cases kept : es.any (·.quality == .kept) = true
    · obtain ⟨e, mem, eq⟩ := List.any_eq_true.1 kept
      have is_kept : e.quality = .kept := by simpa using eq
      rw [if_pos kept]
      exact ⟨by simp, by simpa using none_subst, by simpa using ⟨e, mem, by simp [is_kept]⟩⟩
    · have none_kept : ∀ e ∈ es, e.quality ≠ .kept := fun e mem eq => kept (List.any_eq_true.2 ⟨e, mem, by simp [eq]⟩)
      rw [if_neg kept]
      refine ⟨by simp, by simpa using none_subst, ⟨fun _ e mem => ?_, fun _ => rfl⟩⟩
      obtain fresh | is_kept | is_subst := (usable_iff e.quality).1 (usable e mem)
      · exact fresh
      · exact absurd is_kept (none_kept e mem)
      · exact absurd is_subst (none_subst e mem)

/-! ### The front wheel speeds -/

theorem frontSpeed_spec (g : Settings) {fs : List ImageEntry} (some_front : fs ≠ []) :
    NearestTo ((((fs.map (fun e : ImageEntry => e.value)).sum : Int).natAbs : Int) * g.wheelRadius * 120 * piNum)
      (fs.length * 1000000 * piDen) (frontSpeed g fs) ∧ 0 ≤ frontSpeed g fs := by
  have length_pos : (0 : Int) < fs.length := by exact_mod_cast List.length_pos_of_ne_nil some_front
  have den_pos : (0 : Int) < fs.length * 1000000 * piDen := by have := piDen_pos; positivity
  exact ⟨nearest_nearestTo _ den_pos, nearest_nonneg (mul_nonneg (by positivity) piNum_pos.le) den_pos⟩

/-! ### The image that a publication draws from -/

/-- What the screening leaves: the derived signals, the guard of the image, the settings. -/
structure KeepsDerived (t s : State) : Prop where
  vspd : t.sgs.vspd = s.sgs.vspd
  payload : t.sgs.payload = s.sgs.payload
  guard : t.imn.image.inject = s.imn.image.inject
  force : t.hli.force = s.hli.force

theorem KeepsDerived.refl (s : State) : KeepsDerived s s := ⟨rfl, rfl, rfl, rfl⟩

theorem KeepsDerived.trans {u t s : State} (h : KeepsDerived u t) (h' : KeepsDerived t s) : KeepsDerived u s :=
  ⟨h.vspd.trans h'.vspd, h.payload.trans h'.payload, h.guard.trans h'.guard, h.force.trans h'.force⟩

theorem latchIf_keepsDerived (b : Bool) (f : Flag) (s : State) : KeepsDerived (latchIf b f s) s := by
  cases b <;> exact ⟨rfl, rfl, rfl, rfl⟩

theorem readScreen_keepsDerived (i : Nat) (s : State) : KeepsDerived (readScreen i s).2 s := by
  unfold readScreen
  split
  · exact .refl s
  · split <;> exact ⟨rfl, rfl, rfl, rfl⟩

theorem countFailure_keepsDerived (i : Nat) (e : ScreenEntry) (s : State) : KeepsDerived (countFailure i e s) s := by
  obtain ⟨fs, n, -, -, counted⟩ := countFailure_spec i e s
  rw [counted]
  exact ⟨rfl, rfl, rfl, rfl⟩

theorem keepsDerived_steps : ScreeningSteps KeepsDerived :=
  ⟨.refl, .trans, readScreen_keepsDerived, countFailure_keepsDerived, fun b => latchIf_keepsDerived b _⟩

theorem readImage_keepsDerived (id : Nat) (s : State) : KeepsDerived (readImage id s).2 s := by
  unfold readImage
  split
  · exact .refl s
  · split
    · exact .refl s
    · exact ⟨rfl, rfl, rfl, rfl⟩
    · exact (latchIf_keepsDerived ..).trans ⟨rfl, rfl, rfl, rfl⟩

theorem readImages_keepsDerived (ids : List Nat) (s : State) : KeepsDerived (readImages ids s).2 s := by
  induction ids generalizing s with
  | nil => exact .refl s
  | cons id ids ih => exact (ih _).trans (readImage_keepsDerived id s)

/-- With no injection pending for it, the image reads back as published, and the derived signals are drawn from it. -/
theorem publishImage_draws (old : List ImageEntry) {s : State} (quiet : s.imn.image.inject = .none) :
    ∃ es : List ImageEntry, (publishImage old s).sgs.image = es.map (⟨·, []⟩)
      ∧ (publishImage old s).sgs.vspd = vspdOf s.hli.force es s.sgs.vspd
      ∧ (publishImage old s).sgs.payload = payloadOf s.hli.force es s.sgs.payload := by
  have screened := keepsDerived_steps.screenSignals old s.slc.delivery (screenContent s) inputIds s
  unfold publishImage
  generalize screenSignals old s.slc.delivery (screenContent s) inputIds s = q at screened ⊢
  obtain ⟨es, u⟩ := q
  have written := writeImage_of_no_injection (s := u) (screened.guard.trans quiet) es
  refine ⟨es, ?_, ?_, ?_⟩
  · exact congrArg (·.sgs.image) written
  · exact congrArg₂ (vspdOf · es ·) screened.force screened.vspd
  · exact congrArg₂ (payloadOf · es ·) screened.force screened.payload

theorem publishedBlocks_sgs {s : State} (sound : SoundImage (publishedImage s)) :
    (publishedBlocks s).sgs = (publishedImage s).sgs := by
  have evaluated : ImageStands (publishedEpu s) (publishedImage s) := by
    unfold publishedEpu
    exact evaluateEpu_imageStands sound ..
  unfold publishedBlocks
  dsimp only
  generalize publishImage (publishRead s).1 (publishRead s).2 = u
  have tal := (computeTal_imageStands (evaluated.sound sound) u.dsc.gov u.dsc.demand u.epu.posting).trans evaluated
  have rgv := (computeRgv_imageStands (tal.sound sound) u.dsc.gov u.dsc.demand u.epu.posting).trans tal
  exact ((computeSgv_imageStands (rgv.sound sound) ..).trans rgv).sgs

/-- A publication draws the derived signals from the image it publishes. -/
theorem publish_draws {s : State} (quiet : s.imn.image.inject = .none) :
    (publish s).sgs.vspd = vspdOf s.hli.stored ((publish s).sgs.image.map (·.val)) s.sgs.vspd
      ∧ (publish s).sgs.payload = payloadOf s.hli.stored ((publish s).sgs.image.map (·.val)) s.sgs.payload := by
  have read : KeepsDerived (publishRead s).2 { s with hli.force := s.hli.stored } := by
    unfold publishRead
    exact readImages_keepsDerived ..
  obtain ⟨es, image, vspd, payload⟩ := publishImage_draws (publishRead s).1 (read.guard.trans quiet)
  have published := publishedImage_sgs s
  have sound : SoundImage (publishedImage s) := by
    intro p mem
    rw [published, image] at mem
    obtain ⟨e, -, rfl⟩ := List.mem_map.1 mem
    rfl
  obtain ⟨-, -, -, sgs, -⟩ := (publish_moves s).frame
  have kept : (publish s).sgs = (publishImage (publishRead s).1 (publishRead s).2).sgs := by
    rw [sgs, publishedBlocks_sgs sound, published]
  have content : (publish s).sgs.image.map (·.val) = es := by
    rw [kept, image]
    simp [Function.comp_def]
  rw [content, kept, vspd, payload, read.force, read.vspd, read.payload]
  exact ⟨rfl, rfl⟩

/-- Settles O60. -/
theorem derivedSignalsAreDrawnFromTheImage : Obligations.DerivedSignalsAreDrawnFromTheImage := by
  refine ⟨fun g es old => ?speed, fun g es old => ?payload, fun s live ended quiet => ?publication,
    fun tag s can_take tag_ne gov => ?halted⟩
  case speed =>
    intro front motor near v
    have value : v = if 0 < front.length then ⟨frontSpeed g front, lowestQuality front⟩
        else if 0 < motor.length then
          ⟨nearest ((motor.map (fun e : ImageEntry => (e.value.natAbs : Int))).sum * g.wheelRadius * 12000 * piNum)
            (motor.length * g.gearRatio * 1000000 * piDen), .subst⟩
        else ⟨old.value, .bad⟩ := rfl
    refine ⟨fun some_front => ?_, fun no_front some_motor => ?_, fun no_front no_motor => ?_⟩
    · have usable : ∀ e ∈ front, e.quality.usable = true := fun e mem => (List.mem_filter.1 mem).2
      obtain ⟨speed, nonneg⟩ := frontSpeed_spec g some_front
      rw [value, if_pos (List.length_pos_of_ne_nil some_front)]
      exact ⟨speed, nonneg, lowestQuality_spec usable⟩
    · rw [value, if_neg (by simp [no_front]), if_pos (List.length_pos_of_ne_nil some_motor)]
      refine ⟨rfl, fun gear => nearest_nearestTo _ ?_⟩
      have length_pos : (0 : Int) < motor.length := by exact_mod_cast List.length_pos_of_ne_nil some_motor
      have gear_pos : (0 : Int) < g.gearRatio := by exact_mod_cast gear
      have := piDen_pos
      positivity
    · rw [value, if_neg (by simp [no_front]), if_neg (by simp [no_motor])]
  case payload =>
    intro struts n v
    have value : v = if struts.all (·.quality.usable) then ⟨max 0 (roundNearest .payloadNow n 100), lowestQuality struts⟩
        else ⟨old.value, .bad⟩ := rfl
    refine ⟨fun usable => ?_, fun ⟨e, mem, lost⟩ => ?_⟩
    · have near := roundNearest_near .payloadNow n (den := 100) (by decide)
      rw [value, if_pos (List.all_eq_true.2 usable)]
      refine ⟨le_max_left .., fun low => ?_, fun high => ?_, lowestQuality_spec usable⟩ <;> dsimp only <;> omega
    · rw [value, if_neg]
      rw [List.all_eq_true]
      exact fun all => by simp [all e mem] at lost
  case publication =>
    exact ⟨publish s, by rw [exec_publication live, publication_eq ended], publish_draws quiet⟩
  case halted =>
    refine ⟨requestHalted tag s, exec_halted can_take tag_ne gov, ?_⟩
    rw [requestHalted_eq]
    obtain ⟨-, -, -, -, -, -, -, -, sgs, -⟩ := haltEffects_fields (changeState .halted .request (checksHalted s))
    show (haltEffects _).sgs.vspd = _ ∧ (haltEffects _).sgs.payload = _
    rw [sgs, haltImage_sgs]
    exact ⟨rfl, rfl⟩

end Sys2Proof.Machine
end

section
/-! SUPPORT. Conditions on values, their counts, the keys and causes of an evaluation (R84 to R88). -/

namespace Sys2Proof.Machine

/-! ### A condition on a value (R84) -/

/-- The rows of R84 for a condition that arises past `up` and goes past `down`. -/
def LevelRows (e : ImageEntry) (up down : Int → Prop) (was now : Bool) : Prop :=
  (e.quality.usable = false → now = was) ∧ (e.quality.usable = true → up e.value → now = true)
    ∧ (e.quality.usable = true → down e.value → now = false)
    ∧ (e.quality.usable = true → ¬up e.value → ¬down e.value → now = was)

theorem presence_level {up down : Int → Prop} [DecidablePred up] [DecidablePred down] (apart : ∀ v, down v → ¬up v)
    (e : ImageEntry) (last : Bool) :
    LevelRows e up down last (presence e (fun v => decide (up v)) (fun v => decide (down v)) last) := by
  refine ⟨fun lost => ?_, fun usable high => ?_, fun usable low => ?_, fun usable not_high not_low => ?_⟩
  · simp [presence, lost]
  · simp [presence, usable, high]
  · simp [presence, usable, low, apart _ low]
  · simp [presence, usable, not_high, not_low]

/-- The rows for a condition that asks for `num` consecutive evaluations. -/
def CountRows (usable high : Prop) (num n n' : Nat) (was now : Bool) : Prop :=
  (¬usable → now = was ∧ n' = n) ∧ (usable → ¬high → now = false ∧ n' = 0)
    ∧ (usable → high → n' = n + 1 ∧ (now = true ↔ num ≤ n + 1))

theorem count_rows (usable : Bool) (high : Prop) [Decidable high] (num n : Nat) (was : Bool) :
    CountRows (usable = true) high num n (countStep usable (decide high) n) was
      (countPresence usable (decide high) num n was) := by
  refine ⟨fun lost => ?_, fun live low => ?_, fun live up => ?_⟩
  · simp [countStep, countPresence, lost]
  · simp [countStep, countPresence, live, low]
  · simp [countStep, countPresence, live, up]

/-! ### The grid with the higher ratio (R85) -/

theorem higherGrid_eq_none_iff (c : RgvCond) : higherGrid c = none ↔ c.emaxA ≤ 0 ∧ c.emaxB ≤ 0 := by
  unfold higherGrid
  by_cases a : 0 < c.emaxA <;> by_cases b : 0 < c.emaxB <;> simp only [a, b, if_true, if_false] <;>
    (try split) <;> simp <;> omega

theorem higherGrid_spec {c : RgvCond} {e m : Int} (higher : higherGrid c = some (e, m)) :
    ((e, m) = (c.energyA, c.emaxA) ∨ (e, m) = (c.energyB, c.emaxB)) ∧ 0 < m
      ∧ (0 < c.emaxA → c.energyA * m ≤ e * c.emaxA) ∧ (0 < c.emaxB → c.energyB * m ≤ e * c.emaxB) := by
  unfold higherGrid at higher
  by_cases a : 0 < c.emaxA
  · by_cases b : 0 < c.emaxB
    · simp only [a, b, if_true] at higher
      split at higher
      · obtain ⟨rfl, rfl⟩ : c.energyB = e ∧ c.emaxB = m := by simpa using higher
        exact ⟨.inr rfl, b, fun _ => by omega, fun _ => Int.le_refl _⟩
      · obtain ⟨rfl, rfl⟩ : c.energyA = e ∧ c.emaxA = m := by simpa using higher
        exact ⟨.inl rfl, a, fun _ => Int.le_refl _, fun _ => by omega⟩
    · simp only [a, b, if_true, if_false] at higher
      obtain ⟨rfl, rfl⟩ : c.energyA = e ∧ c.emaxA = m := by simpa using higher
      exact ⟨.inl rfl, a, fun _ => Int.le_refl _, fun h => absurd h b⟩
  · by_cases b : 0 < c.emaxB
    · simp only [a, b, if_true, if_false] at higher
      obtain ⟨rfl, rfl⟩ : c.energyB = e ∧ c.emaxB = m := by simpa using higher
      exact ⟨.inr rfl, b, fun h => absurd h a, fun _ => Int.le_refl _⟩
    · simp [a, b] at higher

/-- A ratio of at least `k` percent on a grid with capacity. -/
def GridHot (c : RgvCond) (k : Int) : Prop :=
  0 < c.emaxA ∧ k * c.emaxA ≤ 100 * c.energyA ∨ 0 < c.emaxB ∧ k * c.emaxB ≤ 100 * c.energyB

/-- A grid is hot when the one with the higher ratio is. -/
theorem gridHot_iff {c : RgvCond} {e m : Int} (higher : higherGrid c = some (e, m)) (k : Int) :
    GridHot c k ↔ k * m ≤ 100 * e := by
  obtain ⟨one_of_them, pos, over_a, over_b⟩ := higherGrid_spec higher
  have raise : ∀ {x y : Int}, 0 < y → x * m ≤ e * y → k * y ≤ 100 * x → k * m ≤ 100 * e := by
    intro x y y_pos least hot
    have scaled : y * (k * m) ≤ y * (100 * e) := by
      calc y * (k * m) = k * y * m := by ring
        _ ≤ 100 * x * m := mul_le_mul_of_nonneg_right hot pos.le
        _ = 100 * (x * m) := by ring
        _ ≤ 100 * (e * y) := by omega
        _ = y * (100 * e) := by ring
    exact le_of_mul_le_mul_left scaled y_pos
  constructor
  · rintro (⟨a, hot⟩ | ⟨b, hot⟩)
    · exact raise a (over_a a) hot
    · exact raise b (over_b b) hot
  · intro hot
    obtain eq | eq := one_of_them
    · obtain ⟨rfl, rfl⟩ := Prod.mk.inj eq
      exact .inl ⟨pos, hot⟩
    · obtain ⟨rfl, rfl⟩ := Prod.mk.inj eq
      exact .inr ⟨pos, hot⟩

/-- The rows of GRID_HEAT with an RGV posting. -/
theorem gridHeat_rows (c : RgvCond) (last : Bool) :
    (c.emaxA ≤ 0 ∧ c.emaxB ≤ 0 → gridHeatPresence (some c) last = last)
      ∧ (GridHot c 85 → gridHeatPresence (some c) last = true)
      ∧ (0 < c.emaxA ∨ 0 < c.emaxB → ¬GridHot c 80 → gridHeatPresence (some c) last = false)
      ∧ (GridHot c 80 → ¬GridHot c 85 → gridHeatPresence (some c) last = last) := by
  cases higher : higherGrid c with
  | none =>
    obtain ⟨no_a, no_b⟩ := (higherGrid_eq_none_iff c).1 higher
    have none_hot : ∀ k, ¬GridHot c k := by
      rintro k (⟨a, -⟩ | ⟨b, -⟩) <;> omega
    have keeps : gridHeatPresence (some c) last = last := by simp [gridHeatPresence, higher]
    exact ⟨fun _ => keeps, fun hot => absurd hot (none_hot _), fun some_grid => by omega, fun _ _ => keeps⟩
  | some x =>
    obtain ⟨e, m⟩ := x
    obtain ⟨-, pos, -⟩ := higherGrid_spec higher
    have value : gridHeatPresence (some c) last = if 85 * m ≤ 100 * e then true else if 100 * e < 80 * m then false else last := by
      simp [gridHeatPresence, higher]
    have some_grid : ¬(c.emaxA ≤ 0 ∧ c.emaxB ≤ 0) := fun none_there => by
      simp [(higherGrid_eq_none_iff c).2 none_there] at higher
    rw [gridHot_iff higher, gridHot_iff higher, value]
    refine ⟨fun none_there => absurd none_there some_grid, fun hot => if_pos hot, fun _ cool => ?_, fun warm not_hot => ?_⟩
    · rw [if_neg (by omega), if_pos (by omega)]
    · rw [if_neg not_hot, if_neg (by omega)]

/-! ### The evaluation (R80) -/

/-- Weighing the payload moves the haul payload, its class and the rest window. -/
theorem weighPayload_eq (s : State) : ∃ haul cls count window, weighPayload s = { s with
    epu.haul := haul, epu.cls := cls, epu.restCount := count, epu.restWindow := window } := by
  cases rest : atRest s with
  | true => exact ⟨s.epu.haul, s.epu.cls, _, _, weighPayload_of_rest rest⟩
  | false =>
    obtain none_rested | rested := Nat.eq_zero_or_pos s.epu.restCount
    · exact ⟨s.epu.haul, s.epu.cls, s.epu.restCount, s.epu.restWindow, weighPayload_of_away rest none_rested⟩
    · refine ⟨(captureHaul s).epu.haul, (captureHaul s).epu.cls, 0, [], (weighPayload_of_leaving rest rested).trans ?_⟩
      unfold captureHaul
      split_ifs <;> rfl

theorem boundExcluded_eq (sig : Nat) (s : State) : boundExcluded sig s = (boundAddr sig s).elim false fun a =>
    s.slc.posting.elim false fun p => p.stations.any (fun x => x.1 == a && x.2.2 == .excluded) := by
  unfold boundExcluded
  cases boundAddr sig s <;> cases s.slc.posting <;> rfl

theorem OnlyTripList.pres {t s : State} (h : OnlyTripList t s) : t.epu.pres = s.epu.pres := by rw [h]

theorem OnlyTripList.derates {t s : State} (h : OnlyTripList t s) : t.epu.derates = s.epu.derates := by rw [h]

theorem postEpu_lists (s : State) : (postEpu s).epu.pres = s.epu.pres ∧ (postEpu s).epu.derates = s.epu.derates
    ∧ (postEpu s).epu.trips = s.epu.trips := ⟨rfl, rfl, rfl⟩

theorem presencesMet_fields (i : EvalIn) (w : State) : (presencesMet i w).epu.pres = nextPresences i w
    ∧ (presencesMet i w).epu.derates =
      updateDerates w.slc.frameNo w.hli.force.derateHold (keyViews i (nextPresences i w) w) w.epu.derates
    ∧ (presencesMet i w).epu.trips = w.epu.trips ∧ (presencesMet i w).epu.pendingSet = w.epu.pendingSet
    ∧ (presencesMet i w).slc = w.slc := by
  simp only [presencesMet, and_self]

theorem evaluateEpu_lists {s : State} (sound : SoundImage s) (old : List ImageEntry) (oldVspd : Quality)
    (imn : Option (Option Nat × Option Nat)) :
    let i := evalInOf old oldVspd imn s
    let t := evaluateEpu old oldVspd imn s
    t.epu.pres = nextPresences i s
      ∧ t.epu.derates = updateDerates s.slc.frameNo s.hli.force.derateHold (keyViews i t.epu.pres (weighPayload s)) s.epu.derates
      ∧ ∃ u, u.epu.trips = s.epu.trips ∧ u.epu.pendingSet = s.epu.pendingSet ∧ u.slc = s.slc
        ∧ t.epu.trips = (updateTrips (tripViews i t.epu.pres (weighPayload s)) u).epu.trips := by
  intro i t
  obtain ⟨haul, cls, count, window, weighed⟩ := weighPayload_eq s
  have presences : nextPresences i (weighPayload s) = nextPresences i s := by
    rw [weighed]
    rfl
  obtain ⟨met_pres, met_derates, met_trips, met_pending, met_slc⟩ := presencesMet_fields i (weighPayload s)
  have lists := updateTrips_tripList (tripViews i (nextPresences i (weighPayload s)) (weighPayload s))
    (presencesMet i (weighPayload s))
  obtain ⟨posted_pres, posted_derates, posted_trips⟩ := postEpu_lists (updateTrips
    (tripViews i (nextPresences i (weighPayload s)) (weighPayload s)) (presencesMet i (weighPayload s)))
  have value := evaluateEpu_of_sound sound old oldVspd imn
  have pres : t.epu.pres = nextPresences i s := by
    rw [← presences, ← met_pres, ← lists.pres, ← posted_pres, ← value]
  refine ⟨pres, ?_, presencesMet i (weighPayload s), ?_, ?_, ?_, ?_⟩
  · have derates : t.epu.derates = (presencesMet i (weighPayload s)).epu.derates := by
      rw [← lists.derates, ← posted_derates, ← value]
    have frame : (weighPayload s).slc.frameNo = s.slc.frameNo := by rw [weighed]
    have hold : (weighPayload s).hli.force.derateHold = s.hli.force.derateHold := by rw [weighed]
    have before : (weighPayload s).epu.derates = s.epu.derates := by rw [weighed]
    rw [derates, met_derates, pres, presences, frame, hold, before]
  · rw [met_trips, weighed]
  · rw [met_pending, weighed]
  · rw [met_slc, weighed]
  · rw [pres, ← presences, ← posted_trips, ← value]

/-- Settles O38. -/
theorem conditionsAriseAndGo : Obligations.ConditionsAriseAndGo := by
  refine ⟨⟨fun e arises goes last => ?presence, fun usable test num n last => ?count⟩, fun s live governing => ?events,
    fun i s => ?levels, fun i p s => ?views, fun c => ⟨higherGrid_eq_none_iff c, fun e m higher => higherGrid_spec higher⟩,
    fun old oldVspd imn s sound => ?evaluation⟩
  case evaluation =>
    intro e i t w
    have read : evalInOf old oldVspd imn s = i := rfl
    have lists := evaluateEpu_lists sound old oldVspd imn
    have evaluated : evaluateEpu old oldVspd imn s = t := rfl
    have weighed : weighPayload s = w := rfl
    dsimp only at lists
    rw [read, evaluated, weighed] at lists
    exact lists
  case presence =>
    refine ⟨fun lost => ?_, fun usable up => ?_, fun usable not_up down => ?_, fun not_up not_down => ?_⟩
    · simp [presence, lost]
    · simp [presence, usable, up]
    · simp [presence, usable, not_up, down]
    · simp [presence, not_up, not_down]
  case count =>
    refine ⟨fun lost => ?_, fun live low => ?_, fun live up => ?_⟩ <;> simp [countStep, countPresence, *]
  case events =>
    refine ⟨fun count absent => ?_, fun count absent => ?_⟩
    · refine (live_of_run (conditionCountReached .dcLinkOver) live).trans ?_
      simp [conditionCountReached, governing, count, absent]
    · refine (live_of_run (conditionCountReached .overspeed) live).trans ?_
      simp [conditionCountReached, governing, count, absent]
  case levels =>
    intro p q level at' mark counted
    have hot := presence_level (up := fun v => 1500 < v) (down := fun v => v < 1450) fun v low high => by omega
    have inv := presence_level (up := fun v => 800 < v) (down := fun v => v < 770) fun v low high => by omega
    have link := presence_level (up := fun v => 2700 < v) (down := fun v => v < 2650) fun v low high => by omega
    have above := fun lim : Int => presence_level (up := fun v => lim ≤ v) (down := fun v => v < lim) fun v low high => by omega
    have marked := presence_level (up := fun v => v / 32768 % 2 = 1) (down := fun v => v / 32768 % 2 = 0)
      fun v low high => by omega
    refine ⟨hot .., hot .., inv .., inv .., link .., marked .., marked .., above .., above .., above .., above .., above .., above ..,
      count_rows _ _ 2 _ _, count_rows _ _ 20 _ _, fun none_posted => ?_, fun c posted => ?_⟩
    · show gridHeatPresence s.rgv.cond _ = false
      rw [none_posted]
      rfl
    · have heat : q.gridHeat = gridHeatPresence (some c) p.gridHeat := by
        rw [← posted]
        rfl
      intro hot
      rw [heat]
      exact gridHeat_rows c p.gridHeat
  case views =>
    intro lost from' motor inverter heat bound fault acq screen
    have bound_eq : ∀ sig, boundExcluded sig s = bound sig := by
      intro sig
      rw [boundExcluded_eq]
      simp only [bound]
      cases boundAddr sig s <;> cases s.slc.posting <;> rfl
    have lost_eq : ∀ id, Machine.lost i id = lost id := by
      intro id
      simp only [Machine.lost, EvalIn.first, lost, entryOf, Option.not_isNone]
    have motor_eq : motorHotLimit = motor := funext fun v => by
      simp only [motorHotLimit, motor, clamp]
      omega
    have inverter_eq : inverterHotLimit = inverter := funext fun v => by
      simp only [inverterHotLimit, inverter, clamp]
      omega
    have heat_eq : (s.rgv.cond.bind higherGrid).map (fun x => gridHeatLimit x.1 x.2) = heat := by
      refine congrArg (Option.map · _) (funext fun x => ?_)
      simp only [gridHeatLimit, clamp]
      omega
    constructor
    · simp only [keyViews, List.map_append, List.map_cons, List.map_nil, lost_eq, motor_eq, inverter_eq, heat_eq]
      rfl
    · simp only [tripViews, List.map_append, List.map_cons, List.map_nil, lost_eq, inverterFault, bound_eq, EvalIn.first, Option.not_isNone]
      rfl

end Sys2Proof.Machine
end

section
/-! SUPPORT. The computation of the traction allocator from a sound image (R104, R112). -/

namespace Sys2Proof.Machine

theorem Posted.read_eq (o : Posted) : o.read = if o.frame = none then 0 else o.value := by
  unfold Posted.read
  cases o.frame <;> rfl

/-- The reference speed of a sound image. -/
def talRef (s : State) : Option Int := referenceSpeed s.hli.force (s.entry 3) (s.entry 4)

/-- The slip of a wheel, from its motor speed `e`. -/
def talSlip (e : ImageEntry) (s : State) : Option Int := slipOf (talRef s) (wheelSpeed s.hli.force e)

def talWheelL (s : State) : Wheel :=
  nextWheel s.hli.force (talRef s).isNone (talSlip (s.entry 1) s) s.out.tcL.read s.tal.wheelL

def talWheelR (s : State) : Wheel :=
  nextWheel s.hli.force (talRef s).isNone (talSlip (s.entry 2) s) s.out.tcR.read s.tal.wheelR

/-- The base of both wheels. -/
def talBase (gov : Gov) (d : Demand) (p : EpuPosting) (s : State) : Int :=
  baseTorque gov s.out.rreq.read (propelRequest gov d (nextTravel (atRest s) d.dir s.tal.travel).1
    (nextTravel (atRest s) d.dir s.tal.travel).2 s.out.rreq.read p.env.speedLimit s.sgs.vspd)

def talCommandL (gov : Gov) (d : Demand) (p : EpuPosting) (s : State) : Int :=
  wheelCommand gov s.hli.force p true (talBase gov d p s) s.out.yaw.read s.out.tcL.read (talWheelL s)

def talCommandR (gov : Gov) (d : Demand) (p : EpuPosting) (s : State) : Int :=
  wheelCommand gov s.hli.force p false (talBase gov d p s) s.out.yaw.read s.out.tcR.read (talWheelR s)

/-- PROPEL_RETARD is present (R106). -/
def talPropelRetard (gov : Gov) (d : Demand) (s : State) : Bool :=
  decide (gov = .drive) && decide (0 < d.propel) && decide (0 < s.out.rreq.read)

/-- What a computation stages. -/
def talStages (gov : Gov) (d : Demand) (p : EpuPosting) (s : State) : TalStaged :=
  ⟨s.slc.frameNo, talCommandL gov d p s, talCommandR gov d p s,
    modeWord (nextTravel (atRest s) d.dir s.tal.travel).1 (talCommandL gov d p s),
    modeWord (nextTravel (atRest s) d.dir s.tal.travel).1 (talCommandR gov d p s),
    (talSlip (s.entry 1) s).getD 0, (talSlip (s.entry 2) s).getD 0,
    ⟨(talWheelL s).persist, (talWheelR s).persist, (talRef s).isNone⟩⟩

theorem computeTal_of_sound {s : State} (sound : SoundImage s) (gov : Gov) (d : Demand) (p : EpuPosting) :
    computeTal gov d p s = latchIf (talPropelRetard gov d s) .propelRetard { s with tal := { s.tal with
      travel := (nextTravel (atRest s) d.dir s.tal.travel).1
      dirPending := (nextTravel (atRest s) d.dir s.tal.travel).2
      wheelL := talWheelL s, wheelR := talWheelR s, refLost := (talRef s).isNone
      propelRetard := talPropelRetard gov d s, staged := some (talStages gov d p s) } } := by
  simp only [computeTal, readImage_sound sound]
  rfl

theorem latchIf_eq (b : Bool) (f : Flag) (s : State) :
    latchIf b f s = { s with hli.flags := if b then s.hli.flags ||| f.mask else s.hli.flags } := by
  cases b <;> rfl

theorem latchIf_tal (b : Bool) (f : Flag) (s : State) : (latchIf b f s).tal = s.tal := by
  cases b <;> rfl

/-! ### Measured slip (R112) -/

theorem referenceSpeed_of_none {g : Settings} {fsL fsR : ImageEntry} (no_front : [fsL, fsR].filter (·.quality.usable) = []) :
    referenceSpeed g fsL fsR = none := by
  simp [referenceSpeed, no_front]

theorem referenceSpeed_of_some {g : Settings} {fsL fsR : ImageEntry} (some_front : [fsL, fsR].filter (·.quality.usable) ≠ []) :
    referenceSpeed g fsL fsR = some (frontSpeed g ([fsL, fsR].filter (·.quality.usable))) :=
  if_neg (by simpa using some_front)

theorem wheelSpeed_spec {g : Settings} {ws : ImageEntry} (usable : ws.quality.usable = true) (gear : 0 < g.gearRatio) :
    ∃ v, wheelSpeed g ws = some v ∧ 0 ≤ v
      ∧ NearestTo ((ws.value.natAbs : Int) * g.wheelRadius * 12000 * piNum) (g.gearRatio * 1000000 * piDen) v := by
  have gear_pos : (0 : Int) < g.gearRatio := by exact_mod_cast gear
  have den_pos : (0 : Int) < g.gearRatio * 1000000 * piDen := mul_pos (by positivity) piDen_pos
  have num_nonneg : 0 ≤ (ws.value.natAbs : Int) * g.wheelRadius * 12000 * piNum :=
    mul_nonneg (mul_nonneg (mul_nonneg (Int.natCast_nonneg _) (Int.natCast_nonneg _)) (by decide)) piNum_pos.le
  refine ⟨_, ?_, nearest_nonneg num_nonneg den_pos, nearest_nearestTo _ den_pos⟩
  rw [wheelSpeed, if_pos usable]

theorem slipOf_none_right (x : Option Int) : slipOf x none = none := by
  cases x <;> rfl

theorem slipOf_some (r w : Int) : slipOf (some r) (some w) = some (if r < 20 then 0 else (1000 * (w - r)).tdiv r) := by
  simp only [slipOf]
  split_ifs <;> first | rfl | omega

/-! ### The slip table (R113) -/

/-- A cut of the torque factor with the state it leads to. -/
def CutTo (f : Nat) (x : Slip × Nat) (st : Slip) : Prop :=
  x.1 = st ∧ 100 ≤ x.2 ∧ (200 ≤ f → x.2 = f / 2 ∨ x.2 = (f + 1) / 2) ∧ (f < 199 → x.2 = 100)

theorem cutTo_halved (f : Nat) (st : Slip) : CutTo f (st, halved f) st := by
  refine ⟨rfl, le_max_left .., fun large => ?_, fun small => ?_⟩
  · simp only [halved]
    by_cases up : (f % 2 = 1 && Config.halfFactorUp f) = true
    · rw [if_pos up]
      have odd : f % 2 = 1 := by simpa using (Bool.and_eq_true_iff.1 up).1
      omega
    · rw [if_neg up]
      omega
  · simp only [halved]
    split_ifs with up
    · have odd : f % 2 = 1 := by simpa using (Bool.and_eq_true_iff.1 up).1
      omega
    · omega

section
variable {g : Settings} {slip tc : Int} {f : Nat}

/-- SPIN is found. -/
abbrev SpinTest (g : Settings) (slip tc : Int) : Prop := 10 * (g.slipLimit : Int) < slip ∧ 0 < tc

/-- SLIDE is found. -/
abbrev SlideTest (g : Settings) (slip tc : Int) : Prop := slip < -(10 * (g.slideLimit : Int)) ∧ tc < 0

theorem spinTest_eq (g : Settings) (slip tc : Int) :
    (decide ((g.slipLimit : Int) * 10 < slip) && decide (0 < tc)) = decide (SpinTest g slip tc) := by
  rw [← Bool.decide_and]
  exact decide_eq_decide.2 (by rw [mul_comm])

theorem slideTest_eq (g : Settings) (slip tc : Int) :
    (decide (slip < -(g.slideLimit * 10 : Int)) && decide (tc < 0)) = decide (SlideTest g slip tc) := by
  rw [← Bool.decide_and]
  exact decide_eq_decide.2 (by rw [mul_comm])

theorem slipState_of_spin (spin : SpinTest g slip tc) : slipState g slip tc .grip f = (.spin, halved f)
    ∧ slipState g slip tc .recover f = (.spin, halved f) := by
  simp only [slipState, spinTest_eq, decide_eq_true spin, if_true, and_self]

theorem slipState_of_slide (not_spin : ¬SpinTest g slip tc) (slide : SlideTest g slip tc) :
    slipState g slip tc .grip f = (.slide, halved f) ∧ slipState g slip tc .recover f = (.slide, halved f) := by
  simp only [slipState, spinTest_eq, slideTest_eq, decide_eq_false not_spin, decide_eq_true slide, if_true, Bool.false_eq_true,
    if_false, and_self]

theorem slipState_of_neither (not_spin : ¬SpinTest g slip tc) (not_slide : ¬SlideTest g slip tc) :
    slipState g slip tc .grip f = (.grip, 1000)
      ∧ slipState g slip tc .recover f = (if raised f = 1000 then .grip else .recover, raised f) := by
  simp only [slipState, spinTest_eq, slideTest_eq, decide_eq_false not_spin, decide_eq_false not_slide, Bool.false_eq_true,
    if_false, and_self]

end

/-! ### The wheel (R113 to R115) -/

theorem nextWheel_lost (g : Settings) (slip : Option Int) (tc : Int) (w : Wheel) :
    nextWheel g true slip tc w = .initial := rfl

theorem nextWheel_unmeasured (g : Settings) (tc : Int) (w : Wheel) : nextWheel g false none tc w = w := rfl

theorem nextWheel_measured (g : Settings) (x tc : Int) (w : Wheel) : nextWheel g false (some x) tc w =
    let st := (slipState g x tc w.slip w.factor).1
    let n := if st = .spin then w.spinCount + 1 else 0
    ⟨st, (slipState g x tc w.slip w.factor).2, n, st != .grip && (w.persist || decide (20 ≤ n))⟩ := rfl

theorem persistSet_of_due {w : Wheel} (spin : w.slip = .spin) (count : w.spinCount = 19) (clear : w.persist = false) :
    persistSet w = { w with spinCount := 20, persist := true } := by
  simp [persistSet, spin, count, clear]

/-- Settles O43. -/
theorem slipStatesAndPersistence : Obligations.SlipStatesAndPersistence := by
  refine ⟨⟨fun g fsL fsR ws => ?speeds, fun r w x => ⟨rfl, slipOf_none_right x, slipOf_some r w⟩,
      fun gov d p s sound => ?computed⟩,
    fun g slip tc f low high => ?table, fun g slip tc w => ⟨nextWheel_lost .., nextWheel_unmeasured .., fun x measured => ?wheel⟩,
    fun s live => ⟨fun w halted => ?halted, fun running spin count clear => ?left, fun running spin count clear => ?right⟩⟩
  case speeds =>
    intro front near
    refine ⟨fun no_front => referenceSpeed_of_none no_front, fun some_front => ?_, fun lost => if_neg (by simp [lost]),
      fun usable gear => wheelSpeed_spec usable gear⟩
    obtain ⟨speed, nonneg⟩ := frontSpeed_spec g some_front
    exact ⟨_, referenceSpeed_of_some some_front, nonneg, speed⟩
  case computed =>
    intro t g entry posted ref slipL slipR
    have tal := congrArg State.tal (computeTal_of_sound sound gov d p)
    rw [latchIf_tal] at tal
    have read : ∀ o : Posted, o.read = posted o := Posted.read_eq
    refine ⟨congrArg Tal.refLost tal, ?_, ?_, talStages gov d p s, congrArg Tal.staged tal, rfl, rfl⟩
    · refine (congrArg Tal.wheelL tal).trans ?_
      rw [← read]
      rfl
    · refine (congrArg Tal.wheelR tal).trans ?_
      rw [← read]
      rfl
  case table =>
    intro spin slide cut back
    refine ⟨fun spins => ?_, fun not_spin slides => ?_, fun not_spin not_slide => ?_, fun low => ?_, fun high => ?_,
      fun high => ?_, fun low => ?_⟩
    · obtain ⟨grip, recover⟩ := slipState_of_spin (f := f) spins
      rw [grip, recover]
      exact ⟨cutTo_halved .., cutTo_halved ..⟩
    · obtain ⟨grip, recover⟩ := slipState_of_slide (f := f) not_spin slides
      rw [grip, recover]
      exact ⟨cutTo_halved .., cutTo_halved ..⟩
    · obtain ⟨grip, recover⟩ := slipState_of_neither (f := f) not_spin not_slide
      rw [grip, recover]
      refine ⟨rfl, rfl, ?_⟩
      have full : raised f = 1000 ↔ 950 ≤ f := by
        unfold raised
        omega
      simp only [full]
    · rw [slipState, if_pos (by omega)]
      exact ⟨rfl, rfl⟩
    · rw [slipState, if_neg (by omega)]
      exact cutTo_halved ..
    · rw [slipState, if_pos (by omega)]
      exact ⟨rfl, rfl⟩
    · rw [slipState, if_neg (by omega)]
      exact cutTo_halved ..
  case wheel =>
    intro n
    have value : n = _ := (congrArg (nextWheel g false · tc w) measured).trans (nextWheel_measured g x tc w)
    rw [value]
    generalize slipState g x tc w.slip w.factor = y
    refine ⟨rfl, fun grip => ?_, fun not_grip persist => ?_, fun not_grip clear => ?_⟩
    · simp_all
    · simp_all
    · by_cases spin : y.1 = .spin <;> simp_all
  case halted =>
    exact (live_of_run (slipPersistSet w) live).trans (congrArg _ (if_pos halted))
  case left =>
    refine (live_of_run (slipPersistSet .left) live).trans ?_
    simp only [slipPersistSet, if_neg running, persistSet_of_due spin count clear]
  case right =>
    refine (live_of_run (slipPersistSet .right) live).trans ?_
    simp only [slipPersistSet, if_neg running, persistSet_of_due spin count clear]

end Sys2Proof.Machine
end

section
/-! SUPPORT. The command of a wheel: its step, its bounds, and the way from the demand to its target (R105 to R111). -/

namespace Sys2Proof.Machine

/-! ### The step toward the target (R110) -/

/-- The move of at most a step toward the target. -/
def movedToward (last target step : Int) : Int := if last < target then min target (last + step) else max target (last - step)

/-- A move that would cross 0 stops there. -/
def stoppedAtZero (last moved : Int) : Int := if (0 < last ∧ moved < 0) ∨ (last < 0 ∧ 0 < moved) then 0 else moved

theorem slewStep_eq (last target step : Int) : slewStep last target step = stoppedAtZero last (movedToward last target step) := rfl

theorem clamp_eq {lo hi : Int} (le : lo ≤ hi) (x : Int) : clamp lo hi x = max lo (min hi x) := by
  unfold clamp
  omega

theorem commandOf_eq (gov : Gov) (coast : Bool) (last target step : Int) {ceiling : Int} (nonneg : 0 ≤ ceiling) :
    commandOf gov coast last target ceiling step =
      if gov = .standby ∨ (gov = .safeHold ∧ 0 < slewStep last target step) ∨ coast = true then 0
      else max (-ceiling) (min ceiling (slewStep last target step)) := by
  rw [commandOf, clamp_eq (by omega)]

section
variable (last target : Int) {step : Int} (pos : 0 < step)
include pos

/-- A step moves toward the target, stays on its side of 0, and is at most the step. -/
theorem slewStep_bounds :
    slewStep last target step ≤ last + step ∧ last - step ≤ slewStep last target step
      ∧ (0 < last → 0 ≤ slewStep last target step) ∧ (last < 0 → slewStep last target step ≤ 0)
      ∧ (last < target → last < slewStep last target step ∧ slewStep last target step ≤ max target 0)
      ∧ (target < last → slewStep last target step < last ∧ min target 0 ≤ slewStep last target step)
      ∧ (0 ≤ last → last < target → slewStep last target step ≤ target)
      ∧ (last = target → slewStep last target step = target) := by
  rw [slewStep_eq, stoppedAtZero, movedToward]
  split_ifs <;> omega

end

/-! ### The command within its ceiling -/

section
variable {gov : Gov} {coast : Bool} (last target : Int) {ceiling step : Int} (nonneg : 0 ≤ ceiling) (pos : 0 < step)
include nonneg

theorem commandOf_at_zero (held : gov = .standby ∨ coast = true) : commandOf gov coast last target ceiling step = 0 := by
  rw [commandOf_eq _ _ _ _ _ nonneg, if_pos (held.imp_right .inr)]

theorem commandOf_safeHold : commandOf .safeHold false last target ceiling step =
    if 0 < slewStep last target step then 0 else max (-ceiling) (min ceiling (slewStep last target step)) := by
  rw [commandOf_eq _ _ _ _ _ nonneg]
  simp

theorem commandOf_drive : commandOf .drive false last target ceiling step =
    max (-ceiling) (min ceiling (slewStep last target step)) := by
  rw [commandOf_eq _ _ _ _ _ nonneg]
  simp

theorem commandOf_safeHold_nonpos (coast : Bool) : commandOf .safeHold coast last target ceiling step ≤ 0 := by
  cases coast with
  | true => exact (commandOf_at_zero last target nonneg (.inr rfl)).le
  | false =>
    rw [commandOf_safeHold last target nonneg]
    split_ifs <;> omega

/-- The command is 0 or the step within the ceiling. -/
theorem commandOf_cases (gov : Gov) (coast : Bool) : commandOf gov coast last target ceiling step = 0
    ∨ commandOf gov coast last target ceiling step = max (-ceiling) (min ceiling (slewStep last target step)) := by
  rw [commandOf_eq _ _ _ _ _ nonneg]
  split_ifs
  · exact .inl rfl
  · exact .inr rfl

end

/-! ### From the demand to the target (R105 to R109) -/

theorem nextTravel_eq (rest : Bool) (d tr : Dir) :
    nextTravel rest d tr = (if d = tr ∨ rest = true then d else tr, decide (d ≠ tr ∧ rest = false)) := by
  unfold nextTravel
  by_cases same : d = tr
  · simp [same]
  · cases rest <;> simp [same]

theorem propelRequest_eq (gov : Gov) (d : Demand) (tr : Dir) (pend : Bool) (rreq limit : Int) (v : Derived) :
    propelRequest gov d tr pend rreq limit v =
      (if gov = .drive ∧ pend = false ∧ tr ≠ .neutral ∧ d.brakeApplied = false ∧ rreq ≤ 0 ∧ v.quality.usable = true
        ∧ v.value < limit then (d.propel : Int) else 0) := by
  unfold propelRequest
  by_cases asks : gov = .drive ∧ pend = false ∧ tr ≠ .neutral ∧ d.brakeApplied = false ∧ rreq ≤ 0
      ∧ v.quality.usable = true ∧ v.value < limit
  · obtain ⟨drive, still, dir, brake, retard, usable, below⟩ := asks
    rw [if_pos (show gov = .drive ∧ _ from ⟨drive, still, dir, brake, retard, usable, below⟩)]
    refine if_neg ?_
    simp only [not_or]
    exact ⟨by simp [drive], by simp [still], dir, by simp [brake], by omega, by simp [usable], by omega⟩
  · rw [if_neg asks, if_pos]
    by_contra none_bars
    simp only [not_or, not_lt, not_le, Decidable.not_not, Bool.not_eq_true, Bool.not_eq_false'] at none_bars
    obtain ⟨drive, still, dir, brake, retard, usable, below⟩ := none_bars
    exact asks ⟨drive, still, dir, brake, retard, usable, below⟩

theorem baseTorque_eq (gov : Gov) (rreq p : Int) :
    baseTorque gov rreq p = (if gov = .halted ∨ gov = .standby then 0 else if 0 < rreq then -rreq else p) := by
  cases gov <;> simp [baseTorque]

theorem yawSplit_eq (base y : Int) (out : Bool) : yawSplit base y out =
    (base * (if (out = true ∧ 0 < base) ∨ (out = false ∧ base ≤ 0) then 1000 + (y.natAbs : Int)
      else 1000 - (y.natAbs : Int))).tdiv 1000 := by
  unfold yawSplit
  by_cases effort : 0 < base
  · cases out <;> simp [effort, not_le.2 effort]
  · cases out <;> simp [effort, not_lt.1 effort]

theorem targetOf_eq (base factor : Int) {propel retard : Int} (p : 0 ≤ propel) (r : 0 ≤ retard) :
    targetOf base propel retard factor =
      ((if 0 < base then min base propel else max base (-retard)) * factor).tdiv 1000 := by
  have bounded : clamp (-retard) propel base = if 0 < base then min base propel else max base (-retard) := by
    unfold clamp
    omega
  rw [targetOf, bounded]

/-- The command of a wheel, with the limits it uses. -/
theorem wheelCommand_left (gov : Gov) (g : Settings) (p : EpuPosting) (base y last : Int) (w : Wheel) :
    let retard := if p.inverterFaultR then p.env.retardL / 2 else p.env.retardL
    let target := targetOf (yawSplit base y (decide (0 < y))) p.env.propelL retard w.factor
    wheelCommand gov g p true base y last w = commandOf gov p.inverterFaultL last target
      (ceilingOf target p.env.propelL retard w.factor) (10 * g.torqueSlew) := by
  have outer : (outerLeft y == true) = decide (0 < y) := by simp [outerLeft]
  simp only [wheelCommand, wheelLimits, outer, if_true, mul_comm (10 : Int)]

theorem wheelCommand_right (gov : Gov) (g : Settings) (p : EpuPosting) (base y last : Int) (w : Wheel) :
    let retard := if p.inverterFaultL then p.env.retardR / 2 else p.env.retardR
    let target := targetOf (yawSplit base y (decide (y ≤ 0))) p.env.propelR retard w.factor
    wheelCommand gov g p false base y last w = commandOf gov p.inverterFaultR last target
      (ceilingOf target p.env.propelR retard w.factor) (10 * g.torqueSlew) := by
  have outer : (outerLeft y == false) = decide (y ≤ 0) := by
    by_cases right : 0 < y
    · simp [outerLeft, right]
    · simp [outerLeft, right, Int.not_lt.1 right]
  simp only [wheelCommand, wheelLimits, outer, Bool.false_eq_true, if_false, mul_comm (10 : Int)]

theorem talPropelRetard_eq (gov : Gov) (d : Demand) (s : State) : talPropelRetard gov d s =
    decide (gov = .drive ∧ 0 < d.propel ∧ 0 < s.out.rreq.read) := by
  rw [talPropelRetard, Bool.decide_and, Bool.decide_and, Bool.and_assoc]

/-- Settles O44. -/
theorem wheelCommandIsBounded : Obligations.WheelCommandIsBounded := by
  refine ⟨fun gov coast last target ceiling step nonneg pos => ?command,
    ⟨nextTravel_eq, propelRequest_eq, baseTorque_eq, yawSplit_eq, fun base propel retard factor p r => targetOf_eq base factor p r,
      fun target propel retard factor => rfl,
      fun gov g p base y last w => ⟨wheelCommand_left .., wheelCommand_right ..⟩, fun gov d p s sound => ?computed⟩,
    fun gov d p s sound => ?conditions⟩
  case command =>
    intro c moved x
    have value : c = if gov = .standby ∨ (gov = .safeHold ∧ 0 < x) ∨ coast = true then 0 else max (-ceiling) (min ceiling x) :=
      commandOf_eq gov coast last target step nonneg
    obtain ⟨rise, fall, stays_up, stays_down, toward_up, toward_down, within, reached⟩ := slewStep_bounds last target pos
    have step_eq : slewStep last target step = x := rfl
    rw [step_eq] at rise fall stays_up stays_down toward_up toward_down within reached
    have either : c = 0 ∨ c = max (-ceiling) (min ceiling x) := commandOf_cases last target nonneg gov coast
    have in_drive : gov = .drive → coast = false → c = max (-ceiling) (min ceiling x) := by
      rintro rfl rfl
      exact commandOf_drive last target nonneg
    have in_safeHold : gov = .safeHold → coast = false → c = if 0 < x then 0 else max (-ceiling) (min ceiling x) := by
      rintro rfl rfl
      exact commandOf_safeHold last target nonneg
    refine ⟨value, by omega, by omega, fun held => ?_, fun safeHold => ?_, fun up room => by omega, fun down room => by omega,
      fun up => by omega, fun down => by omega, fun drive free up room => ?_, fun governing free down room => ?_,
      fun drive free room high below => ?_, fun drive free room low above => ?_, fun drive free low high at_target => ?_⟩
    · exact commandOf_at_zero last target nonneg held
    · subst safeHold
      exact commandOf_safeHold_nonpos last target nonneg coast
    · have := in_drive drive free
      omega
    · obtain drive | safeHold := governing
      · have := in_drive drive free
        omega
      · have := in_safeHold safeHold free
        split_ifs at this <;> omega
    · have := in_drive drive free
      omega
    · have := in_drive drive free
      omega
    · have := in_drive drive free
      omega
  case computed =>
    intro t posted tr rreq base
    have value := computeTal_of_sound sound gov d p
    have tal := congrArg State.tal value
    rw [latchIf_tal] at tal
    have out : t.out = s.out := by
      refine (congrArg State.out value).trans ?_
      simp
    have read : ∀ o : Posted, o.read = posted o := Posted.read_eq
    have base_eq : base = talBase gov d p s := by
      simp only [base, rreq, ← read]
      rfl
    have wheelL : t.tal.wheelL = talWheelL s := congrArg Tal.wheelL tal
    have wheelR : t.tal.wheelR = talWheelR s := congrArg Tal.wheelR tal
    refine ⟨congrArg Tal.travel tal, congrArg Tal.dirPending tal, out, talStages gov d p s, congrArg Tal.staged tal, rfl, ?_, ?_,
      rfl, rfl⟩
    · rw [wheelL, base_eq, ← read, ← read]
      rfl
    · rw [wheelR, base_eq, ← read, ← read]
      rfl
  case conditions =>
    intro t rreq present
    have value := computeTal_of_sound sound gov d p
    have tal := congrArg State.tal value
    rw [latchIf_tal] at tal
    have here : talPropelRetard gov d s = present := by
      rw [talPropelRetard_eq, Posted.read_eq]
    have tal_eq : t.tal = _ := tal
    refine ⟨(congrArg Tal.propelRetard tal).trans here, ?_, ?_, ?_⟩
    · rw [tal_eq, ← here]
      exact value.trans (latchIf_eq ..)
    · rw [tal_eq]
    · rw [tal_eq]
      rfl

end Sys2Proof.Machine
end

section
/-! SUPPORT. Descent hold: when it engages and goes OFF, its output, and its counts between ENGAGED and SHORT (R123 to R125). -/

namespace Sys2Proof.Machine

/-! ### The causes (R123) -/

theorem holdOffCause_iff (gov : Gov) (d : Demand) :
    holdOffCause gov d = true ↔ d.hold = 0 ∨ 0 < d.propel ∨ (gov ≠ .drive ∧ gov ≠ .safeHold) := by
  simp [holdOffCause, or_assoc]

theorem holdEngageCause_iff (gov : Gov) (d : Demand) (v : Derived) : holdEngageCause gov d v = true ↔
    d.hold ≠ 0 ∧ gov = .drive ∧ d.dir ≠ .neutral ∧ d.propel = 0 ∧ v.quality.usable = true ∧ 30 ≤ v.value := by
  simp [holdEngageCause, and_assoc]

/-! ### The output and the counts (R124, R125) -/

/-- The hold output of an integrator, in 0.1 %. -/
def holdSum (ff e i : Int) : Int := max 0 (min 100000 (100 * ff + 1000 * e + i)) / 100

/-- The integrator as it moves in ENGAGED. -/
def integMoved (g : Settings) (e i : Int) : Int := max (-20000) (min 20000 (i + e * g.framePeriod / 5))

theorem holdSum_bounds (ff e i : Int) : 0 ≤ holdSum ff e i ∧ holdSum ff e i ≤ 1000 := by
  unfold holdSum
  omega

theorem integMoved_bounds (g : Settings) (e i : Int) : -20000 ≤ integMoved g e i ∧ integMoved g e i ≤ 20000 := by
  unfold integMoved
  omega

section
variable (g : Settings) (ff : Int) (d : Demand) (v : Derived) {r : Rgv}

theorem holdOutput_of_engaged (engaged : r.hold = .engaged) : holdOutput g ff d v r = { r with
    integ := integMoved g (v.value - (d.hold : Int)) r.integ
    holdOut := holdSum ff (v.value - (d.hold : Int)) (integMoved g (v.value - (d.hold : Int)) r.integ) } := by
  rw [holdOutput]
  simp only [if_pos engaged, clamp_eq (show (-20000 : Int) ≤ 20000 by decide), clamp_eq (show (0 : Int) ≤ 100000 by decide),
    holdSum, integMoved, mul_comm ff, mul_comm (v.value - (d.hold : Int)) 1000]

theorem holdOutput_of_short (short : r.hold = .short) : holdOutput g ff d v r = { r with
    holdOut := holdSum ff (v.value - (d.hold : Int)) r.integ } := by
  have not_engaged : r.hold ≠ .engaged := by simp [short]
  rw [holdOutput]
  simp only [if_neg not_engaged, clamp_eq (show (0 : Int) ≤ 100000 by decide), holdSum, mul_comm ff,
    mul_comm (v.value - (d.hold : Int)) 1000]

end

section
variable (cap : Int) (d : Demand) (v : Derived) {r : Rgv}

/-- The output asks for more than there is, well above the set speed. -/
abbrev HoldAbove (cap : Int) (d : Demand) (v : Derived) (r : Rgv) : Prop :=
  cap < r.holdOut ∧ (d.hold : Int) + 30 < v.value

theorem holdCounts_of_engaged (engaged : r.hold = .engaged) : holdCounts cap d v r =
    if HoldAbove cap d v r then
      if 9 ≤ r.shortCount then { r with hold := .short, shortCount := 0 } else { r with shortCount := r.shortCount + 1 }
    else { r with shortCount := 0 } := by
  rw [holdCounts, engaged]

theorem holdCounts_of_short (short : r.hold = .short) : holdCounts cap d v r =
    if r.holdOut ≤ cap then
      if 9 ≤ r.engageCount then { r with hold := .engaged, engageCount := 0 }
      else { r with engageCount := r.engageCount + 1 }
    else { r with engageCount := 0 } := by
  rw [holdCounts, short]

theorem holdCounts_of_off (off : r.hold = .off) : holdCounts cap d v r = r := by
  rw [holdCounts, off]

/-- The counts keep the integrator and the output, and a hold that is not OFF. -/
theorem holdCounts_keeps (r : Rgv) : (holdCounts cap d v r).integ = r.integ ∧ (holdCounts cap d v r).holdOut = r.holdOut
    ∧ ((holdCounts cap d v r).hold = .off ↔ r.hold = .off) := by
  cases hold : r.hold with
  | off => simp [holdCounts_of_off cap d v hold, hold]
  | engaged =>
    rw [holdCounts_of_engaged cap d v hold]
    split_ifs <;> simp [hold]
  | short =>
    rw [holdCounts_of_short cap d v hold]
    split_ifs <;> simp [hold]

end

/-! ### A computation of the hold (R123 to R125) -/

section
variable {gov : Gov} (g : Settings) (ff cap : Int) {d : Demand} {v : Derived} {r : Rgv}

theorem nextHold_goes_off (held : r.hold ≠ .off) (cause : holdOffCause gov d = true) :
    nextHold gov g ff cap d v r = holdOff r := by
  simp [nextHold, holdMode, held, cause, holdOff]

theorem nextHold_stays_off (off : r.hold = .off) (no_cause : ¬ holdEngageCause gov d v = true) :
    nextHold gov g ff cap d v r = { r with holdOut := 0 } := by
  simp [nextHold, holdMode, off, no_cause]

theorem nextHold_engages (off : r.hold = .off) (cause : holdEngageCause gov d v = true) :
    nextHold gov g ff cap d v r = holdCounts cap d v { r with
      hold := .engaged, shortCount := 0, engageCount := 0, integ := integMoved g (v.value - (d.hold : Int)) 0
      holdOut := holdSum ff (v.value - (d.hold : Int)) (integMoved g (v.value - (d.hold : Int)) 0) } := by
  have usable : v.quality.usable = true := ((holdEngageCause_iff gov d v).1 cause).2.2.2.2.1
  have engaged := holdOutput_of_engaged g ff d v (r := { holdOff r with hold := .engaged }) rfl
  simp only [nextHold, holdMode, off, cause, usable, if_true, engaged]
  simp [holdOff]

theorem nextHold_keeps (held : r.hold ≠ .off) (no_cause : ¬ holdOffCause gov d = true) (lost : v.quality.usable = false) :
    nextHold gov g ff cap d v r = r := by
  simp [nextHold, holdMode, held, no_cause, lost]

theorem nextHold_goes_on (held : r.hold ≠ .off) (no_cause : ¬ holdOffCause gov d = true) (usable : v.quality.usable = true) :
    nextHold gov g ff cap d v r = holdCounts cap d v (holdOutput g ff d v r) := by
  simp [nextHold, holdMode, held, no_cause, usable]

theorem nextHold_of_engaged (engaged : r.hold = .engaged) (no_cause : ¬ holdOffCause gov d = true)
    (usable : v.quality.usable = true) : nextHold gov g ff cap d v r = holdCounts cap d v { r with
      integ := integMoved g (v.value - (d.hold : Int)) r.integ
      holdOut := holdSum ff (v.value - (d.hold : Int)) (integMoved g (v.value - (d.hold : Int)) r.integ) } := by
  rw [nextHold_goes_on g ff cap (by simp [engaged]) no_cause usable, holdOutput_of_engaged g ff d v engaged]

theorem nextHold_of_short (short : r.hold = .short) (no_cause : ¬ holdOffCause gov d = true)
    (usable : v.quality.usable = true) : nextHold gov g ff cap d v r = holdCounts cap d v { r with
      holdOut := holdSum ff (v.value - (d.hold : Int)) r.integ } := by
  rw [nextHold_goes_on g ff cap (by simp [short]) no_cause usable, holdOutput_of_short g ff d v short]

theorem nextHold_off_of_cause (held : r.hold ≠ .off) (cause : holdOffCause gov d = true) :
    (nextHold gov g ff cap d v r).hold = .off := by
  rw [nextHold_goes_off g ff cap held cause]
  rfl

/-- A hold that is not OFF after a computation with VSPD usable has an output within 0 to 100 %. -/
theorem nextHold_holdOut_bounds (on : (nextHold gov g ff cap d v r).hold ≠ .off) (usable : v.quality.usable = true) :
    0 ≤ (nextHold gov g ff cap d v r).holdOut ∧ (nextHold gov g ff cap d v r).holdOut ≤ 1000 := by
  by_cases off : r.hold = .off
  · by_cases cause : holdEngageCause gov d v = true
    · rw [nextHold_engages g ff cap off cause, (holdCounts_keeps ..).2.1]
      exact holdSum_bounds ..
    · rw [nextHold_stays_off g ff cap off cause] at on
      exact absurd off on
  · by_cases cause : holdOffCause gov d = true
    · exact absurd (nextHold_off_of_cause g ff cap off cause) on
    · cases hold : r.hold with
      | off => exact absurd hold off
      | engaged =>
        rw [nextHold_of_engaged g ff cap hold cause usable, (holdCounts_keeps ..).2.1]
        exact holdSum_bounds ..
      | short =>
        rw [nextHold_of_short g ff cap hold cause usable, (holdCounts_keeps ..).2.1]
        exact holdSum_bounds ..

end

/-- Settles O46. -/
theorem descentHoldEngagesAndGoesOff : Obligations.DescentHoldEngagesAndGoesOff := by
  refine ⟨fun gov g ff cap d v r => ?states, fun gov g ff cap d v r usable => ?outputs⟩
  case states =>
    intro n off engage
    have off_iff : holdOffCause gov d = true ↔ off := holdOffCause_iff gov d
    have engage_iff : holdEngageCause gov d v = true ↔ engage := holdEngageCause_iff gov d v
    refine ⟨fun held goes => ?_, fun is_off stays => ?_, fun is_off engages => ?_, fun held goes_on lost => ?_,
      fun short goes_on => ?_, fun on usable => nextHold_holdOut_bounds g ff cap on usable, fun engaged goes_on usable => ?_⟩
    · have value : n = holdOff r := nextHold_goes_off g ff cap held (off_iff.2 goes)
      rw [value]
      exact ⟨rfl, rfl, rfl, rfl, rfl⟩
    · have value : n = { r with holdOut := 0 } := nextHold_stays_off g ff cap is_off (mt engage_iff.1 stays)
      rw [value]
      exact ⟨is_off, rfl⟩
    · have value : n = _ := nextHold_engages g ff cap is_off (engage_iff.2 engages)
      rw [value, holdCounts_of_engaged cap d v rfl]
      split_ifs <;> simp_all
    · exact nextHold_keeps g ff cap held (mt off_iff.1 goes_on) lost
    · by_cases usable : v.quality.usable = true
      · have value : n = _ := nextHold_of_short g ff cap short (mt off_iff.1 goes_on) usable
        rw [value, (holdCounts_keeps ..).1]
      · have value : n = r := nextHold_keeps g ff cap (by simp [short]) (mt off_iff.1 goes_on) (by simpa using usable)
        rw [value]
    · have value : n = _ := nextHold_of_engaged g ff cap engaged (mt off_iff.1 goes_on) usable
      rw [value, (holdCounts_keeps ..).1]
      exact integMoved_bounds ..
  case outputs =>
    intro n e sum
    refine ⟨fun engaged on => ?_, fun short on => ?_, fun off on => ?_⟩
    · have no_cause : ¬ holdOffCause gov d = true := fun cause =>
        on (nextHold_off_of_cause g ff cap (by simp [engaged]) cause)
      have value : n = _ := nextHold_of_engaged g ff cap engaged no_cause usable
      obtain ⟨integ, out, -⟩ := holdCounts_keeps cap d v { r with
        integ := integMoved g e r.integ, holdOut := holdSum ff e (integMoved g e r.integ) }
      rw [value, integ, out]
      exact ⟨rfl, rfl⟩
    · have no_cause : ¬ holdOffCause gov d = true := fun cause =>
        on (nextHold_off_of_cause g ff cap (by simp [short]) cause)
      have value : n = _ := nextHold_of_short g ff cap short no_cause usable
      obtain ⟨integ, out, -⟩ := holdCounts_keeps cap d v { r with holdOut := holdSum ff e r.integ }
      rw [value, integ, out]
      exact ⟨rfl, rfl⟩
    · have cause : holdEngageCause gov d v = true := by
        by_contra no_cause
        have value : n = { r with holdOut := 0 } := nextHold_stays_off g ff cap off no_cause
        rw [value] at on
        exact on off
      have value : n = _ := nextHold_engages g ff cap off cause
      obtain ⟨integ, out, -⟩ := holdCounts_keeps cap d v { r with
        hold := .engaged, shortCount := 0, engageCount := 0, integ := integMoved g e 0
        holdOut := holdSum ff e (integMoved g e 0) }
      have start : integMoved g e 0 = max (-20000) (min 20000 (e * g.framePeriod / 5)) := by
        rw [integMoved, zero_add]
      rw [value, integ, out, ← start]
      exact ⟨rfl, rfl⟩

/-! ### RETARD_SHORT (R125) -/

theorem standing_latch_other {f f' : Flag} (other : f ≠ f') (s : State) : standing f (latch f' s) = standing f s := by
  rw [standing_eq_getLsbD, standing_eq_getLsbD]
  have one_bit : f'.mask = BitVec.twoPow 16 f'.bit := by cases f' <;> rfl
  have apart : f.bit ≠ f'.bit := by
    intro same
    refine other ?_
    cases f <;> cases f' <;> first | rfl | exact absurd same (by decide)
  simp [one_bit, BitVec.getLsbD_twoPow, Ne.symm apart]

theorem readImage_retardShort (id : Nat) (s : State) :
    standing .retardShort (readImage id s).2 = standing .retardShort s := by
  unfold readImage
  split
  · rfl
  · split
    · rfl
    · exact standing_latch_other (by decide) _
    · rename_i p _ _ _ _
      have noted := standing_latch_other (f := .retardShort) (f' := .integUncorrectable) (by decide)
      cases p.val.quality != .bad
      · exact noted _
      · exact (standing_latch_other (by decide) _).trans (noted _)

theorem notify_retardShort (n : Notice) (s : State) : standing .retardShort (notify n s) = standing .retardShort s := by
  unfold notify
  split
  · split
    · rfl
    · exact (standing_latch_other (by decide) _)
  · rfl

theorem gridAbort_retardShort (c : ProcCause) (s : State) :
    standing .retardShort (gridAbort c s) = standing .retardShort s := by
  cases run : s.rgv.check.run with
  | none => rw [gridAbort_of_idle run]
  | some r =>
    rw [gridAbort_of_run run, notify_retardShort]
    simp [standing]

theorem gridAbort_hold (c : ProcCause) (s : State) : (gridAbort c s).rgv.hold = s.rgv.hold := (gridAbort_run c s).2.1

/-- A computation latches RETARD_SHORT when the hold enters SHORT, and only then. -/
theorem computeRgv_retardShort (gov : Gov) (d : Demand) (p : EpuPosting) (s : State) :
    standing .retardShort (computeRgv gov d p s) =
      (standing .retardShort s || ((computeRgv gov d p s).rgv.hold == .short && s.rgv.hold != .short)) := by
  have still : standing .retardShort (if atRest s then s else gridAbort .moved s) = standing .retardShort s
      ∧ (if atRest s then s else gridAbort .moved s).rgv.hold = s.rgv.hold := by
    split
    · exact ⟨rfl, rfl⟩
    · exact ⟨gridAbort_retardShort .., gridAbort_hold ..⟩
  have keeps : ∀ id u, standing .retardShort u = standing .retardShort s ∧ u.rgv.hold = s.rgv.hold →
      standing .retardShort (readImage id u).2 = standing .retardShort s ∧ (readImage id u).2.rgv.hold = s.rgv.hold := by
    rintro id u ⟨flag, hold⟩
    obtain ⟨-, -, -, -, -, -, rgv, -⟩ := (readImage_reads id u).frame
    exact ⟨(readImage_retardShort id u).trans flag, by rw [rgv, hold]⟩
  obtain ⟨i, u, ⟨flag, hold⟩, value⟩ := computeRgv_form
    (P := fun u => standing .retardShort u = standing .retardShort s ∧ u.rgv.hold = s.rgv.hold) keeps gov d p still
  have held : (rgvNext gov d p i u).hold = (rgvHeld gov d p i u).hold := rfl
  rw [value, rgvComputed_rgv, held, rgvComputed, ← flag, ← hold]
  cases (rgvHeld gov d p i u).hold == .short && u.rgv.hold != .short with
  | true =>
    rw [Bool.or_true]
    exact standing_latch ..
  | false =>
    rw [Bool.or_false]
    rfl

/-- Settles O47. -/
theorem holdShortComesAndGoesAtTen : Obligations.HoldShortComesAndGoesAtTen := by
  refine ⟨fun cap d v r => ?counts, fun s live => ?events, fun gov g ff cap d v r usable => ?computation,
    computeRgv_retardShort⟩
  case counts =>
    intro n above
    refine ⟨fun engaged is_above count => ?_, fun engaged is_above count => ?_, fun engaged not_above => ?_,
      fun short enough count => ?_, fun short enough count => ?_, fun short lacking => ?_⟩
    · exact (holdCounts_of_engaged cap d v engaged).trans ((if_pos is_above).trans (if_neg (by omega)))
    · exact (holdCounts_of_engaged cap d v engaged).trans ((if_pos is_above).trans (if_pos (by omega)))
    · exact (holdCounts_of_engaged cap d v engaged).trans (if_neg not_above)
    · exact (holdCounts_of_short cap d v short).trans ((if_pos enough).trans (if_neg (by omega)))
    · exact (holdCounts_of_short cap d v short).trans ((if_pos enough).trans (if_pos (by omega)))
    · exact (holdCounts_of_short cap d v short).trans (if_neg (by omega))
  case events =>
    refine ⟨fun halted => ⟨?_, ?_⟩, fun running engaged count => ?_, fun running short count => ?_⟩
    · refine (live_of_run holdShortEntry live).trans ?_
      simp [holdShortEntry, halted]
    · refine (live_of_run holdShortExit live).trans ?_
      simp [holdShortExit, halted]
    · refine (live_of_run holdShortEntry live).trans ?_
      simp [holdShortEntry, running, engaged, count, latch]
    · refine (live_of_run holdShortExit live).trans ?_
      simp [holdShortExit, running, short, count]
  case computation =>
    intro off engage e moved sum
    have off_iff : holdOffCause gov d = true ↔ off := holdOffCause_iff gov d
    refine ⟨fun engaged goes_on => nextHold_of_engaged g ff cap engaged (mt off_iff.1 goes_on) usable,
      fun short goes_on => nextHold_of_short g ff cap short (mt off_iff.1 goes_on) usable, fun is_off engages => ?_⟩
    obtain ⟨hold, drive, dir, propel, fast⟩ := engages
    exact nextHold_engages g ff cap is_off ((holdEngageCause_iff gov d v).2 ⟨hold, drive, dir, propel, usable, fast⟩)

end Sys2Proof.Machine
end

section
/-! SUPPORT. The retard request, the grid budget, and the computation of the retard governor from a sound image (R121 to R134). -/

namespace Sys2Proof.Machine

/-! ### The retard request (R122) -/

theorem retardRequest_of_governing {gov : Gov} (governing : gov = .drive ∨ gov = .safeHold) (d : Demand) (ff limit cap : Int)
    (v : Derived) (r : Rgv) : retardRequest gov d ff limit cap v r =
      min cap (max (max (d.retard : Int) r.holdOut) (max (limitHold gov ff limit v) r.rtrOut)) := by
  obtain rfl | rfl := governing <;> rfl

theorem retardRequest_of_resting {gov : Gov} (resting : gov = .halted ∨ gov = .standby) (d : Demand) (ff limit cap : Int)
    (v : Derived) (r : Rgv) : retardRequest gov d ff limit cap v r = 0 := by
  obtain rfl | rfl := resting <;> rfl

/-! ### Energy, capacity, ceilings (R131 to R134) -/

theorem nextEnergy_eq (g : Settings) (p c e : Int) {emax : Int} (nonneg : 0 ≤ emax) :
    nextEnergy g p c e emax = max 0 (min emax (e + energyStep g p c)) := clamp_eq nonneg _

/-- A step of the energy lies within 0.001 MJ of the change. -/
theorem energyStep_near (g : Settings) (p c : Int) :
    (p - c) * g.framePeriod - 1000 < 1000 * energyStep g p c ∧ 1000 * energyStep g p c < (p - c) * g.framePeriod + 1000 := by
  unfold energyStep
  dsimp only
  generalize (p - c) * (g.framePeriod : Int) = x
  split_ifs <;> omega

theorem rcapOf_nonneg (use : Bool) {c e emax : Int} (cool : 0 ≤ c) (below : e ≤ emax) : 0 ≤ rcapOf use c e emax := by
  cases use with
  | false => exact Int.le_refl 0
  | true =>
    show 0 ≤ c + (emax - e) / 60
    omega

theorem ceilingDuty_eq (use : Bool) (k rcap : Int) : ceilingDuty use k rcap =
    if use = false ∨ rcap = 0 then 0 else max 0 (min 100 (Int.fdiv (100 * k) rcap)) := by
  rw [ceilingDuty, clamp_eq (by decide)]
  cases use <;> by_cases zero : rcap = 0 <;> simp [zero]

theorem ceilingDuty_bounds (use : Bool) (k rcap : Int) : 0 ≤ ceilingDuty use k rcap ∧ ceilingDuty use k rcap ≤ 100 := by
  rw [ceilingDuty_eq]
  split_ifs <;> omega

/-- A share of a capacity above 0 is at most its quotient. -/
theorem ceilingDuty_mul_le (use : Bool) {k rcap : Int} (k_nonneg : 0 ≤ k) (pos : 0 < rcap) :
    ceilingDuty use k rcap * rcap ≤ 100 * k := by
  have floor : 100 * k / rcap * rcap ≤ 100 * k := Int.ediv_mul_le _ pos.ne'
  have quotient_nonneg : 0 ≤ 100 * k / rcap := Int.ediv_nonneg (by omega) pos.le
  rw [ceilingDuty_eq, Int.fdiv_eq_ediv_of_nonneg _ pos.le]
  split_ifs
  · omega
  · refine (Int.mul_le_mul_of_nonneg_right ?_ pos.le).trans floor
    omega

/-- The ceilings of two grids share 100 %. -/
theorem ceilingDuty_add_le (useA useB : Bool) {kA kB : Int} (a : 0 ≤ kA) (b : 0 ≤ kB) :
    ceilingDuty useA kA (kA + kB) + ceilingDuty useB kB (kA + kB) ≤ 100 := by
  obtain zero | pos := (add_nonneg a b).eq_or_lt
  · rw [ceilingDuty_eq, ceilingDuty_eq, if_pos (.inr zero.symm), if_pos (.inr zero.symm)]
    decide
  · have share_a := ceilingDuty_mul_le useA a pos
    have share_b := ceilingDuty_mul_le useB b pos
    have scaled : (ceilingDuty useA kA (kA + kB) + ceilingDuty useB kB (kA + kB)) * (kA + kB) ≤ 100 * (kA + kB) := by
      rw [add_mul]
      omega
    exact le_of_mul_le_mul_right scaled pos

theorem blowerOf_eq (p e emax : Int) : blowerOf p e emax = (if 20 * emax < 100 * e ∨ 0 < p then 100 else 30) := by
  have same : emax < 5 * e ↔ 20 * emax < 100 * e := by omega
  simp only [blowerOf, same]

theorem blowerOf_full {p e emax : Int} (full : 20 * emax < 100 * e) : blowerOf p e emax = 100 := by
  rw [blowerOf_eq, if_pos (.inl full)]

theorem blowerOf_cases (p e emax : Int) : blowerOf p e emax = 100 ∨ blowerOf p e emax = 30 := by
  unfold blowerOf
  split_ifs
  · exact .inl rfl
  · exact .inr rfl

theorem emaxOf_eq (g : Settings) (good : Nat) : emaxOf g good = 1000 * (g.gridEmax : Int) * good / 8 := by
  have eight : 1000 * (g.gridEmax : Int) * good = 8 * (125 * g.gridEmax * good) := by ring
  rw [eight, Int.mul_ediv_cancel_left _ (by decide), emaxOf]

/-! ### Torque, power, feed-forward (R121, R124) -/

/-- The speed of the speed factor. -/
def factorSpeed (g : Settings) (v : Derived) : Int :=
  if v.quality.usable = false ∨ 10 * (g.baseSpeed : Int) < max 10 v.value then 10 * g.baseSpeed else max 10 v.value

theorem speedFactor_eq (g : Settings) (v : Derived) : speedFactor g v = (factorSpeed g v, 10 * (g.baseSpeed : Int)) := by
  unfold speedFactor factorSpeed
  cases usable : v.quality.usable with
  | false => simp
  | true =>
    simp only [if_true, Bool.true_eq_false, false_or, Prod.mk.injEq, and_true]
    omega

theorem torqueFor_eq (g : Settings) (v : Derived) (num den : Int) : torqueFor g v num den =
    min 1000 (1000 * num * (10 * (g.baseSpeed : Int)) / (den * g.ratedRetardPower * factorSpeed g v)) := by
  simp only [torqueFor, speedFactor_eq]

theorem powerFor_eq (g : Settings) (v : Derived) (t : Int) :
    powerFor g v t = t * g.ratedRetardPower * factorSpeed g v / (1000 * (10 * (g.baseSpeed : Int))) := by
  simp only [powerFor, speedFactor_eq]

theorem downhill_of_lost {inc : ImageEntry} (lost : inc.quality.usable = false) (d : Grade) : downhill inc d = none := by
  cases d <;> simp [downhill, lost]

theorem downhill_of_usable {inc : ImageEntry} (usable : inc.quality.usable = true) :
    downhill inc .forward = some inc.value ∧ downhill inc .reverse = some (-inc.value) := by
  simp [downhill, usable]

theorem nextGrade_rows (rest : Bool) (o : Grade) : nextGrade false .forward o = o ∧ nextGrade false .reverse o = o
    ∧ nextGrade rest .neutral o = o ∧ nextGrade true .forward o = .forward ∧ nextGrade true .reverse o = .reverse := by
  cases rest <;> exact ⟨rfl, rfl, rfl, rfl, rfl⟩

/-- An output of hundredths, clamped to 0 to 100 %. -/
def pulled (ff x : Int) : Int := max 0 (min 100000 (100 * ff + x)) / 100

theorem limitHold_eq (gov : Gov) (ff limit : Int) (v : Derived) : limitHold gov ff limit v =
    if (gov = .drive ∨ gov = .safeHold) ∧ v.quality.usable = true ∧ limit < v.value then pulled ff (1000 * (v.value - limit))
    else 0 := by
  have governing : (retarding gov && v.quality.usable && decide (limit < v.value)) = true ↔
      (gov = .drive ∨ gov = .safeHold) ∧ v.quality.usable = true ∧ limit < v.value := by
    simp [retarding, and_assoc]
  simp only [limitHold, governing, clamp_eq (show (0 : Int) ≤ 1000 by decide), pulled]
  split_ifs
  · omega
  · rfl

/-! ### Retard-to-rest (R127) -/

section
variable (g : Settings) (ff : Int) (rest : Bool) (v : Derived) (r : Rgv)

theorem nextRtr_of_other {gov : Gov} (other : gov ≠ .safeHold) :
    nextRtr gov g ff rest v r = { r with rtr := none, rtrOut := 0 } := if_neg other

/-- The retard-to-rest target after a computation in SAFE-HOLD. -/
def rtrTarget : Option Int :=
  r.rtr.elim (if v.quality.usable then some (v.value * 100) else none) fun t => some (max 0 (t - g.framePeriod))

/-- The retard-to-rest output for a target. -/
def rtrOutput : Option Int → Int
  | none => 0
  | some t => if rest then 0 else if v.quality.usable then pulled ff (10 * (100 * v.value - t)) else r.rtrOut

theorem nextRtr_of_safeHold : nextRtr .safeHold g ff rest v r =
    { r with rtr := rtrTarget g v r, rtrOut := rtrOutput ff rest v r (rtrTarget g v r) } := by
  have target : rtrTarget g v r = (nextRtr .safeHold g ff rest v r).rtr := by
    unfold rtrTarget nextRtr
    cases r.rtr <;> rfl
  have out : ∀ t, rtrOutput ff rest v r t = match t with
      | none => 0
      | some t =>
        if rest then 0
        else if v.quality.usable then clamp 0 100000 (ff * 100 + (v.value * 100 - t) * 10) / 100
        else r.rtrOut := by
    intro t
    cases t with
    | none => rfl
    | some t =>
      have same : pulled ff (10 * (100 * v.value - t)) = clamp 0 100000 (ff * 100 + (v.value * 100 - t) * 10) / 100 := by
        rw [pulled, clamp_eq (by decide)]
        congr 3
        ring
      simp only [rtrOutput, same]
  rw [out, target]
  rfl

theorem nextRtr_frame (gov : Gov) : { nextRtr gov g ff rest v r with rtr := r.rtr, rtrOut := r.rtrOut } = r := by
  unfold nextRtr
  split <;> rfl

end

/-! ### What the hold and retard-to-rest leave -/

/-- Only the hold's own fields may differ. -/
def HoldOnly (t r : Rgv) : Prop :=
  t.grade = r.grade ∧ t.rtr = r.rtr ∧ t.rtrOut = r.rtrOut ∧ t.gridA = r.gridA ∧ t.gridB = r.gridB ∧ t.check = r.check

theorem HoldOnly.trans {u t r : Rgv} (h : HoldOnly u t) (h' : HoldOnly t r) : HoldOnly u r := by
  simp only [HoldOnly] at h h' ⊢
  simp only [h, h', and_self]

theorem holdMode_only (gov : Gov) (d : Demand) (v : Derived) (r : Rgv) : HoldOnly (holdMode gov d v r) r := by
  unfold holdMode
  split_ifs <;> exact ⟨rfl, rfl, rfl, rfl, rfl, rfl⟩

theorem holdOutput_only (g : Settings) (ff : Int) (d : Demand) (v : Derived) (r : Rgv) :
    HoldOnly (holdOutput g ff d v r) r := ⟨rfl, rfl, rfl, rfl, rfl, rfl⟩

theorem holdCounts_only (cap : Int) (d : Demand) (v : Derived) (r : Rgv) : HoldOnly (holdCounts cap d v r) r := by
  unfold holdCounts
  (repeat' split) <;> exact ⟨rfl, rfl, rfl, rfl, rfl, rfl⟩

theorem nextHold_only (gov : Gov) (g : Settings) (ff cap : Int) (d : Demand) (v : Derived) (r : Rgv) :
    HoldOnly (nextHold gov g ff cap d v r) r := by
  unfold nextHold
  dsimp only
  split
  · exact holdMode_only ..
  · exact (holdCounts_only ..).trans ((holdOutput_only ..).trans (holdMode_only ..))

/-! ### What the hold and retard-to-rest do not read -/

theorem holdMode_check (gov : Gov) (d : Demand) (v : Derived) (r : Rgv) (c : GridCheck) :
    holdMode gov d v { r with check := c } = { holdMode gov d v r with check := c } := by
  unfold holdMode
  dsimp only
  split_ifs <;> rfl

theorem holdCounts_check (cap : Int) (d : Demand) (v : Derived) (r : Rgv) (c : GridCheck) :
    holdCounts cap d v { r with check := c } = { holdCounts cap d v r with check := c } := by
  obtain hold | hold | hold : r.hold = .off ∨ r.hold = .engaged ∨ r.hold = .short := by cases r.hold <;> simp
  · rw [holdCounts_of_off cap d v hold, holdCounts_of_off cap d v (r := { r with check := c }) hold]
  · rw [holdCounts_of_engaged cap d v hold, holdCounts_of_engaged cap d v (r := { r with check := c }) hold]
    split_ifs <;> rfl
  · rw [holdCounts_of_short cap d v hold, holdCounts_of_short cap d v (r := { r with check := c }) hold]
    split_ifs <;> rfl

theorem nextHold_check (gov : Gov) (g : Settings) (ff cap : Int) (d : Demand) (v : Derived) (r : Rgv) (c : GridCheck) :
    nextHold gov g ff cap d v { r with check := c } = { nextHold gov g ff cap d v r with check := c } := by
  unfold nextHold
  rw [holdMode_check]
  dsimp only
  split_ifs
  · rfl
  · exact holdCounts_check cap d v (holdOutput g ff d v (holdMode gov d v r)) c

theorem nextRtr_check (gov : Gov) (g : Settings) (ff : Int) (rest : Bool) (v : Derived) (r : Rgv) (c : GridCheck) :
    nextRtr gov g ff rest v { r with check := c } = { nextRtr gov g ff rest v r with check := c } := by
  by_cases held : gov = .safeHold
  · subst held
    rw [nextRtr_of_safeHold, nextRtr_of_safeHold]
    rfl
  · rw [nextRtr_of_other _ _ _ _ _ held, nextRtr_of_other _ _ _ _ _ held]

/-! ### The computation from a sound image (R120) -/

/-- What a computation reads of a sound image. -/
def rgvInOf (s : State) : RgvIn :=
  ⟨s.entry 15, s.entry 16, s.entry 17, s.entry 22, s.entry 23, s.entry 32, s.entry 33, s.entry 34⟩

/-- What a computation meets once a grid check not at rest is aborted: the check alone, of what it reads, can differ. -/
structure CheckOnly (u s : State) : Prop where
  sgs : u.sgs = s.sgs
  out : u.out = s.out
  force : u.hli.force = s.hli.force
  frameNo : u.slc.frameNo = s.slc.frameNo
  acq : u.slc.acq = s.slc.acq
  posting : u.slc.posting = s.slc.posting
  rgv : u.rgv = { s.rgv with check := u.rgv.check }

theorem gridAbort_checkOnly (c : ProcCause) (s : State) : CheckOnly (gridAbort c s) s := by
  have computes := gridAbort_computes c s
  obtain ⟨⟨-, -, out, sgs, -⟩, -, -, -, acq, -, -, -, -, -, -, -, -, -, -, -, posting⟩ := gridAbort_frame c s
  refine ⟨sgs, out, computes.stands.force, computes.stands.frameNo, acq, posting, ?_⟩
  cases run : s.rgv.check.run with
  | none => rw [gridAbort_of_idle run]
  | some r => rw [gridAbort_rgv run]

/-- The state that a computation meets. -/
abbrev metAtRest (s : State) : State := if atRest s then s else gridAbort .moved s

theorem metAtRest_checkOnly (s : State) : CheckOnly (metAtRest s) s := by
  unfold metAtRest
  split
  · exact ⟨rfl, rfl, rfl, rfl, rfl, rfl, rfl⟩
  · exact gridAbort_checkOnly ..

theorem computeRgv_of_sound {s : State} (sound : SoundImage s) (gov : Gov) (d : Demand) (p : EpuPosting) :
    computeRgv gov d p s = rgvComputed gov d p (rgvInOf s) (metAtRest s) := by
  have met := metAtRest_checkOnly s
  have sound' : SoundImage (metAtRest s) := by
    rw [SoundImage, met.sgs]
    exact sound
  have entries : rgvInOf s = rgvInOf (metAtRest s) := by
    simp only [rgvInOf, State.entry, met.sgs]
  rw [entries]
  unfold computeRgv
  simp only [readImage_sound sound']
  rfl

section
variable {u s : State} (met : CheckOnly u s) (gov : Gov) (d : Demand) (p : EpuPosting) (i : RgvIn)
include met

theorem CheckOnly.chopperPosted (sig : Nat) : chopperPosted sig u = chopperPosted sig s := by
  simp only [Machine.chopperPosted, boundAddr, met.acq, met.posting]

theorem CheckOnly.atRest : atRest u = atRest s := by
  simp only [Machine.atRest, met.sgs, met.force]

theorem CheckOnly.grids : u.rgv.gridA = s.rgv.gridA ∧ u.rgv.gridB = s.rgv.gridB ∧ u.rgv.grade = s.rgv.grade := by
  rw [met.rgv]
  exact ⟨rfl, rfl, rfl⟩

theorem CheckOnly.energy : rgvEnergyA i u = rgvEnergyA i s ∧ rgvEnergyB i u = rgvEnergyB i s := by
  obtain ⟨gridA, gridB, -⟩ := met.grids
  simp only [rgvEnergyA, rgvEnergyB, rgvPower, rgvCooling, met.force, met.sgs, met.out, gridA, gridB, and_self]

theorem CheckOnly.use : rgvUseA p u = rgvUseA p s ∧ rgvUseB p u = rgvUseB p s := by
  obtain ⟨gridA, gridB, -⟩ := met.grids
  simp only [rgvUseA, rgvUseB, met.chopperPosted, gridA, gridB, and_self]

theorem CheckOnly.cap : rgvCapA p i u = rgvCapA p i s ∧ rgvCapB p i u = rgvCapB p i s := by
  obtain ⟨gridA, gridB, -⟩ := met.grids
  obtain ⟨useA, useB⟩ := met.use p
  obtain ⟨energyA, energyB⟩ := met.energy i
  simp only [rgvCapA, rgvCapB, rgvCooling, met.force, gridA, gridB, useA, useB, energyA, energyB, and_self]

theorem CheckOnly.terms : rgvTorque p i u = rgvTorque p i s ∧ rgvGrade d u = rgvGrade d s
    ∧ rgvForward d p i u = rgvForward d p i s := by
  obtain ⟨-, -, grade⟩ := met.grids
  obtain ⟨capA, capB⟩ := met.cap p i
  have grades : rgvGrade d u = rgvGrade d s := by rw [rgvGrade, met.atRest, grade, rgvGrade]
  refine ⟨?_, grades, ?_⟩
  · rw [rgvTorque, rgvTorque, met.force, met.sgs, capA, capB]
  · rw [rgvForward, rgvForward, met.force, met.sgs, grades]

theorem CheckOnly.held : rgvHeld gov d p i u = { rgvHeld gov d p i s with check := u.rgv.check } := by
  obtain ⟨torque, grade, forward⟩ := met.terms d p i
  have start : ({ u.rgv with grade := rgvGrade d s } : Rgv) = { { s.rgv with grade := rgvGrade d s } with
      check := u.rgv.check } := by
    rw [met.rgv]
  rw [rgvHeld, torque, grade, forward, met.force, met.sgs, met.atRest, start, nextHold_check, nextRtr_check]
  rfl

theorem CheckOnly.stages : rgvStages gov d p i u = rgvStages gov d p i s := by
  obtain ⟨torque, -, forward⟩ := met.terms d p i
  obtain ⟨gridA, gridB, -⟩ := met.grids
  obtain ⟨capA, capB⟩ := met.cap p i
  obtain ⟨useA, useB⟩ := met.use p
  obtain ⟨energyA, energyB⟩ := met.energy i
  have request : retardRequest gov d (rgvForward d p i s) p.env.speedLimit (rgvTorque p i s) s.sgs.vspd (rgvHeld gov d p i u)
      = retardRequest gov d (rgvForward d p i s) p.env.speedLimit (rgvTorque p i s) s.sgs.vspd (rgvHeld gov d p i s) := by
    rw [met.held]
    rfl
  simp only [rgvStages, torque, forward, request, capA, capB, useA, useB, energyA, energyB, met.frameNo, met.sgs, met.force,
    met.out, gridA, gridB, rgvPower]

end

end Sys2Proof.Machine
end

section
/-! PROOF. The retard request and the grid budget (chapter 7). -/

namespace Sys2Proof.Machine

/-! ### The density ratio (R129) -/

theorem densityRatio_of_lost {p t : ImageEntry} (lost : p.quality.usable = false ∨ t.quality.usable = false) :
    densityRatio p t = 60 := by
  obtain lost | lost := lost <;> simp [densityRatio, lost]

theorem densityRatio_bounds (p t : ImageEntry) : 40 ≤ densityRatio p t ∧ densityRatio p t ≤ 120 := by
  unfold densityRatio
  dsimp only
  split_ifs
  · exact clamp_bounds (by decide) _
  · exact clamp_bounds (by decide) _
  · decide

/-- The density ratio is a whole number nearest to its quotient, within its limits. -/
theorem densityRatio_near {p t : ImageEntry} (usable_p : p.quality.usable = true) (usable_t : t.quality.usable = true)
    (nonzero : t.value + 2730 ≠ 0) : ∃ n : Int,
      2 * (n * (1013 * (t.value + 2730)) - p.value * 293000).natAbs ≤ (1013 * (t.value + 2730)).natAbs
        ∧ densityRatio p t = max 40 (min 120 n) := by
  unfold densityRatio
  simp only [usable_p, usable_t, Bool.and_self, if_true, if_neg nonzero, clamp_eq (show (40 : Int) ≤ 120 by decide)]
  refine ⟨_, ?_, rfl⟩
  generalize t.value + 2730 = k at nonzero ⊢
  obtain ⟨low, high⟩ := roundNearest_near .densityRatio (p.value * 293000 * k.sign)
    (show (0 : Int) < 1013 * k.natAbs by omega)
  generalize roundNearest .densityRatio (p.value * 293000 * k.sign) (1013 * k.natAbs) = n at low high ⊢
  have product : n * (1013 * k) = 1013 * (k * n) := by ring
  obtain neg | pos := nonzero.lt_or_gt
  · rw [Int.sign_eq_neg_one_of_neg neg, Int.ofNat_natAbs_of_nonpos neg.le] at low high
    have product' : 1013 * -k * n = -(1013 * (k * n)) := by ring
    omega
  · rw [Int.sign_eq_one_of_pos pos, Int.natAbs_of_nonneg pos.le] at low high
    have product' : 1013 * k * n = 1013 * (k * n) := by ring
    omega

/-! ### The computation, from the state at its start -/

theorem rgvHeld_frame (gov : Gov) (d : Demand) (p : EpuPosting) (i : RgvIn) (u : State) :
    (rgvHeld gov d p i u).gridA = u.rgv.gridA ∧ (rgvHeld gov d p i u).gridB = u.rgv.gridB
      ∧ (rgvHeld gov d p i u).grade = rgvGrade d u := by
  have rtr := nextRtr_frame u.hli.force (rgvForward d p i u) (atRest u) u.sgs.vspd
    (nextHold gov u.hli.force (rgvForward d p i u) (rgvTorque p i u) d u.sgs.vspd { u.rgv with grade := rgvGrade d u }) gov
  obtain ⟨grade, -, -, gridA, gridB, -⟩ := nextHold_only gov u.hli.force (rgvForward d p i u) (rgvTorque p i u) d u.sgs.vspd
    { u.rgv with grade := rgvGrade d u }
  exact ⟨(congrArg Rgv.gridA rtr).trans gridA, (congrArg Rgv.gridB rtr).trans gridB,
    (congrArg Rgv.grade rtr).trans grade⟩

theorem computeRgv_rgv {s : State} (sound : SoundImage s) (gov : Gov) (d : Demand) (p : EpuPosting) :
    (computeRgv gov d p s).rgv =
      { rgvNext gov d p (rgvInOf s) s with check := (metAtRest s).rgv.check } := by
  have met := metAtRest_checkOnly s
  obtain ⟨energyA, energyB⟩ := met.energy (rgvInOf s)
  obtain ⟨gridA, gridB, -⟩ := met.grids
  rw [computeRgv_of_sound sound, rgvComputed_rgv]
  unfold rgvNext
  rw [met.held, met.stages, energyA, energyB, gridA, gridB, met.force]

/-- The check, after a computation: aborted unless the truck is at rest. -/
theorem metAtRest_check (s : State) : (atRest s = true → (metAtRest s).rgv.check = s.rgv.check)
    ∧ ∀ r, atRest s = false → s.rgv.check.run = some r → (metAtRest s).rgv.check.run = none
      ∧ (metAtRest s).rgv.check.last = ⟨.aborted, .moved, r.grids, r.start, s.slc.frameNo, r.results.length, none⟩ := by
  refine ⟨fun rest => ?_, fun r moving run => ?_⟩
  · rw [metAtRest, if_pos rest]
  · rw [metAtRest, if_neg (by simp [moving]), gridAbort_rgv run]
    exact ⟨rfl, rfl⟩

theorem staged_blowers (gov : Gov) (d : Demand) (p : EpuPosting) (s : State) :
    ∃ g, (computeRgv gov d p s).rgv.staged = some g
      ∧ (20 * (computeRgv gov d p s).rgv.gridA.emax < 100 * (computeRgv gov d p s).rgv.gridA.energy → g.bfA = 100)
      ∧ (20 * (computeRgv gov d p s).rgv.gridB.emax < 100 * (computeRgv gov d p s).rgv.gridB.energy → g.bfB = 100)
      ∧ (g.bfA = 100 ∨ g.bfA = 30) ∧ (g.bfB = 100 ∨ g.bfB = 30) := by
  obtain ⟨i, u, -, value⟩ := computeRgv_form (P := fun _ => True) (fun _ _ _ => trivial) gov d p (s := s) trivial
  rw [value, rgvComputed_rgv]
  exact ⟨_, rfl, blowerOf_full, blowerOf_full, blowerOf_cases _ _ _, blowerOf_cases _ _ _⟩

/-- Settles O48. -/
theorem retardRequestAndGridBudget : Obligations.RetardRequestAndGridBudget := by
  refine ⟨fun gov d ff limit cap v r => ⟨fun resting => retardRequest_of_resting resting .., fun governing => ?_⟩,
    ⟨fun g p c e emax nonneg => ?_, fun useA useB cA cB eA eB mA mB coolA coolB belowA belowB => ?_⟩,
    ⟨fun g p c e emax nonneg => ?_, fun _ _ _ _ => rfl, ceilingDuty_eq, fun gov d p s sound => ?_⟩,
    ⟨blowerOf_eq, fun gov d p s _ => staged_blowers gov d p s⟩,
    fun gov g p v inc ff t num den r => ?_,
    fun p t => ⟨densityRatio_of_lost, densityRatio_near, densityRatio_bounds p t⟩⟩
  · rw [retardRequest_of_governing governing]
    omega
  · rw [nextEnergy_eq g p c e nonneg]
    omega
  · obtain ⟨lowA, highA⟩ := ceilingDuty_bounds useA (rcapOf useA cA eA mA) (rcapOf useA cA eA mA + rcapOf useB cB eB mB)
    obtain ⟨lowB, highB⟩ := ceilingDuty_bounds useB (rcapOf useB cB eB mB) (rcapOf useA cA eA mA + rcapOf useB cB eB mB)
    refine ⟨?_, ?_, lowA, highA, lowB, highB,
      ceilingDuty_add_le useA useB (rcapOf_nonneg useA coolA belowA) (rcapOf_nonneg useB coolB belowB)⟩
    · rintro rfl
      exact ⟨rfl, (ceilingDuty_eq ..).trans (if_pos (.inl rfl))⟩
    · rintro rfl
      exact ⟨rfl, (ceilingDuty_eq ..).trans (if_pos (.inl rfl))⟩
  · obtain ⟨low, high⟩ := energyStep_near g p c
    exact ⟨energyStep g p c, low, high, nextEnergy_eq g p c e nonneg⟩
  · intro t g v entry posted excluded density cooling power useA useB mA mB pA pB eA eB kA kB cap grade ff h
    let i := rgvInOf s
    have posted_eq : ∀ o, o.read = posted o := Posted.read_eq
    have excluded_eq : ∀ sig, chopperPosted sig s = excluded sig := fun _ => rfl
    have useA_eq : rgvUseA p s = useA := by rw [rgvUseA, excluded_eq]
    have useB_eq : rgvUseB p s = useB := by rw [rgvUseB, excluded_eq]
    have mA_eq : emaxOf s.hli.force s.rgv.gridA.good = mA := emaxOf_eq ..
    have mB_eq : emaxOf s.hli.force s.rgv.gridB.good = mB := emaxOf_eq ..
    have pA_eq : rgvPower i s i.giA s.out.cdA = pA := by
      rw [rgvPower, dissipated, posted_eq, posted_eq]
      rfl
    have pB_eq : rgvPower i s i.giB s.out.cdB = pB := by
      rw [rgvPower, dissipated, posted_eq, posted_eq]
      rfl
    have eA_eq : rgvEnergyA i s = eA := by
      rw [rgvEnergyA, pA_eq, mA_eq]
      rfl
    have eB_eq : rgvEnergyB i s = eB := by
      rw [rgvEnergyB, pB_eq, mB_eq]
      rfl
    have kA_eq : rgvCapA p i s = kA := by
      rw [rgvCapA, useA_eq, eA_eq, mA_eq]
      rfl
    have kB_eq : rgvCapB p i s = kB := by
      rw [rgvCapB, useB_eq, eB_eq, mB_eq]
      rfl
    have cap_eq : rgvTorque p i s = cap := by rw [rgvTorque, kA_eq, kB_eq]
    have held_eq : rgvHeld gov d p i s = h := by
      rw [rgvHeld, cap_eq]
      rfl
    obtain ⟨gridA, gridB, grade_eq⟩ := rgvHeld_frame gov d p i s
    have hold_eq := congrArg Rgv.hold held_eq
    have integ_eq := congrArg Rgv.integ held_eq
    have holdOut_eq := congrArg Rgv.holdOut held_eq
    have rtr_eq := congrArg Rgv.rtr held_eq
    have rtrOut_eq := congrArg Rgv.rtrOut held_eq
    obtain ⟨kept, aborted⟩ := metAtRest_check s
    have value : t.rgv = _ := computeRgv_rgv sound gov d p
    rw [value]
    refine ⟨?_, ?_, grade_eq, hold_eq, integ_eq, holdOut_eq, rtr_eq, rtrOut_eq, ?_, kept, aborted⟩
    · show ({ (rgvHeld gov d p i s).gridA with
        energy := rgvEnergyA i s, emax := emaxOf s.hli.force s.rgv.gridA.good } : GridState) = _
      rw [gridA, eA_eq, mA_eq]
    · show ({ (rgvHeld gov d p i s).gridB with
        energy := rgvEnergyB i s, emax := emaxOf s.hli.force s.rgv.gridB.good } : GridState) = _
      rw [gridB, eB_eq, mB_eq]
    · show some (rgvStages gov d p i s) = _
      rw [rgvStages, held_eq, cap_eq, kA_eq, kB_eq, useA_eq, useB_eq, eA_eq, eB_eq, mA_eq, mB_eq, pA_eq, pB_eq,
        blowerOf_eq, blowerOf_eq]
      rfl
  · intro base speed torque gross forward pull
    refine ⟨torqueFor_eq .., powerFor_eq .., rfl, fun lost d => ?_, fun usable => ?_, nextGrade_rows, ?_, fun rest => ?_⟩
    · rw [downhill_of_lost lost]
      rfl
    · obtain ⟨ahead, back⟩ := downhill_of_usable usable
      rw [ahead, back]
      exact ⟨torqueFor_eq .., torqueFor_eq ..⟩
    · exact fun limit => limitHold_eq gov ff limit v
    · intro n
      refine ⟨nextRtr_frame g ff rest v r gov, fun other => ?_, fun held => ?_, fun held idle => ?_,
        fun target held run moving => ?_⟩
      · rw [show n = _ from nextRtr_of_other g ff rest v r other]
        exact ⟨rfl, rfl⟩
      all_goals
        subst held
        have value : n = _ := nextRtr_of_safeHold g ff rest v r
        rw [value]
      · unfold rtrTarget
        cases r.rtr with
        | none => simp only [Option.elim, mul_comm v.value]
        | some target => rfl
      · rw [value] at idle
        show rtrOutput ff rest v r (rtrTarget g v r) = 0
        obtain lost | rest := idle
        · rw [show rtrTarget g v r = none from lost]
          rfl
        · cases rtrTarget g v r with
          | none => rfl
          | some target => exact if_pos rest
      · rw [value] at run
        show rtrOutput ff rest v r (rtrTarget g v r) = _
        rw [show rtrTarget g v r = some target from run]
        exact if_neg (by simp [moving])

end Sys2Proof.Machine
end

section
/-! PROOF. A LOOP-EXCHANGE and a REINSTATE probe that complete, and the held items that join (R29, R35, R37, R56 to R58). -/

namespace Sys2Proof.Machine

/-! ### The outcome of an exchange at its station (R29, R30) -/

/-- A station once the outcome of its exchange has been applied. -/
def Station.heard (g : Settings) (o : ExOutcome) (e : Station) : Station :=
  (failKindOf o).elim (if o = .takenReady ∨ o = .takenNotReady then e.took else e) fun k => (e.fail k).judge g

theorem Station.judge_addr (g : Settings) (e : Station) : (e.judge g).addr = e.addr := by
  rw [Station.judge_eq]

theorem Station.took_addr (e : Station) : e.took.addr = e.addr := by
  unfold Station.took
  split <;> rfl

theorem updStation_addrs {a : Nat} {f : Station → Station} (keeps : ∀ e, e.addr = a → (f e).addr = a) (s : State) :
    (updStation a f s).slc.dir.map (·.addr) = s.slc.dir.map (·.addr) := by
  simp only [updStation, List.map_map]
  refine List.map_congr_left fun e _ => ?_
  by_cases here : e.addr = a <;> simp [here, keeps]

/-- The station at the exchange's address takes its outcome, and no other entry changes. -/
structure DirectoryHears (x : SlotEx) (o : ExOutcome) (t s : State) : Prop where
  addrs : t.slc.dir.map (·.addr) = s.slc.dir.map (·.addr)
  here : stationAt x.addr t = (stationAt x.addr s).map (Station.heard s.hli.force o)
  others : ∀ b, b ≠ x.addr → stationAt b t = stationAt b s

theorem DirectoryHears.of_dir {x : SlotEx} {o : ExOutcome} {u t s : State} (h : DirectoryHears x o t s)
    (dir : u.slc.dir = t.slc.dir) : DirectoryHears x o u s :=
  ⟨dir ▸ h.addrs, (stationAt_of_dir dir _).trans h.here, fun b ne => (stationAt_of_dir dir b).trans (h.others b ne)⟩

theorem updStation_hears {x : SlotEx} {o : ExOutcome} {s : State} {f : Station → Station}
    (keeps : ∀ e, e.addr = x.addr → (f e).addr = x.addr)
    (value : ∀ e, stationAt x.addr s = some e → f e = e.heard s.hli.force o) :
    DirectoryHears x o (updStation x.addr f s) s := by
  refine ⟨updStation_addrs keeps s, ?_, fun b ne => stationAt_updStation_other ne s keeps⟩
  cases station : stationAt x.addr s with
  | none => rw [updStation_of_none station, station, Option.map_none]
  | some e => rw [stationAt_updStation_same station keeps, value e station, Option.map_some]

/-- An outcome that no station takes leaves the directory. -/
theorem DirectoryHears.of_unheard {x : SlotEx} {o : ExOutcome} {s : State}
    (unheard : ∀ e, stationAt x.addr s = some e → e.heard s.hli.force o = e) : DirectoryHears x o s s := by
  refine ⟨rfl, ?_, fun _ _ => rfl⟩
  cases station : stationAt x.addr s with
  | none => rfl
  | some e => rw [Option.map_some, unheard e station]

theorem stationFailed_hears {x : SlotEx} {o : ExOutcome} {k : FailKind} (kind : failKindOf o = some k) (s : State) :
    DirectoryHears x o (stationFailed x.addr k s) s := by
  unfold stationFailed
  cases station : stationAt x.addr s with
  | none => exact .of_unheard fun e found => by simp [station] at found
  | some e =>
    have keeps : ∀ e' : Station, e'.addr = x.addr → ((e.fail k).judge s.hli.force).addr = x.addr := fun _ _ =>
      (Station.judge_addr s.hli.force (e.fail k)).trans (addr_of_stationAt station : e.addr = x.addr)
    have value : ∀ e', stationAt x.addr s = some e' → (e.fail k).judge s.hli.force = e'.heard s.hli.force o := by
      intro e' found
      obtain rfl : e = e' := Option.some.inj (station.symm.trans found)
      simp only [Station.heard, kind, Option.elim]
    obtain ⟨-, -, dir, -⟩ := (stationMoved_keeps x.addr e ((e.fail k).judge s.hli.force)
      (updStation x.addr (fun _ => (e.fail k).judge s.hli.force) s)).2
    exact (updStation_hears keeps value).of_dir dir

theorem applyDirectory_hears {x : SlotEx} (strict : x.tolerate = false) (o : ExOutcome) (s : State) :
    DirectoryHears x o (applyDirectory x o s) s := by
  have took : (o = .takenReady ∨ o = .takenNotReady) → DirectoryHears x o (updStation x.addr Station.took s) s := by
    rintro (rfl | rfl) <;>
      exact updStation_hears (fun e here => (Station.took_addr e).trans here) fun e _ => rfl
  have failed : ∀ k, failKindOf o = some k → DirectoryHears x o (stationFailed x.addr k s) s := fun k kind =>
    stationFailed_hears kind s
  cases o with
  | takenReady => exact took (.inl rfl)
  | takenNotReady => exact took (.inr rfl)
  | noReply => exact failed .noReply rfl
  | check => exact failed .check rfl
  | untaken =>
    have value : applyDirectory x .untaken s = stationFailed x.addr .untaken s := if_neg (by simp [strict])
    rw [value]
    exact failed .untaken rfl
  | excluded => exact .of_unheard fun e _ => rfl
  | loopDown => exact .of_unheard fun e _ => rfl

/-! ### The head of the queue leaves it -/

/-- The exchange took no check out: directory, flags and counters alone move. -/
def OnlyDirectory (x : SlotEx) (h : Heard) (s : State) : Prop :=
  ∃ d fl cs, heardState x h s = { s with slc.dir := d, slc.slot := none, hli.flags := fl, hli.counters := cs }

theorem heardState_hears {x : SlotEx} (strict : x.tolerate = false) (h : Heard) (s : State) :
    DirectoryHears x h.outcome (heardState x h s) s := by
  obtain ⟨cs, heard⟩ := heardState_eq x h s
  exact (applyDirectory_hears strict h.outcome s).of_dir (by rw [heard])

/-- An item that does not repeat leaves the queue, its station takes the outcome, and its claimant is told. -/
theorem complete_of_leaving_item {it : Item} {its : List Item} {x : SlotEx} {h : Heard} {s : State}
    (slot : s.slc.slot = some x) (service : x.claim = .service) (no_reset : x.afterReset = false)
    (strict : x.tolerate = false) (queue : s.slc.queue = it :: its) (held : s.slc.held = []) (only : OnlyDirectory x h s)
    (ends : itemRepeats it h = false) :
    ∃ t, SlotDone its t s ∧ DirectoryHears x h.outcome t s ∧ complete h s = endService (tellClaimant it h t) := by
  have hears := heardState_hears strict h s
  obtain ⟨d, fl, cs, heard⟩ := only
  have heard_queue : (heardState x h s).slc.queue = it :: its := by rw [heard]; exact queue
  have heard_held : (heardState x h s).slc.held = [] := by rw [heard]; exact held
  have popped := popHead_of_none_held heard_held
  refine ⟨popHead (heardState x h s), ⟨d, fl, cs, ?_⟩, hears.of_dir (by rw [popped]), ?_⟩
  · rw [popped, heard_queue, heard]
    rfl
  · rw [complete_service slot service no_reset, serviceOutcome_of_ends heard_queue ends]

/-- The phase in which the end of an item leaves a pass. -/
def phaseAfterItem (its : List Item) (s : State) : Phase :=
  if s.slc.phase = .service ∧ (its = [] ∨ s.hli.force.serviceBudget ≤ s.slc.slots) then .done else s.slc.phase

theorem endService_phase_of_free {t : State} (free : t.slc.slot = none) :
    (endService t).slc.phase = phaseAfterItem t.slc.queue t := by
  unfold endService phaseAfterItem
  by_cases empty : t.slc.queue = [] <;> simp only [free, empty, Option.isNone_none, List.isEmpty_iff, true_and] <;>
    split_ifs <;> rfl

/-- A reply of the outstanding request ends its item. -/
theorem endService_deferredReply {k : DeferKind} {tag : Byte} {its : List Item} {b : Body} {t s : State}
    (done : SlotDone its t s) (deferred : s.hli.deferred = some ⟨k, tag⟩) :
    let u := endService (deferredReplyOf k b t)
    u.slc.queue = its ∧ u.slc.slot = none ∧ u.hli.deferred = none
      ∧ u.hli.tx = s.hli.tx ++ [.reply true (replyKind k.code) tag b]
      ∧ u.slc.phase = phaseAfterItem its s ∧ u.slc.dir = t.slc.dir := by
  obtain ⟨d, fl, cs, rfl⟩ := done
  intro u
  have told := deferredReplyOf_of_kind (s := { s with
    slc.dir := d, slc.slot := none, slc.queue := its, hli.flags := fl, hli.counters := cs }) deferred b
  have value : u = endService _ := congrArg endService told
  rw [value]
  exact ⟨by simp, by simp, by simp, by simp, endService_phase_of_free rfl, by simp⟩

/-! ### What a reply can say (R24) -/

theorem heardReply_outcome {x : SlotEx} {ws : List RxWord} {h : Heard} (heard : heardReply x ws = some h) :
    h.outcome = .takenReady ∨ h.outcome = .takenNotReady ∨ h.outcome = .untaken ∨ h.outcome = .check := by
  have judged : ∃ rest, h = judgeReply x rest := by
    unfold heardReply at heard
    split at heard
    · exact absurd heard (by simp)
    · exact ⟨_, (Option.some.inj heard).symm⟩
  obtain ⟨rest, rfl⟩ := judged
  unfold judgeReply
  dsimp only
  split_ifs <;> simp [Heard.bare]

/-! ### REINSTATE probes (R35) -/

theorem kindOfCode_eq_some {n : Nat} {k : Kind} : kindOfCode n = some k ↔ n = kindCode k := by
  refine ⟨fun known => ?_, fun code => code ▸ kindOfCode_kindCode k⟩
  by_contra other
  by_cases named : ∃ k', n = kindCode k'
  · obtain ⟨k', rfl⟩ := named
    rw [kindOfCode_kindCode, Option.some.injEq] at known
    exact other (by rw [known])
  · rw [kindOfCode_eq_none fun k' code => named ⟨k', code⟩] at known
    exact absurd known (by simp)

theorem probeKindMatches_of_station {a : Nat} {s : State} {e : Station} (station : stationAt a s = some e) (data : Nat) :
    probeKindMatches a data s = true ↔ data / 4096 % 16 = kindCode e.kind := by
  rw [probeKindMatches, station]
  exact beq_iff_eq.trans kindOfCode_eq_some

/-- A probe of an EXCLUDED station, its exchange in the slot, with nothing behind it held. -/
structure ProbeInSlot (it : Item) (its : List Item) (x : SlotEx) (st : Station) (tag : Byte) (s : State) : Prop where
  slot : s.slc.slot = some x
  service : x.claim = .service
  no_reset : x.afterReset = false
  strict : x.tolerate = false
  addr : x.addr = it.addr
  queue : s.slc.queue = it :: its
  probe : it.claimant = .reinstate
  waiting : it.discard = false
  single : it.retry = none
  held : s.slc.held = []
  deferred : s.hli.deferred = some ⟨.reinstate, tag⟩
  station : stationAt it.addr s = some st
  excluded : st.state = .excluded

/-- The probe has left the queue and is answered, and its station's entry is now `st'`. -/
def ProbeEnds (it : Item) (its : List Item) (tag : Byte) (st' : Station) (data : List Byte) (t s : State) : Prop :=
  t.slc.queue = its ∧ t.slc.slot = none ∧ t.hli.deferred = none
    ∧ stationAt it.addr t = some st' ∧ (∀ b, b ≠ it.addr → stationAt b t = stationAt b s)
    ∧ t.hli.tx = s.hli.tx ++ [.reply true 0x8F tag (.done data)]

section
variable {it : Item} {its : List Item} {x : SlotEx} {st : Station} {tag : Byte} {s : State}
  (probing : ProbeInSlot it its x st tag s)
include probing

/-- The claimant's reply and entry, from the state the exchange leaves: there the station has taken its outcome. -/
theorem ProbeInSlot.told (h : Heard) : ∃ m, stationAt it.addr m = some (st.heard s.hli.force h.outcome)
    ∧ ∀ st', stationAt it.addr (probeDirectory it.addr h m) = some st' →
      ProbeEnds it its tag st' (reinstateBytes it.addr h m) (complete h s) s := by
  have only : OnlyDirectory x h s := heardState_of_staysOut fun _ e found => by
    rw [probing.addr, probing.station] at found
    exact .inl (Option.some.inj found ▸ probing.excluded)
  obtain ⟨m, done, hears, value⟩ := complete_of_leaving_item probing.slot probing.service probing.no_reset probing.strict
    probing.queue probing.held only (itemRepeats_of_single probing.single h)
  have told : tellClaimant it h m = reinstateOutcome it.addr h m := by
    rw [tellClaimant, probing.waiting, probing.probe]
    rfl
  have here := hears.here
  rw [probing.addr, probing.station, Option.map_some] at here
  have keeps : ∀ e : Station, e.addr = it.addr → (reinstateStation h.data e).addr = it.addr := fun _ same => same
  have others : ∀ b, b ≠ it.addr → stationAt b (probeDirectory it.addr h m) = stationAt b s := by
    intro b ne
    have before : stationAt b m = stationAt b s := hears.others b (probing.addr ▸ ne)
    unfold probeDirectory
    split
    · exact (stationAt_updStation_other ne m keeps).trans before
    · exact before
  have done' : SlotDone its (probeDirectory it.addr h m) s := by
    obtain ⟨d, fl, cs, rfl⟩ := done
    unfold probeDirectory
    split <;> exact ⟨_, fl, cs, rfl⟩
  refine ⟨m, here, fun st' after => ?_⟩
  obtain ⟨queue, slot, free, tx, -, dir⟩ := endService_deferredReply (b := .done (reinstateBytes it.addr h m)) done'
    probing.deferred
  rw [ProbeEnds, value, told]
  exact ⟨queue, slot, free, (stationAt_of_dir dir _).trans after, fun b ne => (stationAt_of_dir dir b).trans (others b ne),
    tx⟩

/-- An outcome that is no sound taken reply is answered with its own code. -/
theorem ProbeInSlot.complete_of_failure {h : Heard} {k : FailKind} (kind : failKindOf h.outcome = some k) :
    ProbeEnds it its tag (st.fail k) (vEnum (exOutcomeCode h.outcome)) (complete h s) s := by
  obtain ⟨m, here, ends⟩ := probing.told h
  have heard : st.heard s.hli.force h.outcome = st.fail k := by
    simp only [Station.heard, kind, Option.elim]
    exact Station.judge_of_excluded probing.excluded
  have not_taken : h.outcome ≠ .takenReady := fun taken => by simp [taken, failKindOf] at kind
  have bytes : reinstateBytes it.addr h m = vEnum (exOutcomeCode h.outcome) := by
    unfold reinstateBytes
    cases outcome : h.outcome <;> simp_all [failKindOf]
  rw [← bytes]
  refine ends _ ?_
  rw [probeDirectory, if_neg fun taken => not_taken taken.1, here, heard]

theorem ProbeInSlot.heard_of_taken {o : ExOutcome} (taken : o = .takenReady ∨ o = .takenNotReady) :
    st.heard s.hli.force o = st := by
  obtain rfl | rfl := taken <;> exact if_pos probing.excluded

theorem ProbeInSlot.complete_of_kind {h : Heard} (ready : h.outcome = .takenReady)
    (kind : h.data / 4096 % 16 = kindCode st.kind) :
    ProbeEnds it its tag { st with state := .enrolled, streak := 0, revision := h.data % 256 }
      (vEnum 7 ++ vCount (h.data % 256)) (complete h s) s := by
  obtain ⟨m, here, ends⟩ := probing.told h
  rw [ready, probing.heard_of_taken (.inl rfl)] at here
  have matching : probeKindMatches it.addr h.data m = true := (probeKindMatches_of_station here _).2 kind
  have bytes : reinstateBytes it.addr h m = vEnum 7 ++ vCount (h.data % 256) := by
    rw [reinstateBytes, ready]
    exact if_pos matching
  rw [← bytes]
  refine ends _ ?_
  rw [probeDirectory, if_pos ⟨ready, matching⟩]
  exact stationAt_updStation_same here fun _ same => same

theorem ProbeInSlot.complete_of_other_kind {h : Heard} (ready : h.outcome = .takenReady)
    (kind : h.data / 4096 % 16 ≠ kindCode st.kind) :
    ProbeEnds it its tag st (vEnum 8 ++ vEnum (h.data / 4096 % 16)) (complete h s) s := by
  obtain ⟨m, here, ends⟩ := probing.told h
  rw [ready, probing.heard_of_taken (.inl rfl)] at here
  have other : ¬ probeKindMatches it.addr h.data m = true := fun matching =>
    kind ((probeKindMatches_of_station here _).1 matching)
  have bytes : reinstateBytes it.addr h m = vEnum 8 ++ vEnum (h.data / 4096 % 16) := by
    rw [reinstateBytes, ready]
    exact if_neg other
  rw [← bytes]
  refine ends _ ?_
  rw [probeDirectory, if_neg fun matching => other matching.2, here]

theorem ProbeInSlot.complete_of_not_ready {h : Heard} (not_ready : h.outcome = .takenNotReady) :
    ProbeEnds it its tag st (vEnum 9) (complete h s) s := by
  obtain ⟨m, here, ends⟩ := probing.told h
  rw [not_ready, probing.heard_of_taken (.inr rfl)] at here
  have bytes : reinstateBytes it.addr h m = vEnum 9 := by
    rw [reinstateBytes, not_ready]
  rw [← bytes]
  refine ends _ ?_
  rw [probeDirectory, if_neg (by simp [not_ready]), here]

end

/-- Settles O32. -/
theorem serviceItemsCompleteAndJoin : Obligations.ServiceItemsCompleteAndJoin := by
  refine ⟨?exchange, ?probe, fun s live => live_of_run heldItemJoin live⟩
  case exchange =>
    intro it its x tag s live _ slot service no_reset strict queue mine waiting single held grid steer deferred ends failed
    have told : ∀ h t, tellClaimant it h t = deferredReplyOf .loopExchange (.done (exchangeBytes h)) t := fun h t => by
      rw [tellClaimant, waiting, mine]
      rfl
    have completes : ∀ h, ∀ station : Station → Station, Station.heard s.hli.force h.outcome = station →
        ends (.next (complete h s)) h station := by
      rintro h _ rfl
      have only : OnlyDirectory x h s :=
        heardState_of_no_abort grid (fun t sgv c => steerAbort_of_idle (by rw [sgv, steer]) c) x h
      obtain ⟨t, done, hears, value⟩ := complete_of_leaving_item slot service no_reset strict queue held only
        (itemRepeats_of_single single h)
      obtain ⟨queue', slot', free, tx, phase, dir⟩ := endService_deferredReply (b := .done (exchangeBytes h)) done deferred
      have hears' := hears.of_dir dir
      rw [← told] at queue' slot' free tx phase hears'
      rw [value]
      exact ⟨_, rfl, queue', slot', free, tx, phase, hears'.addrs, hears'.here, hears'.others⟩
    have end_row : exec .slotTimeout s = .next (complete ⟨.noReply, false, 0⟩ s) := exec_completes live slot (.inl ⟨rfl, rfl⟩)
    rw [end_row]
    refine ⟨completes ⟨.noReply, false, 0⟩ (failed .noReply) rfl, ?_⟩
    intro ws h heard o
    have reply_row : o = .next (complete h s) := exec_completes live slot (.inr ⟨ws, rfl, heard⟩)
    rw [reply_row]
    refine ⟨fun taken => completes h _ ?_, fun out => completes h _ ?_, fun out => completes h _ ?_, ?_⟩
    · obtain out | out := taken <;> rw [out] <;> rfl
    · rw [out]
      rfl
    · rw [out]
      rfl
    · obtain out | out | out | out := heardReply_outcome heard <;> simp [out]
  case probe =>
    intro it its x st tag s live _ _ slot service no_reset strict addr queue mine waiting single held deferred station excluded
      ends failed
    have probing : ProbeInSlot it its x st tag s := ⟨slot, service, no_reset, strict, addr, queue, mine, waiting, single, held,
      deferred, station, excluded⟩
    have end_row : exec .slotTimeout s = .next (complete ⟨.noReply, false, 0⟩ s) := exec_completes live slot (.inl ⟨rfl, rfl⟩)
    rw [end_row]
    refine ⟨⟨_, rfl, probing.complete_of_failure (h := ⟨.noReply, false, 0⟩) (k := .noReply) rfl⟩, ?_⟩
    intro ws h heard o
    have reply_row : o = .next (complete h s) := exec_completes live slot (.inr ⟨ws, rfl, heard⟩)
    rw [reply_row]
    refine ⟨fun ready kind => ⟨_, rfl, probing.complete_of_kind ready kind⟩,
      fun ready kind => ⟨_, rfl, probing.complete_of_other_kind ready kind⟩,
      fun not_ready => ⟨_, rfl, probing.complete_of_not_ready not_ready⟩, fun out => ⟨_, rfl, ?_⟩, fun out => ⟨_, rfl, ?_⟩⟩
    · have ended := probing.complete_of_failure (h := h) (k := .untaken) (by rw [out]; rfl)
      rw [out] at ended
      exact ended
    · have ended := probing.complete_of_failure (h := h) (k := .check) (by rw [out]; rfl)
      rw [out] at ended
      exact ended

end Sys2Proof.Machine
end

section
/-! PROOF. The loop leaves UP (R22, R33, R34, R54, R143, R158, R159). -/

namespace Sys2Proof.Machine

/-! ### What no step of a loop loss moves -/

/-- The loop's state, the directory, the flags that stand and EXCH_FAILED stay, and no probe begins to be held. -/
structure LossStep (t s : State) : Prop where
  loop : t.slc.loopState = s.slc.loopState
  flags : KeepsFlags t s
  dir : t.slc.dir = s.slc.dir
  failed : t.hli.counters.exchFailed = s.hli.counters.exchFailed
  held : ∀ it ∈ t.slc.held, it.claimant = .reinstate → it ∈ s.slc.held

theorem LossStep.trans {u t s : State} (h : LossStep u t) (h' : LossStep t s) : LossStep u s :=
  ⟨h.loop.trans h'.loop, h.flags.trans h'.flags, h.dir.trans h'.dir, h.failed.trans h'.failed,
    fun it mem probe => h'.held it (h.held it mem probe) probe⟩

/-- A step that moves none of these. -/
theorem LossStep.of_eq {t s : State} (slc : t.slc.loopState = s.slc.loopState ∧ t.slc.dir = s.slc.dir)
    (hli : t.hli.flags = s.hli.flags ∧ t.hli.counters = s.hli.counters)
    (held : ∀ it ∈ t.slc.held, it.claimant = .reinstate → it ∈ s.slc.held) : LossStep t s :=
  ⟨slc.1, keepsFlags_of_flags hli.1, slc.2, by rw [hli.2], held⟩

theorem LossStep.of_same {u t s : State} (h : LossStep t s) (slc : u.slc = t.slc) (hli : u.hli = t.hli) : LossStep u s :=
  LossStep.trans (.of_eq ⟨by rw [slc], by rw [slc]⟩ ⟨by rw [hli], by rw [hli]⟩ fun it mem _ => by rwa [slc] at mem) h

theorem LossStep.refl (s : State) : LossStep s s := .of_eq ⟨rfl, rfl⟩ ⟨rfl, rfl⟩ fun _ mem _ => mem

theorem PassMoves.lossStep {t s : State} (h : PassMoves t s) : LossStep t s :=
  ⟨h.loop.1, h.stands.flags, h.stands.dir, h.failed, fun it mem _ => by rwa [← h.queue.2]⟩

theorem notify_lossStep (n : Notice) (s : State) : LossStep (notify n s) s := by
  refine ⟨by simp, notify_keepsFlags n s, by simp, ?_, fun it mem _ => by simpa using mem⟩
  obtain same | queued | dropped := notify_hli n s
  · rw [same]
  · rw [queued]
  · rw [dropped]
    rfl

theorem latch_lossStep (f : Flag) (s : State) : LossStep (latch f s) s :=
  ⟨rfl, keepsFlags_of_or rfl, rfl, rfl, fun _ mem _ => mem⟩

theorem deferredReplyOf_lossStep (k : DeferKind) (b : Body) (s : State) : LossStep (deferredReplyOf k b s) s := by
  unfold deferredReplyOf deferredReply
  (repeat' split) <;> exact .of_eq ⟨rfl, rfl⟩ ⟨rfl, rfl⟩ fun _ mem _ => mem

theorem joinHeld_lossStep (s : State) : LossStep (joinHeld s) s :=
  .of_eq ⟨rfl, rfl⟩ ⟨rfl, rfl⟩ fun _ mem _ => List.mem_of_mem_drop mem

theorem popHead_lossStep (s : State) : LossStep (popHead s) s :=
  (joinHeld_lossStep { s with slc.queue := s.slc.queue.tail }).trans (.of_eq ⟨rfl, rfl⟩ ⟨rfl, rfl⟩ fun _ mem _ => mem)

theorem removeItems_lossStep (c : Claimant) (s : State) : LossStep (removeItems c s) s :=
  .of_eq ⟨rfl, rfl⟩ ⟨rfl, rfl⟩ fun _ mem _ => (List.mem_filter.1 (List.mem_of_mem_drop mem)).1

theorem joinItem_lossStep {it : Item} (other : it.claimant ≠ .reinstate) (s : State) : LossStep (joinItem it s) s := by
  unfold joinItem
  split
  · exact .of_eq ⟨rfl, rfl⟩ ⟨rfl, rfl⟩ fun _ mem _ => mem
  · refine .of_eq ⟨rfl, rfl⟩ ⟨rfl, rfl⟩ fun it' mem probe => ?_
    obtain before | last := List.mem_append.1 mem
    · exact before
    · exact absurd ((List.mem_singleton.1 last) ▸ probe) other

theorem endService_lossStep (s : State) : LossStep (endService s) s := by
  unfold endService
  split <;> exact .of_eq ⟨rfl, rfl⟩ ⟨rfl, rfl⟩ fun _ mem _ => mem

theorem gridAbort_lossStep (c : ProcCause) (s : State) : LossStep (gridAbort c s) s := by
  cases run : s.rgv.check.run with
  | none =>
    rw [gridAbort_of_idle run]
    exact .refl s
  | some r =>
    rw [gridAbort_of_run run]
    refine (notify_lossStep _ _).trans ?_
    exact ((endService_lossStep _).trans (removeItems_lossStep .gridCheck s)).of_same rfl rfl

theorem toRelease_lossStep (r : SteerRun) (p : Option (SteerOutcome × ProcCause)) (s : State) :
    LossStep (toRelease r p s) s := by
  unfold toRelease
  split
  · exact .of_eq ⟨rfl, rfl⟩ ⟨rfl, rfl⟩ fun _ mem _ => mem
  · refine (joinItem_lossStep (by simp [steerItem]) _).trans ?_
    exact (removeItems_lossStep .steerCheck s).of_same rfl rfl

theorem steerAbort_lossStep (c : ProcCause) (s : State) : LossStep (steerAbort c s) s := by
  unfold steerAbort
  split
  · exact .refl s
  · exact toRelease_lossStep ..

/-! ### The exchange in its slot (R22, R159) -/

/-- The claimants of the exchanges of the service pass, told that the loop is down. -/
theorem tellClaimant_lossStep (it : Item) (s : State) : LossStep (tellClaimant it (.bare .loopDown) s) s := by
  have released : ∀ w r, LossStep (steerReleased w r s) s := fun w r => by
    unfold steerReleased steerEnd
    (repeat' split) <;> exact (notify_lossStep _ _).trans (.of_eq ⟨rfl, rfl⟩ ⟨rfl, rfl⟩ fun _ mem _ => mem)
  have steer : LossStep (steerOutcome .loopDown s) s := by
    unfold steerOutcome
    split
    · exact .refl s
    · split
      · exact released ..
      · exact steerAbort_lossStep ..
  have grid : LossStep (gridOutcome .loopDown 0 s) s := by
    unfold gridOutcome
    split
    · exact .refl s
    · exact gridAbort_lossStep ..
  unfold tellClaimant
  split
  · exact .refl s
  · split
    · exact grid
    · exact steer
    · exact deferredReplyOf_lossStep ..
    · exact deferredReplyOf_lossStep ..

/-- Telling a claimant leaves the phase but for the end of a service pass. -/
theorem tellClaimant_phase (it : Item) {s : State} (pass : s.slc.phase = .acq ∨ s.slc.phase = .dispatch) :
    (tellClaimant it (.bare .loopDown) s).slc.phase = s.slc.phase := by
  have grid : (gridOutcome .loopDown 0 s).slc.phase = s.slc.phase := by
    unfold gridOutcome
    split
    · rfl
    · obtain same | ⟨service, -⟩ := gridAbort_phase .loopDown s
      · exact same
      · rw [service] at pass
        exact absurd pass (by simp)
  have steer : (steerOutcome .loopDown s).slc.phase = s.slc.phase := by
    unfold steerOutcome steerReleased steerEnd
    (repeat' split) <;> simp
  have probe : (reinstateOutcome it.addr (.bare .loopDown) s).slc.phase = s.slc.phase := by
    simp [reinstateOutcome, probeDirectory, Heard.bare]
  unfold tellClaimant
  split
  · rfl
  · split
    · exact grid
    · exact steer
    · simp
    · exact probe

theorem missed_phase (i : Nat) (e : AcqEntry) (c : MissCause) (s : State) : (missed i e c s).slc.phase = s.slc.phase := by
  unfold missed
  split <;> rfl

/-- What a loop loss makes of the exchange in its slot, ahead of a governor reset's values. -/
theorem loopDownSlot_of_some {x : SlotEx} {s : State} (slot : s.slc.slot = some x) :
    ∃ u, loopDownSlot s = settleReset x u ∧ LossStep u s ∧ u.slc.slot = none
      ∧ (s.slc.phase = .acq ∨ s.slc.phase = .dispatch → u.slc.phase = s.slc.phase) := by
  have emptied : LossStep { s with slc.slot := none } s := .of_eq ⟨rfl, rfl⟩ ⟨rfl, rfl⟩ fun _ mem _ => mem
  unfold loopDownSlot
  rw [slot]
  refine ⟨_, rfl, ?_⟩
  cases claim : x.claim with
  | acq i =>
    dsimp only
    split
    · rename_i r run
      have moves := missed_moves i r.e .loopDown { s with slc.slot := none, slc.run := none }
      exact ⟨moves.lossStep.trans (.of_eq ⟨rfl, rfl⟩ ⟨rfl, rfl⟩ fun _ mem _ => mem), moves.slot,
        fun _ => missed_phase i r.e .loopDown _⟩
    · exact ⟨emptied, rfl, fun _ => rfl⟩
  | dispatch i => exact ⟨.of_eq ⟨rfl, rfl⟩ ⟨rfl, rfl⟩ fun _ mem _ => mem, rfl, fun _ => rfl⟩
  | service =>
    dsimp only
    unfold finishHead
    split
    · exact ⟨emptied, rfl, fun _ => rfl⟩
    · rename_i it its queue
      refine ⟨(tellClaimant_lossStep it _).trans ((popHead_lossStep _).trans emptied), ?_, fun pass => ?_⟩
      · rw [tellClaimant_slot]
        rfl
      · exact tellClaimant_phase it pass
  | scan => exact ⟨emptied, rfl, fun _ => rfl⟩
  | probe => exact ⟨emptied, rfl, fun _ => rfl⟩
  | orphan => exact ⟨emptied, rfl, fun _ => rfl⟩

/-! ### Waiting probes, the scan and the passes (R33, R34, R54) -/

/-- No REINSTATE probe waits. -/
def NoProbes (s : State) : Prop := ∀ it ∈ s.items, it.claimant ≠ .reinstate

theorem NoProbes.of_eq {t s : State} (h : NoProbes s) (queue : t.slc.queue = s.slc.queue) (held : t.slc.held = s.slc.held) :
    NoProbes t := by
  rw [NoProbes, State.items, queue, held]
  exact h

/-- Every waiting probe leaves the queue where none is held. -/
theorem dropProbes_noProbes {s : State} (held : ∀ it ∈ s.slc.held, it.claimant ≠ .reinstate) : NoProbes (dropProbes s) := by
  unfold dropProbes
  split
  · refine NoProbes.of_eq (s := joinHeld { s with slc.queue := s.slc.queue.filter (·.claimant != .reinstate) }) ?_ (by simp)
      (by simp)
    intro it mem
    rw [State.items, joinHeld_order] at mem
    obtain queued | kept := List.mem_append.1 mem
    · simpa using (List.mem_filter.1 queued).2
    · exact held it kept
  · rename_i none_waits
    intro it mem
    obtain queued | kept := List.mem_append.1 mem
    · exact fun probe => none_waits (List.any_eq_true.2 ⟨it, queued, by simp [probe]⟩)
    · exact held it kept

theorem dropProbes_lossStep (s : State) : LossStep (dropProbes s) s := by
  unfold dropProbes
  split
  · exact (deferredReplyOf_lossStep ..).trans ((joinHeld_lossStep _).trans
      (.of_eq ⟨rfl, rfl⟩ ⟨rfl, rfl⟩ fun _ mem _ => mem))
  · exact .refl s

theorem dropProbes_keeps (s : State) : OnlySlcHli (dropProbes s) s ∧ (dropProbes s).slc.slot = s.slc.slot
    ∧ (dropProbes s).slc.phase = s.slc.phase := by
  unfold dropProbes
  split <;> simp [joinHeld]

theorem loopDownScan_lossStep (s : State) : LossStep (loopDownScan s) s := by
  unfold loopDownScan
  split
  · exact (deferredReplyOf_lossStep ..).trans (.of_eq ⟨rfl, rfl⟩ ⟨rfl, rfl⟩ fun _ mem _ => mem)
  · exact .refl s

theorem loopDownScan_keeps (s : State) : OnlySlcHli (loopDownScan s) s ∧ (loopDownScan s).slc.scan = none
    ∧ { (loopDownScan s).slc with scan := s.slc.scan } = s.slc := by
  unfold loopDownScan
  split
  · simp [scanEnd]
  · rename_i none
    exact ⟨by simp, none, rfl⟩

/-- With the loop lost a walk leaves no run. -/
theorem walk_run_of_lost {f : Func} {is : List Nat} {s : State} (lost : s.slc.loopLost = true) :
    (walk f is s).slc.run = none := by
  induction is generalizing s with
  | nil => rfl
  | cons i is ih =>
    have read := readAcq_moves i s
    unfold walk
    generalize readAcq i s = q at read ⊢
    obtain ⟨e, u⟩ := q
    dsimp only at read ⊢
    have lost_u : u.slc.loopLost = true := read.loop.2.1.trans lost
    have skipped : ∀ c, (walk f is (skipEntry i e c u)).slc.run = none := fun c =>
      ih ((skipEntry_moves i e c u).loop.2.1.trans lost_u)
    rw [if_pos lost_u]
    split_ifs
    · exact skipped _
    · exact skipped _
    · exact ih lost_u

theorem endIfOver_run (s : State) : (endIfOver s).slc.run = s.slc.run := by
  unfold endIfOver beginService
  (repeat' split) <;> rfl

theorem advance_moves (s : State) : PassMoves (advance s) s := (endIfOver_moves _).trans (walk_moves ..).1

theorem advance_run_of_lost {s : State} (lost : s.slc.loopLost = true) : (advance s).slc.run = none := by
  rw [advance, endIfOver_run, walk_run_of_lost lost]

theorem runCorrupt_moves (r : Run) (s : State) : PassMoves (runCorrupt r s) s := by
  unfold runCorrupt
  dsimp only
  split_ifs
  · exact missed_moves ..
  · exact skipEntry_moves ..
  · exact .refl s

theorem loopDownRun_moves (s : State) : PassMoves (loopDownRun s) s := by
  unfold loopDownRun
  split
  · exact .refl s
  · have dropped : PassMoves { s with slc.run := none } s := .of_pass s s.slc.delivery none s.slc.passIdx s.slc.slots s.slc.phase
    dsimp only
    split_ifs
    · exact (missed_moves ..).trans dropped
    · exact (runCorrupt_moves ..).trans dropped
    · exact (skipEntry_moves ..).trans dropped

/-- The passes once the loop is lost: nothing but where they stand, and no run is left of acquisition or dispatch. -/
theorem loopDownPasses_moves (s : State) :
    (∃ b, PassMoves (loopDownPasses s) { s with slc.loopLost := b })
      ∧ (s.slc.phase = .acq ∨ s.slc.phase = .dispatch → (loopDownPasses s).slc.run = none) := by
  have lost : (loopDownRun { s with slc.loopLost := true }).slc.loopLost = true :=
    (loopDownRun_moves { s with slc.loopLost := true }).loop.2.1
  have ended : PassMoves (advance (loopDownRun { s with slc.loopLost := true })) { s with slc.loopLost := true } :=
    (advance_moves _).trans (loopDownRun_moves _)
  unfold loopDownPasses
  split
  · rename_i idle
    exact ⟨⟨s.slc.loopLost, .refl s⟩, fun pass => by rw [idle] at pass; exact absurd pass (by simp)⟩
  · dsimp only
    split
    · exact ⟨⟨true, ended⟩, fun _ => advance_run_of_lost lost⟩
    · exact ⟨⟨true, ended⟩, fun _ => advance_run_of_lost lost⟩
    · rename_i service
      exact ⟨⟨true, .of_pass { s with slc.loopLost := true } s.slc.delivery s.slc.run s.slc.passIdx s.slc.slots
        .done⟩,
        fun pass => by rw [service] at pass; exact absurd pass (by simp)⟩
    · rename_i no_acq no_dispatch _
      exact ⟨⟨true, .refl _⟩, fun pass => pass.elim (fun h => absurd h no_acq) fun h => absurd h no_dispatch⟩

/-! ### A release in its slot (R159) -/

/-- A release that the loop takes down ends the run with the outcome pending, its release unconfirmed. -/
theorem steerOutcome_of_lost_release {r : SteerRun} {s : State} (run : s.sgv.run = some r) (release : r.phase = .release)
    {o : SteerOutcome} {c : ProcCause} (pending : r.pending = some (o, c)) (not_pass : o ≠ .pass) :
    (steerOutcome .loopDown s).sgv =
      { s.sgv with run := none, result := ⟨o, c, r.init, r.final, s.slc.frameNo, true⟩ } := by
  have ended : steerOutcome .loopDown s = steerEnd r o c true s := by
    simp [steerOutcome, run, release, steerReleased, pending, not_pass]
  rw [ended, steerEnd_sgv]

/-- The check as the loop goes down in RELEASE, its item the head of the queue with the exchange in its slot. -/
theorem loopDownSlot_of_release {r : SteerRun} {x : SlotEx} {it : Item} {its : List Item} {s : State}
    (run : s.sgv.run = some r) (release : r.phase = .release) (slot : s.slc.slot = some x) (service : x.claim = .service)
    (queue : s.slc.queue = it :: its) (mine : it.claimant = .steerCheck) (waiting : it.discard = false)
    {o : SteerOutcome} {c : ProcCause} (pending : abortPending .loopDown r.pending = some (o, c)) (not_pass : o ≠ .pass) :
    (loopDownSlot (steerAbort .loopDown s)).sgv =
      { s.sgv with run := none, result := ⟨o, c, r.init, r.final, s.slc.frameNo, true⟩ } := by
  have settled : ∀ u : State, (settleReset x u).sgv = u.sgv := fun u => by
    unfold settleReset
    split <;> rfl
  rw [steerAbort_of_run run, toRelease_of_release release, pending]
  unfold loopDownSlot
  simp only [slot, service, settled, finishHead, queue, tellClaimant, waiting, mine, Bool.false_eq_true, if_false]
  refine (steerOutcome_of_lost_release (r := { r with pending := some (o, c) }) ?_ release rfl not_pass).trans ?_ <;> rfl

/-! ### The loop leaves UP -/

/-- The loop leaves UP: the flag latched and the steering supply check aborted. -/
def lossBegun (s : State) : State := steerAbort .loopDown (latch .loopWasDown (setLoop .down s))

theorem lossBegun_keeps (s : State) :
    LossStep (lossBegun s) { s with slc.loopState := .down } ∧ standing .loopWasDown (lossBegun s) = true
      ∧ (lossBegun s).slc.slot = s.slc.slot ∧ (lossBegun s).slc.phase = s.slc.phase := by
  obtain ⟨-, -, -, -, -, -, -, phase, -, -, -, -, -, slot, -⟩ :=
    (steerAbort_frame .loopDown (latch .loopWasDown (setLoop .down s))).2
  refine ⟨(steerAbort_lossStep ..).trans ((latch_lossStep ..).trans (notify_lossStep ..)),
    steerAbort_keepsFlags _ _ _ (standing_latch ..), ?_, ?_⟩
  · rw [lossBegun, slot]
    simp [setLoop]
  · rw [lossBegun, phase]
    simp [setLoop]

/-- The directory after the exchange in its slot has ended. -/
theorem loopDownSlot_dir (s : State) :
    (s.slc.slot.any (·.afterReset) = false → (loopDownSlot s).slc.dir = s.slc.dir)
      ∧ (s.slc.slot.any (·.afterReset) = true → (loopDownSlot s).slc.dir = s.slc.dir.map (·.governorReset)) := by
  cases slot : s.slc.slot with
  | none =>
    rw [loopDownSlot, slot]
    exact ⟨fun _ => rfl, fun h => absurd h (by simp)⟩
  | some x =>
    obtain ⟨u, value, step, -⟩ := loopDownSlot_of_some slot
    rw [value, ← step.dir, settleReset]
    refine ⟨fun no_reset => ?_, fun reset => ?_⟩
    · rw [if_neg (by simpa using no_reset)]
    · rw [if_pos (by simpa using reset)]

/-- What the end of the exchange in its slot keeps, but for the directory of a governor reset. -/
theorem loopDownSlot_keeps (s : State) :
    (loopDownSlot s).slc.loopState = s.slc.loopState ∧ KeepsFlags (loopDownSlot s) s
      ∧ (loopDownSlot s).hli.counters.exchFailed = s.hli.counters.exchFailed
      ∧ (∀ it ∈ (loopDownSlot s).slc.held, it.claimant = .reinstate → it ∈ s.slc.held)
      ∧ (loopDownSlot s).slc.slot = none
      ∧ (s.slc.phase = .acq ∨ s.slc.phase = .dispatch → (loopDownSlot s).slc.phase = s.slc.phase) := by
  cases slot : s.slc.slot with
  | none =>
    rw [loopDownSlot, slot]
    exact ⟨rfl, fun _ h => h, rfl, fun _ h _ => h, slot, fun _ => rfl⟩
  | some x =>
    obtain ⟨u, value, step, empty, phase⟩ := loopDownSlot_of_some slot
    rw [value, settleReset]
    split
    · exact ⟨step.loop, (keepsFlags_of_flags rfl).trans step.flags, step.failed, step.held, empty, phase⟩
    · exact ⟨step.loop, step.flags, step.failed, step.held, empty, phase⟩

/-- The rest of a loop loss: waiting probes, the scan, the passes and the grid element check. -/
def lossEnded (s : State) : State := gridAbort .loopDown (loopDownPasses (loopDownScan (dropProbes s)))

theorem loopLoss_eq (s : State) : loopLoss s = lossEnded (loopDownSlot (lossBegun s)) := rfl

theorem lossEnded_keeps (s : State) : LossStep (lossEnded s) s ∧ (lossEnded s).slc.slot = s.slc.slot
    ∧ (lossEnded s).slc.scan = none ∧ (lossEnded s).rgv.check.run = none ∧ (lossEnded s).sgv = s.sgv
    ∧ (s.slc.phase = .acq ∨ s.slc.phase = .dispatch → (lossEnded s).slc.run = none)
    ∧ ((∀ it ∈ s.slc.held, it.claimant ≠ .reinstate) → NoProbes (lossEnded s)) := by
  obtain ⟨probes_frame, probes_slot, probes_phase⟩ := dropProbes_keeps s
  obtain ⟨scan_frame, scan_none, scan_slc⟩ := loopDownScan_keeps (dropProbes s)
  obtain ⟨⟨b, passes⟩, no_run⟩ := loopDownPasses_moves (loopDownScan (dropProbes s))
  obtain ⟨abort_frame, abort_slc⟩ := gridAbort_frame .loopDown (loopDownPasses (loopDownScan (dropProbes s)))
  have passes_step : LossStep (loopDownPasses (loopDownScan (dropProbes s))) (loopDownScan (dropProbes s)) :=
    passes.lossStep.trans (.of_eq ⟨rfl, rfl⟩ ⟨rfl, rfl⟩ fun _ mem _ => mem)
  have scan_slot := congrArg Slc.slot scan_slc
  have scan_phase := congrArg Slc.phase scan_slc
  have scan_queue := congrArg Slc.queue scan_slc
  have scan_held := congrArg Slc.held scan_slc
  have passes_slot := passes.slot
  have passes_scan := passes.loop.2.2
  have passes_frame := passes.frame
  dsimp only at scan_slot scan_phase scan_queue scan_held passes_slot passes_scan
  simp only [OnlySlcHli, OnlySlcImnHli, OnlySlcRgvHli, OnlyQueuePhase] at *
  refine ⟨(gridAbort_lossStep ..).trans (passes_step.trans ((loopDownScan_lossStep _).trans (dropProbes_lossStep s))),
    ?_, ?_, (gridAbort_run ..).1, ?_, fun pass => ?_, fun held => ?_⟩
  · simp only [lossEnded, abort_slc, passes_slot, scan_slot, probes_slot]
  · simp only [lossEnded, abort_slc, passes_scan, scan_none]
  · simp only [lossEnded, abort_frame, passes_frame, scan_frame, probes_frame]
  · simp only [lossEnded, abort_slc]
    exact no_run (by rwa [scan_phase, probes_phase])
  · have before : NoProbes (loopDownPasses (loopDownScan (dropProbes s))) :=
      (dropProbes_noProbes held).of_eq (passes.queue.1.trans scan_queue) (passes.queue.2.trans scan_held)
    have none_before : (loopDownPasses (loopDownScan (dropProbes s))).items.filter (·.claimant == .reinstate) = [] :=
      List.filter_eq_nil_iff.2 fun it mem => by simpa using before it mem
    rw [← gridAbort_filter_other (d := .reinstate) (by simp) .loopDown] at none_before
    intro it mem
    simpa using List.filter_eq_nil_iff.1 none_before it mem

/-- Settles O31. -/
theorem loopLossSparesTheStations : Obligations.LoopLossSparesTheStations := by
  intro s live
  have row : exec .loopEdgeTimeout s = .next (edgeTimeout s) := live_of_run edgeTimeout live
  rw [row]
  refine ⟨fun down => by rw [edgeTimeout, down], fun syncing => by rw [edgeTimeout, syncing]; rfl,
    fun up held => ⟨loopLoss s, by rw [edgeTimeout, up], ?_⟩⟩
  obtain ⟨begun, flag, begun_slot, begun_phase⟩ := lossBegun_keeps s
  obtain ⟨slot_loop, slot_flags, slot_failed, slot_held, slot_none, slot_phase⟩ := loopDownSlot_keeps (lossBegun s)
  obtain ⟨dir_kept, dir_reset⟩ := loopDownSlot_dir (lossBegun s)
  obtain ⟨ended, ended_slot, ended_scan, ended_check, ended_sgv, ended_run, ended_probes⟩ :=
    lossEnded_keeps (loopDownSlot (lossBegun s))
  rw [begun_slot, begun.dir] at dir_kept dir_reset
  rw [loopLoss_eq]
  refine ⟨ended.loop.trans (slot_loop.trans begun.loop), ended.flags _ (slot_flags _ flag), ended_slot.trans slot_none,
    fun no_reset => ended.dir.trans (dir_kept no_reset), fun reset => ended.dir.trans (dir_reset reset),
    ended.failed.trans (slot_failed.trans begun.failed), ended_scan, ended_check, fun pass => ?_, fun it mem => ?_, ?_⟩
  · have pass' : (lossBegun s).slc.phase = .acq ∨ (lossBegun s).slc.phase = .dispatch := by rwa [begun_phase]
    exact ended_run (by rwa [slot_phase pass'])
  · refine ended_probes (fun it mem probe => ?_) it (List.mem_append_left _ mem)
    exact held it (begun.held it (slot_held it mem probe) probe) probe
  · intro r x it its run release slot service queue mine waiting o
    have pending : abortPending .loopDown r.pending = some o ∧ o.1 ≠ .pass := by
      simp only [o]
      rcases r.pending with _ | ⟨outcome, cause⟩
      · exact ⟨rfl, by simp⟩
      · cases outcome <;> exact ⟨rfl, by simp⟩
    have sgv := loopDownSlot_of_release (s := latch .loopWasDown (setLoop .down s)) (r := r) (x := x) (it := it) (its := its)
      (by simpa [setLoop] using run) release (by simpa [setLoop] using slot) service (by simpa [setLoop] using queue) mine
      waiting (o := o.1) (c := o.2) pending.1 pending.2
    rw [ended_sgv, lossBegun, sgv]
    exact ⟨rfl, by simp [setLoop]⟩

end Sys2Proof.Machine
end

section
/-! PROOF. HALTED to STANDBY (R4), entry to STANDBY (R2), and the validation of the acquisition table (R60, R61). -/

namespace Sys2Proof.Machine

/-! ### The checks on one entry (R60) -/

/-- The source kind of a signal of the catalog, input or output (R63). -/
def catalogKind (n : Nat) : Option Kind :=
  if n ∈ [1, 2, 5, 6, 7, 8, 9, 10, 11, 12, 13, 14, 40, 41, 42, 43] then some .inverter
  else if n ∈ [15, 16, 17, 18, 19, 20, 21, 22, 23, 44, 45, 46, 47] then some .chopper
  else if n ∈ [28, 29, 30, 31, 48] then some .steer
  else if n ∈ [3, 4, 24, 25, 26, 27, 32, 33, 34] then some .sense
  else none

theorem catalogKind_eq {n : Nat} (known : (catalogKind n).isSome = true) : catalogKind n = some (sourceKind n) := by
  have small : n < 49 := by
    by_contra outside
    have absent : catalogKind n = none := by
      unfold catalogKind
      (repeat' rw [if_neg (by simp only [List.mem_cons, List.not_mem_nil, or_false]; omega)])
    simp [absent] at known
  have all : ∀ n < 49, (catalogKind n).isSome = true → catalogKind n = some (sourceKind n) := by decide
  exact all n small known

theorem reservedChannel_iff (k : Kind) (ch : Nat) :
    reservedChannel k ch = true ↔ k = .chopper ∧ (ch = 5 ∨ ch = 6) ∨ k = .steer ∧ ch = 6 := by
  cases k <;> simp [reservedChannel]

/-- The first check that fails on an entry whose signal the catalog gives the kind `k` (R60). -/
theorem entryFailure_eq {e : AcqEntry} {s : State} (known : catalogKind e.signal = some (sourceKind e.signal)) :
    entryFailure e s =
      if (entryAddrs e).all (fun a => (stationAt a s).isNone) then some .stationUnknown
      else if (entryAddrs e).all (fun a => (stationAt a s).all (·.state == .excluded)) then some .stationExcluded
      else if (entryAddrs e).any (fun a => (stationAt a s).any (fun st => some st.kind != catalogKind e.signal)) then
        some .kindMismatch
      else if catalogKind e.signal = some .chopper ∧ (e.channel = 5 ∨ e.channel = 6)
          ∨ catalogKind e.signal = some .steer ∧ e.channel = 6 then some .reservedChannel
      else if e.corrupt then some .corruptEntry
      else none := by
  have unknown : (((entryAddrs e).filterMap (stationAt · s)).isEmpty = true) =
      ((entryAddrs e).all (fun a => (stationAt a s).isNone) = true) := by
    simp [List.isEmpty_iff, List.filterMap_eq_nil_iff]
  have excluded : (((entryAddrs e).filterMap (stationAt · s)).all (·.state == .excluded) = true) =
      ((entryAddrs e).all (fun a => (stationAt a s).all (·.state == .excluded)) = true) := by
    rw [List.all_filterMap]
    rfl
  have mismatch : (((entryAddrs e).filterMap (stationAt · s)).any (fun st => st.kind != sourceKind e.signal) = true) =
      ((entryAddrs e).any (fun a => (stationAt a s).any (fun st => some st.kind != catalogKind e.signal)) = true) := by
    rw [List.any_filterMap, known]
    rfl
  have reserved : (reservedChannel (sourceKind e.signal) e.channel = true) =
      (catalogKind e.signal = some .chopper ∧ (e.channel = 5 ∨ e.channel = 6)
        ∨ catalogKind e.signal = some .steer ∧ e.channel = 6) := by
    rw [reservedChannel_iff, known, Option.some.injEq, Option.some.injEq]
  simp only [entryFailure, unknown, excluded, mismatch, reserved]

/-! ### The validation of a table with no bit flipped -/

/-- No bit of the acquisition table is flipped. -/
def SoundAcq (s : State) : Prop := ∀ p ∈ s.slc.acq, p.flips = []

theorem readAcq_of_sound {s : State} (sound : SoundAcq s) (i : Nat) : readAcq i s = (entryAt i s, s) := by
  unfold readAcq entryAt
  cases found : s.slc.acq[i]? with
  | none => rfl
  | some p =>
    have no_flips := sound p (List.mem_of_getElem? found)
    simp only [no_flips]
    rfl

/-- The failure of the entry of an index, when it is valid. -/
def indexFailure (s : State) (i : Nat) : Option (Detail × Nat) :=
  if (entryAt i s).valid then (entryFailure (entryAt i s) s).map (·, i) else none

theorem validateEntries_of_sound {s : State} (sound : SoundAcq s) (is : List Nat) :
    validateEntries is s = (is.findSome? (indexFailure s), s) := by
  induction is with
  | nil => rfl
  | cons i is ih =>
    rw [validateEntries, readAcq_of_sound sound, List.findSome?_cons]
    dsimp only
    rw [ih, indexFailure]
    cases (entryAt i s).valid with
    | false => rfl
    | true => cases entryFailure (entryAt i s) s <;> rfl

theorem findSome?_range_eq_some {f : Nat → Option α} {b : α} {i : Nat} (found : f i = some b) (first : ∀ j < i, f j = none) :
    ∀ {n : Nat}, i < n → (List.range n).findSome? f = some b
  | n + 1, below => by
    rw [List.range_succ, List.findSome?_append]
    obtain before | rfl := Nat.lt_succ_iff_lt_or_eq.1 below
    · rw [findSome?_range_eq_some found first before]
      rfl
    · have none_before : (List.range i).findSome? f = none := by
        simpa [List.findSome?_eq_none_iff] using first
      simp [none_before, found]

theorem entryAt_of_some {s : State} {i : Nat} {p : Prot AcqEntry} (found : s.slc.acq[i]? = some p) : entryAt i s = p.val := by
  simp [entryAt, found]

/-- The first valid entry that fails ends the validation. -/
theorem validate_of_failure {s : State} (sound : SoundAcq s) (size : s.slc.acq.length = 64) {i : Nat} {e : AcqEntry}
    (found : s.slc.acq[i]? = some ⟨e, []⟩) (valid : e.valid = true) {d : Detail} (fails : entryFailure e s = some d)
    (first : ∀ j p, j < i → s.slc.acq[j]? = some p → p.val.valid = true → entryFailure p.val s = none) :
    validate s = (some (d, i), s) := by
  have below : i < 64 := by
    rw [← size]
    exact (List.getElem?_eq_some_iff.1 found).1
  have here : indexFailure s i = some (d, i) := by
    simp only [indexFailure, entryAt_of_some found, valid, if_true, fails, Option.map_some]
  have before : ∀ j < i, indexFailure s j = none := by
    intro j lt
    have inside : j < s.slc.acq.length := by omega
    have entry := List.getElem?_eq_getElem inside
    rw [indexFailure, entryAt_of_some entry]
    split_ifs with valid_j
    · rw [first j _ lt entry valid_j, Option.map_none]
    · rfl
  rw [validate, validateEntries_of_sound sound, findSome?_range_eq_some here before below]

/-- With no valid entry failing the signals and the bindings are judged. -/
theorem validate_of_sound_entries {s : State} (sound : SoundAcq s)
    (passes : ∀ p ∈ s.slc.acq, p.val.valid = true → entryFailure p.val s = none) : validate s = (signalFailure s, s) := by
  have none_fails : (List.range 64).findSome? (indexFailure s) = none := by
    rw [List.findSome?_eq_none_iff]
    intro i _
    unfold indexFailure
    cases entry : s.slc.acq[i]? with
    | none => simp [entryAt, entry, AcqEntry.empty]
    | some p =>
      rw [entryAt_of_some entry]
      split_ifs with valid
      · rw [passes p (List.mem_of_getElem? entry) valid, Option.map_none]
      · rfl
  rw [validate, validateEntries_of_sound sound, none_fails]

/-- The first binding that fails (R61). -/
theorem bindings_find (s : State) :
    ((bindings.find? (fun b => (boundAddr b.1 s == boundAddr b.2.1 s) != b.2.2)).map fun b => (Detail.binding, b.2.1)) =
      if boundAddr 40 s ≠ boundAddr 42 s then some (.binding, 42)
      else if boundAddr 41 s ≠ boundAddr 43 s then some (.binding, 43)
      else if boundAddr 44 s ≠ boundAddr 46 s then some (.binding, 46)
      else if boundAddr 45 s ≠ boundAddr 47 s then some (.binding, 47)
      else if boundAddr 40 s = boundAddr 41 s then some (.binding, 41)
      else if boundAddr 44 s = boundAddr 45 s then some (.binding, 45)
      else none := by
  have same : ∀ a b : Option Nat, ((a == b) != true) = decide (a ≠ b) := fun a b => by by_cases h : a = b <;> simp [h]
  have other : ∀ a b : Option Nat, ((a == b) != false) = decide (a = b) := fun a b => by by_cases h : a = b <;> simp [h]
  simp only [bindings, List.find?_cons, List.find?_nil, same, other]
  split_ifs with h1 h2 h3 h4 h5 h6 <;> simp_all

theorem signalFailure_of_read {s : State} {n : Nat} (missing : requiredReads.find? (fun n => !named .read n s) = some n) :
    signalFailure s = some (.missingSignal, n) := by
  rw [signalFailure, missing]

theorem signalFailure_of_write {s : State} {n : Nat} (reads : requiredReads.find? (fun n => !named .read n s) = none)
    (missing : requiredWrites.find? (fun n => !named .write n s) = some n) :
    signalFailure s = some (.missingSignal, n) := by
  rw [signalFailure, reads, missing]

theorem signalFailure_of_signals {s : State} (reads : requiredReads.find? (fun n => !named .read n s) = none)
    (writes : requiredWrites.find? (fun n => !named .write n s) = none) :
    signalFailure s =
      (bindings.find? (fun b => (boundAddr b.1 s == boundAddr b.2.1 s) != b.2.2)).map fun b => (.binding, b.2.1) := by
  rw [signalFailure, reads, writes]

/-- Settles O15. -/
theorem standbyEntryChecksThenStartsGoverning : Obligations.StandbyEntryChecksThenStartsGoverning := by
  refine ⟨?request, fun s => ?effects, ?validation⟩
  case request =>
    intro tag s can_take tag_ne halted
    have refused : ∀ c d q u, refuse 0x02 tag c d q u = u.turnedAway 0x82 tag c d q := fun c d q u => refuse_eq (by decide) ..
    have granted : ∀ u : State, done 0x02 tag [] u = u.answered 0x82 tag [] := fun u => done_eq (by decide) ..
    rw [exec_modeRequest can_take tag_ne, takeModeRequest_standby_of_halted halted]
    unfold requestStandby directOutstanding
    simp only [loopNotUp_iff, refused, granted]
    generalize validate s = q
    obtain ⟨_ | ⟨d, n⟩, t⟩ := q <;> split_ifs <;> rfl
  case effects =>
    exact ⟨rfl, rfl, rfl, rfl, rfl, rfl, rfl, rfl, rfl, rfl, rfl, rfl, rfl, rfl, rfl, rfl, rfl, rfl, rfl, rfl⟩
  case validation =>
    intro s size sound kind addrs fails reads writes a inputs outputs known
    have fails_eq : ∀ p ∈ s.slc.acq, p.val.valid = true → entryFailure p.val s = fails p.val := fun p mem valid =>
      entryFailure_eq (catalogKind_eq (known p mem valid))
    refine ⟨fun i e d found valid failing first => ?_, fun passes => ?_⟩
    · refine validate_of_failure sound size found valid ?_ fun j p lt entry valid_p => ?_
      · rw [← failing]
        exact fails_eq ⟨e, []⟩ (List.mem_of_getElem? found) valid
      · rw [fails_eq p (List.mem_of_getElem? entry) valid_p]
        exact first j p lt entry valid_p
    · rw [validate_of_sound_entries sound fun p mem valid => (fails_eq p mem valid).trans (passes p mem valid)]
      have reads_eq : inputs.find? (fun n => !reads n) = requiredReads.find? (fun n => !named .read n s) := rfl
      have writes_eq : outputs.find? (fun n => !writes n) = requiredWrites.find? (fun n => !named .write n s) := rfl
      rw [reads_eq, writes_eq]
      cases missing_read : requiredReads.find? (fun n => !named .read n s) with
      | some n => rw [signalFailure_of_read missing_read]
      | none =>
        cases missing_write : requiredWrites.find? (fun n => !named .write n s) with
        | some n => rw [signalFailure_of_write missing_read missing_write]
        | none =>
          rw [signalFailure_of_signals missing_read missing_write, bindings_find]
          rfl

end Sys2Proof.Machine
end

section
/-! SUPPORT. The reads of the four protected memories through the integrity monitor, the bits that flip of themselves, and the
writes that take a pending injection (R175 to R178, R181). -/

namespace Sys2Proof.Machine

/-! ### A read that meets an error (R176 to R178) -/

theorem flips_of_many {fs : List Nat} (many : 2 ≤ fs.length) : ∃ b c l, fs = b :: c :: l := by
  match fs, many with
  | b :: c :: l, _ => exact ⟨b, c, l, rfl⟩

section
variable {i id p w : Nat} {s : State}

theorem readAcq_of_no_flip {e : AcqEntry} (at_i : s.slc.acq[i]? = some ⟨e, []⟩) : readAcq i s = (e, s) := by
  simp [readAcq, at_i]

theorem readAcq_of_single {e : AcqEntry} {b : Nat} (at_i : s.slc.acq[i]? = some ⟨e, [b]⟩) :
    readAcq i s = (e, noteCorrected .acq i { s with slc.acq := s.slc.acq.set i ⟨e, []⟩ }) := by
  simp [readAcq, at_i]

theorem readAcq_of_many {e : AcqEntry} {fs : List Nat} (at_i : s.slc.acq[i]? = some ⟨e, fs⟩) (many : 2 ≤ fs.length) :
    readAcq i s = (acqDamaged fs e, noteUncorrectable .acq i { s with slc.acq := s.slc.acq.set i ⟨acqDamaged fs e, []⟩ }) := by
  obtain ⟨b, c, l, rfl⟩ := flips_of_many many
  simp [readAcq, at_i]

theorem readScreen_of_no_flip {e : ScreenEntry} (at_i : s.sgs.screen[i]? = some ⟨e, []⟩) : readScreen i s = (e, s) := by
  simp [readScreen, at_i]

theorem readScreen_of_single {e : ScreenEntry} {b : Nat} (at_i : s.sgs.screen[i]? = some ⟨e, [b]⟩) :
    readScreen i s = (e, noteCorrected .screen i { s with sgs.screen := s.sgs.screen.set i ⟨e, []⟩ }) := by
  simp [readScreen, at_i]

theorem readScreen_of_many {e : ScreenEntry} {fs : List Nat} (at_i : s.sgs.screen[i]? = some ⟨e, fs⟩) (many : 2 ≤ fs.length) :
    readScreen i s = (screenDamaged fs e,
      noteUncorrectable .screen i { s with sgs.screen := s.sgs.screen.set i ⟨screenDamaged fs e, []⟩ }) := by
  obtain ⟨b, c, l, rfl⟩ := flips_of_many many
  simp [readScreen, at_i]

theorem readImage_of_no_flip {e : ImageEntry} (at_id : s.sgs.image[id - 1]? = some ⟨e, []⟩) : readImage id s = (e, s) := by
  simp [readImage, at_id]

theorem readImage_of_single {e : ImageEntry} {b : Nat} (at_id : s.sgs.image[id - 1]? = some ⟨e, [b]⟩) :
    readImage id s = (e, noteCorrected .image id { s with sgs.image := s.sgs.image.set (id - 1) ⟨e, []⟩ }) := by
  simp [readImage, at_id]

theorem readImage_of_many {e : ImageEntry} {fs : List Nat} (at_id : s.sgs.image[id - 1]? = some ⟨e, fs⟩)
    (many : 2 ≤ fs.length) : readImage id s = (imageDamaged fs e, latchIf (e.quality != .bad) .signalBad
      (noteUncorrectable .image id { s with sgs.image := s.sgs.image.set (id - 1) ⟨imageDamaged fs e, []⟩ })) := by
  obtain ⟨b, c, l, rfl⟩ := flips_of_many many
  simp [readImage, at_id]

section
variable {r : RingRecord} {x : RingWord} (at_p : s.trc.ring[p]? = some r)
include at_p

theorem readRingWord_of_no_flip (at_w : r.words[w]? = some ⟨x, []⟩) : readRingWord p w s = (x, false, s) := by
  simp [readRingWord, at_p, at_w]

theorem readRingWord_of_single {b : Nat} (at_w : r.words[w]? = some ⟨x, [b]⟩) :
    readRingWord p w s = (x, false, noteCorrected .record (r.base + w)
      { s with trc.ring := s.trc.ring.set p { r with words := r.words.set w ⟨x, []⟩ } }) := by
  simp [readRingWord, at_p, at_w]

theorem readRingWord_of_many {fs : List Nat} (at_w : r.words[w]? = some ⟨x, fs⟩) (many : 2 ≤ fs.length) :
    readRingWord p w s = (x ^^^ ringMask fs, true, noteUncorrectable .record (r.base + w) s) := by
  obtain ⟨b, c, l, rfl⟩ := flips_of_many many
  simp [readRingWord, at_p, at_w]

end

end

/-! ### Bits that flip of themselves (R175) -/

/-- Bits flip one after the other: new ones join, a bit that flips twice is sound again. -/
theorem foldl_flipBit_of_new {bits : List Nat} (distinct : bits.Nodup) {fs : List Nat} (fresh : ∀ b ∈ bits, b ∉ fs) :
    bits.foldl flipBit fs = fs ++ bits := by
  induction bits generalizing fs with
  | nil => simp
  | cons b bits ih =>
    obtain ⟨head, tail⟩ := List.nodup_cons.1 distinct
    have joined : flipBit fs b = fs ++ [b] := if_neg (by simpa using fresh b (by simp))
    rw [List.foldl_cons, joined, ih tail]
    · simp
    · intro c mem
      have apart : c ≠ b := fun same => head (same ▸ mem)
      simp [fresh c (List.mem_cons_of_mem _ mem), apart]

theorem flips_eq {bits fs gs : List Nat} (h : bits.Nodup ∧ (∀ b ∈ bits, b ∉ fs) ∧ gs = fs ++ bits
    ∨ ∃ b ∈ fs, bits = [b] ∧ gs = fs.erase b) : bits.foldl flipBit fs = gs := by
  obtain ⟨distinct, fresh, rfl⟩ | ⟨b, mem, rfl, rfl⟩ := h
  · exact foldl_flipBit_of_new distinct fresh
  · exact if_pos (by simpa using mem)

theorem modify_eq_set {α : Type} {l : List α} {i : Nat} {x : α} (at_i : l[i]? = some x) (f : α → α) :
    l.modify i f = l.set i (f x) := by
  rw [List.modify_eq_set_getElem?, at_i]
  rfl

theorem modify_of_outside {α : Type} {l : List α} {i : Nat} (outside : l.length ≤ i) (f : α → α) : l.modify i f = l := by
  rw [List.modify_eq_set_getElem?, List.getElem?_eq_none outside]
  rfl

/-- A record of the ring that holds no word at the address stays. -/
theorem flipRing_of_outside {a : Nat} {r : RingRecord} (outside : a < r.base ∨ r.base + r.words.length ≤ a) (bits : List Nat) :
    flipRing a bits r = r := by
  unfold flipRing
  split
  · rw [modify_of_outside (by omega)]
  · rfl

theorem flipRing_of_word {a : Nat} {r : RingRecord} {x : Prot RingWord} (inside : r.base ≤ a)
    (at_a : r.words[a - r.base]? = some x) (bits : List Nat) :
    flipRing a bits r = { r with words := r.words.set (a - r.base) (x.flip bits) } := by
  rw [flipRing, if_pos inside, modify_eq_set at_a]

/-- One word of the ring flips: its record alone changes. -/
theorem map_flipRing {a i : Nat} {r : RingRecord} {ring : List RingRecord} (at_i : ring[i]? = some r) (bits : List Nat)
    (others : ∀ j q, j ≠ i → ring[j]? = some q → a < q.base ∨ q.base + q.words.length ≤ a) :
    ring.map (flipRing a bits) = ring.set i (flipRing a bits r) := by
  obtain ⟨inside, -⟩ := List.getElem?_eq_some_iff.1 at_i
  refine List.ext_getElem? fun j => ?_
  rw [List.getElem?_map, List.getElem?_set]
  by_cases here : i = j
  · subst here
    rw [if_pos rfl, if_pos inside, at_i, Option.map_some]
  · rw [if_neg here]
    cases at_j : ring[j]? with
    | none => rfl
    | some q => rw [Option.map_some, flipRing_of_outside (others j q (Ne.symm here) at_j)]

theorem map_flipRing_of_outside {a : Nat} {ring : List RingRecord}
    (outside : ∀ r ∈ ring, a < r.base ∨ r.base + r.words.length ≤ a) (bits : List Nat) : ring.map (flipRing a bits) = ring := by
  conv_rhs => rw [← List.map_id ring]
  exact List.map_congr_left fun r mem => flipRing_of_outside (outside r mem) bits

/-! ### Writes that take a pending injection (R181) -/

theorem mapIdx_head {α β : Type} (e : α) (es : List α) (f : α → β) (fs : List Nat) :
    (e :: es).mapIdx (fun k e => (⟨f e, if k = 0 then fs else []⟩ : Prot β)) = ⟨f e, fs⟩ :: es.map (fun e => ⟨f e, []⟩) := by
  have behind : es.mapIdx (fun _ e => (⟨f e, []⟩ : Prot β)) = es.map (fun e => ⟨f e, []⟩) := List.ext_getElem? fun j => by simp
  rw [List.mapIdx_cons, ← behind]
  simp

theorem writeImage_spec (es : List ImageEntry) (s : State) : ∃ fs : List Nat, Struck s.imn.image.inject fs
    ∧ (writeImage es s).imn.image = { s.imn.image with inject := .none }
    ∧ (writeImage es s).sgs.image = es.mapIdx (fun i e => ⟨e, if i = 0 then fs else []⟩) := by
  obtain ⟨struck, -, injected⟩ := takeInjection_spec .image s
  unfold writeImage
  generalize takeInjection .image s = q at struck injected ⊢
  obtain ⟨fs, t⟩ := q
  dsimp only at struck injected ⊢
  exact ⟨fs, struck, by rw [injected]; rfl, rfl⟩

theorem writeAcq_of_ok {i : Nat} {e : AcqEntry} {es : List AcqEntry} {s t : State} (written : writeAcq i (e :: es) s = .ok t) :
    ∃ (fs : List Nat) (n : Nat), Struck s.imn.acq.inject fs ∧ t = { s with
      slc.acq := splice s.slc.acq i (⟨acqStored e, fs⟩ :: es.map (fun e => ⟨acqStored e, []⟩))
      imn.acq.inject := .none, imn.freeCount := n } := by
  obtain ⟨struck, -, injected⟩ := takeInjection_spec .acq s
  unfold writeAcq at written
  split at written
  · exact absurd written (by simp)
  · split at written
    · exact absurd written (by simp)
    · dsimp only at written
      split at written
      · exact absurd written (by simp)
      · generalize takeInjection .acq s = q at struck injected written
        obtain ⟨fs, u⟩ := q
        dsimp only at struck injected written
        generalize u.imn.freeCount = n at injected
        subst injected
        have entries : (acqStored e :: es.map acqStored).mapIdx (fun k e => (⟨e, if k = 0 then fs else []⟩ : Prot AcqEntry)) =
            ⟨acqStored e, fs⟩ :: es.map (fun e => ⟨acqStored e, []⟩) :=
          (mapIdx_head (acqStored e) (es.map acqStored) id fs).trans (by rw [List.map_map]; rfl)
        exact ⟨fs, n, struck, (Except.ok.inj written).symm.trans (by rw [← entries]; rfl)⟩

theorem writeScreen_of_ok {i : Nat} {e : ScreenEntry} {es : List ScreenEntry} {s t : State}
    (written : writeScreen i (e :: es) s = .ok t) :
    ∃ (fs : List Nat) (n : Nat), Struck s.imn.screen.inject fs ∧ t = { s with
      sgs.screen := splice s.sgs.screen i (⟨screenStored e, fs⟩ :: es.map (fun e => ⟨screenStored e, []⟩))
      imn.screen.inject := .none, imn.freeCount := n } := by
  obtain ⟨struck, -, injected⟩ := takeInjection_spec .screen s
  unfold writeScreen at written
  split at written
  · exact absurd written (by simp)
  · split at written
    · exact absurd written (by simp)
    · generalize takeInjection .screen s = q at struck injected written
      obtain ⟨fs, u⟩ := q
      dsimp only at struck injected written
      generalize u.imn.freeCount = n at injected
      subst injected
      refine ⟨fs, n, struck, (Except.ok.inj written).symm.trans ?_⟩
      rw [mapIdx_head e es screenStored fs]
      rfl

/-- The screening leaves the guard of the image's memory. -/
theorem imageGuard_steps : ScreeningSteps (fun t s => t.imn.image = s.imn.image) where
  refl _ := rfl
  trans h h' := h.trans h'
  read i s := by
    unfold readScreen
    (repeat' split) <;> rfl
  count i e s := by
    obtain ⟨fs, n, -, -, value⟩ := countFailure_spec i e s
    rw [value]
  latch b s := by rw [latchIf_eq]

theorem publishImage_spec (old : List ImageEntry) (s : State) : ∃ fs : List Nat, Struck s.imn.image.inject fs
    ∧ (publishImage old s).imn.image = { s.imn.image with inject := .none }
    ∧ (publishImage old s).sgs.image = (screenSignals old s.slc.delivery (screenContent s) inputIds s).1.mapIdx
      (fun i e => ⟨e, if i = 0 then fs else []⟩) := by
  have guard := imageGuard_steps.screenSignals old s.slc.delivery (screenContent s) inputIds s
  unfold publishImage
  generalize screenSignals old s.slc.delivery (screenContent s) inputIds s = q at guard ⊢
  obtain ⟨es, u⟩ := q
  dsimp only at guard ⊢
  rw [← guard]
  exact writeImage_spec es u

theorem haltImage_spec (s : State) : ∃ fs : List Nat, Struck s.imn.image.inject fs
    ∧ (haltImage s).imn.image = { s.imn.image with inject := .none }
    ∧ (haltImage s).sgs.image = s.sgs.image.mapIdx (fun i p => ⟨haltedEntry p.val, if i = 0 then fs else []⟩) := by
  obtain ⟨struck, -, injected⟩ := takeInjection_spec .image s
  refine ⟨(takeInjection .image s).1, struck, ?_, by rw [haltImage_sgs]⟩
  show (takeInjection .image s).2.imn.image = _
  rw [injected]
  rfl

end Sys2Proof.Machine
end

section
/-! PROOF. The integrity monitor: errors met at reads, bits that flip of themselves, pending injections, INTEGRITY-READ
(R175 to R181). -/

namespace Sys2Proof.Machine

/-! ### INTEGRITY-READ (R179) -/

theorem takeIntegrityRead_of_no_memory {mem : Byte} (h : mem.toNat < 1 ∨ 4 < mem.toNat) (tag flags : Byte) (s : State) :
    takeIntegrityRead tag mem flags s = s.turnedAway 0x99 tag .range .field 1 := by
  rw [takeIntegrityRead, memOfCode_eq_none h]
  exact refuse_eq (by decide) ..

theorem takeIntegrityRead_of_memory (tag flags : Byte) (m : Mem) (s : State) :
    takeIntegrityRead tag (memCode m) flags s =
      (updGuard m (fun g => g.cleared (flags.getLsbD 0) (flags.getLsbD 1)) s).answered 0x99 tag
        (guardBytes s.hli.force.integCapture (s.imn.guard m)) := by
  simp only [takeIntegrityRead, memOfCode_memCode]
  exact done_eq (by decide) ..

theorem updGuard_guard (m : Mem) (f : MemGuard → MemGuard) (s : State) :
    (updGuard m f s).imn.guard m = f (s.imn.guard m)
      ∧ ∀ m', m' ≠ m → (updGuard m f s).imn.guard m' = s.imn.guard m' := by
  refine ⟨by cases m <;> rfl, fun m' ne => ?_⟩
  cases m <;> cases m' <;> simp_all [updGuard, Imn.setGuard, Imn.guard]

theorem exec_integrityRead {tag : Byte} {s : State} (can_take : CanTake s) (tag_ne : tag ≠ 0#8) (mem flags : Byte) :
    exec (.integrityRead tag mem flags) s = .next (takeIntegrityRead tag mem flags s) :=
  exec_take (c := .integrityRead tag mem flags) rfl can_take tag_ne (by simp) (.inr rfl)

/-! ### Bits that flip of themselves (R175) -/

theorem exec_storedBitFlipped {s : State} (live : Live s) (m : Mem) (a : Nat) (bits : List Nat) :
    exec (.storedBitFlipped m a bits) s = .next (flipStored m a bits s) := live_of_run (flipStored m a bits) live

/-! ### The entry to HALTED (R2) -/

theorem checksHalted_image (s : State) :
    (stopFrames (changeState .halted .request (checksHalted s))).imn = s.imn
      ∧ (stopFrames (changeState .halted .request (checksHalted s))).sgs = s.sgs := by
  simp [stopFrames, checksHalted]

/-- SIGNAL_BAD is latched where the quality was not BAD before. -/
theorem newly_bad (q : Quality) (x m : BitVec 16) :
    (if (q != .bad) = true then x ||| m else x) = x ||| (if q = .bad then 0 else m) := by
  by_cases bad : q = .bad <;> simp [bad]

/-- Settles O13. -/
theorem integrityErrorsAreMetCountedAndRead : Obligations.IntegrityErrorsAreMetCountedAndRead := by
  refine ⟨?acq, ?others, ?flips, ⟨fun i e s inside => ?_, fun i e es s t written => writeAcq_of_ok written,
    fun i e es s t written => writeScreen_of_ok written, publishImage_spec, fun tag s can_take tag_ne gov => ?_⟩, ?read⟩
  case acq =>
    intro i e fs s at_i
    refine ⟨?_, ?_, fun many => ?_⟩
    · rintro rfl
      exact readAcq_of_no_flip at_i
    · rintro b rfl
      obtain ⟨inside, -⟩ := List.getElem?_eq_some_iff.1 at_i
      rw [readAcq_of_single at_i]
      exact ⟨rfl, List.getElem?_set_self inside, rfl, rfl, rfl⟩
    · obtain ⟨inside, -⟩ := List.getElem?_eq_some_iff.1 at_i
      rw [readAcq_of_many at_i many]
      exact ⟨rfl, List.getElem?_set_self inside, rfl, rfl, rfl⟩
  case others =>
    intro a fs s held corrected uncorrectable
    refine ⟨fun e at_a => ⟨?_, fun single => ?_, fun many => ⟨screenDamaged fs e, rfl, readScreen_of_many at_a many⟩⟩,
      fun e at_a => ⟨?_, fun single => ?_, fun many => ⟨imageDamaged fs e, rfl, rfl, rfl, ?_⟩⟩,
      fun p r w at_p at_a => ⟨?_, fun single => ?_, fun many => ⟨w ^^^ ringMask fs, readRingWord_of_many at_p at_a many⟩⟩⟩
    · rintro rfl
      exact readScreen_of_no_flip at_a
    · obtain ⟨b, rfl⟩ := List.length_eq_one_iff.1 single
      exact readScreen_of_single at_a
    · rintro rfl
      exact readImage_of_no_flip at_a
    · obtain ⟨b, rfl⟩ := List.length_eq_one_iff.1 single
      exact readImage_of_single at_a
    · rw [readImage_of_many at_a many, latchIf_eq, newly_bad]
      rfl
    · rintro rfl
      exact readRingWord_of_no_flip at_p at_a
    · obtain ⟨b, rfl⟩ := List.length_eq_one_iff.1 single
      exact readRingWord_of_single at_p at_a
  case flips =>
    intro a bits fs gs s live flipped
    have flip_eq : ∀ {α : Type} (x : α), (⟨x, fs⟩ : Prot α).flip bits = ⟨x, gs⟩ := fun x => by
      rw [Prot.flip, flips_eq flipped]
    simp only [exec_storedBitFlipped live, flipStored]
    refine ⟨fun e at_a => ?_, fun e at_a => ?_, fun e pos at_a => ?_, fun i r w at_i inside at_a others => ?_,
      fun outside => ?_, fun outside => ?_, fun outside => ?_, fun outside => ?_⟩
    · rw [modify_eq_set at_a, flip_eq]
    · rw [modify_eq_set at_a, flip_eq]
    · rw [if_neg pos.ne', modify_eq_set at_a, flip_eq]
    · rw [map_flipRing at_i bits others, flipRing_of_word inside at_a, flip_eq]
    · rw [modify_of_outside outside]
    · rw [modify_of_outside outside]
    · split_ifs with zero
      · rfl
      · rw [modify_of_outside (by omega)]
    · rw [map_flipRing_of_outside outside]
  case read =>
    refine ⟨fun tag mem flags s can_take tag_ne outside => ?_, ?_⟩
    · rw [exec_integrityRead can_take tag_ne, takeIntegrityRead_of_no_memory outside]
    · intro tag flags m s can_take tag_ne code g
      have code_eq : code = memCode m := by cases m <;> rfl
      obtain ⟨here, others⟩ := updGuard_guard m (fun g => g.cleared (flags.getLsbD 0) (flags.getLsbD 1)) s
      rw [exec_integrityRead can_take tag_ne, code_eq, takeIntegrityRead_of_memory]
      exact ⟨_, rfl, here, others, rfl⟩
  · obtain ⟨fs, n, struck, -, value⟩ := countFailure_spec i e s
    rw [value]
    exact ⟨fs, struck, List.getElem?_set_self inside, rfl⟩
  · rw [exec_halted can_take tag_ne gov, requestHalted_eq]
    obtain ⟨-, -, -, -, -, -, -, -, sgs, imn, -⟩ := haltEffects_fields (changeState .halted .request (checksHalted s))
    obtain ⟨imn_before, sgs_before⟩ := checksHalted_image s
    obtain ⟨fs, struck, guard, image⟩ := haltImage_spec (stopFrames (changeState .halted .request (checksHalted s)))
    rw [imn_before] at struck guard
    rw [sgs_before] at image
    exact ⟨_, fs, rfl, struck, (congrArg Imn.image imn).trans guard, (congrArg Sgs.image sgs).trans image⟩

end Sys2Proof.Machine
end

section
/-! SUPPORT. TABLE-CURSOR, TABLE-WRITE and TABLE-READ: the checks of the host link, and the cursor (R190, R191). -/

namespace Sys2Proof.Machine

/-! ### TABLE-CURSOR (R190) -/

theorem exec_tableCursor {tag : Byte} {s : State} (can_take : CanTake s) (tag_ne : tag ≠ 0#8) (table : Byte)
    (index : BitVec 16) (mode : Byte) :
    exec (.tableCursor tag table index mode) s = .next (takeTableCursor tag table index mode s) :=
  exec_take (c := .tableCursor tag table index mode) rfl can_take tag_ne (by simp) (.inr rfl)

/-- The sizes of the seven tables. -/
theorem tableSize_eq {n : Nat} (low : 1 ≤ n) (high : n ≤ 7) : tableSize n = [64, 96, 12, 32, 24, 8, 21].getD (n - 1) 0 := by
  have all : ∀ n < 8, 1 ≤ n → tableSize n = [64, 96, 12, 32, 24, 8, 21].getD (n - 1) 0 := by decide
  exact all n (by omega) low

theorem cursorModeOfCode_eq (mode : Byte) : cursorModeOfCode mode.toNat =
    if mode = 0#8 then some .none else if mode = 1#8 then some .onReadAndWrite
    else if mode = 2#8 then some .onWriteOnly else none := by
  by_cases h : mode = 0#8
  · rw [if_pos h, h]
    rfl
  by_cases h' : mode = 1#8
  · rw [if_neg h, if_pos h', h']
    rfl
  by_cases h'' : mode = 2#8
  · rw [if_neg h, if_neg h', if_pos h'', h'']
    rfl
  have outside : ∀ n, 2 < n → cursorModeOfCode n = none
    | 0, lt | 1, lt | 2, lt => absurd lt (by decide)
    | _ + 3, _ => rfl
  rw [if_neg h, if_neg h', if_neg h'', outside _ (by bv_omega)]

theorem takeTableCursor_eq (tag table : Byte) (index : BitVec 16) (mode : Byte) (s : State) :
    takeTableCursor tag table index mode s =
      if table.toNat < 1 ∨ 7 < table.toNat then s.turnedAway 0x86 tag .range .field 1
      else if [64, 96, 12, 32, 24, 8, 21].getD (table.toNat - 1) 0 ≤ index.toNat then s.turnedAway 0x86 tag .range .field 2
      else if mode = 0#8 then { s with hli.cursor := ⟨table.toNat, index.toNat, .none⟩ }.answered 0x86 tag []
      else if mode = 1#8 then { s with hli.cursor := ⟨table.toNat, index.toNat, .onReadAndWrite⟩ }.answered 0x86 tag []
      else if mode = 2#8 then { s with hli.cursor := ⟨table.toNat, index.toNat, .onWriteOnly⟩ }.answered 0x86 tag []
      else s.turnedAway 0x86 tag .range .field 3 := by
  have refused : ∀ c d q, refuse 0x06 tag c d q s = s.turnedAway 0x86 tag c d q := fun c d q => refuse_eq (by decide) ..
  have granted : ∀ u, done 0x06 tag [] u = u.answered 0x86 tag [] := fun u => done_eq (by decide) ..
  unfold takeTableCursor
  by_cases outside : table.toNat < 1 ∨ 7 < table.toNat
  · rw [if_pos outside, if_pos outside, refused]
  rw [if_neg outside, if_neg outside, tableSize_eq (by omega) (by omega), cursorModeOfCode_eq]
  simp only [refused, granted]
  split_ifs <;> rfl

/-! ### The transfers (R191) -/

/-- Where a transfer that moves the cursor leaves it. -/
theorem Cursor.moved_eq (c : Cursor) (n : Nat) (moves : Bool) :
    c.moved n moves = if moves then { c with index := min (c.index + n) (tableSize c.table - 1) } else c := rfl

section
variable (tag : Byte) (s : State)

theorem takeTableWrite_of_length {data : List Byte}
    (h : data.length % entrySize s.hli.cursor.table ≠ 0 ∨ data.length / entrySize s.hli.cursor.table = 0) :
    takeTableWrite tag data s = s.turnedAway 0x87 tag .format .length 7 :=
  (if_pos h).trans (refuse_eq (by decide) ..)

theorem takeTableWrite_of_readOnly {data : List Byte}
    (h : ¬(data.length % entrySize s.hli.cursor.table ≠ 0 ∨ data.length / entrySize s.hli.cursor.table = 0))
    (read_only : 3 < s.hli.cursor.table) :
    takeTableWrite tag data s = s.turnedAway 0x87 tag .format .readOnly s.hli.cursor.table :=
  (if_neg h).trans ((if_pos read_only).trans (refuse_eq (by decide) ..))

theorem takeTableWrite_of_pastEnd {data : List Byte}
    (h : ¬(data.length % entrySize s.hli.cursor.table ≠ 0 ∨ data.length / entrySize s.hli.cursor.table = 0))
    (writable : ¬ 3 < s.hli.cursor.table)
    (past : tableSize s.hli.cursor.table < s.hli.cursor.index + data.length / entrySize s.hli.cursor.table) :
    takeTableWrite tag data s = s.turnedAway 0x87 tag .range .pastEnd s.hli.cursor.index :=
  (if_neg h).trans ((if_neg writable).trans ((if_pos past).trans (refuse_eq (by decide) ..)))

theorem exec_tableRead {tag : Byte} {s : State} (can_take : CanTake s) (tag_ne : tag ≠ 0#8) (count : Byte) :
    exec (.tableRead tag count) s = .next (takeTableRead tag count s) :=
  exec_take (c := .tableRead tag count) rfl can_take tag_ne (by simp) (.inr rfl)

theorem takeTableRead_eq (count : Byte) :
    takeTableRead tag count s =
      if count.toNat = 0 then s.turnedAway 0x88 tag .format .length 8
      else if tableSize s.hli.cursor.table < s.hli.cursor.index + count.toNat then
        s.turnedAway 0x88 tag .range .pastEnd s.hli.cursor.index
      else { (readEntries s.hli.cursor.table (List.range' s.hli.cursor.index count.toNat) s).2 with
        hli.cursor := s.hli.cursor.moved count.toNat (s.hli.cursor.mode == CursorMode.onReadAndWrite) }.answered 0x88 tag
          (vList id (readEntries s.hli.cursor.table (List.range' s.hli.cursor.index count.toNat) s).1) := by
  have refused : ∀ c d q, refuse 0x08 tag c d q s = s.turnedAway 0x88 tag c d q := fun c d q => refuse_eq (by decide) ..
  have granted : ∀ bs u, done 0x08 tag bs u = u.answered 0x88 tag bs := fun bs u => done_eq (by decide) ..
  unfold takeTableRead
  simp only [refused, granted]

end

/-- A request of one entry cuts into that entry. -/
theorem chunks_one {n : Nat} {data : List Byte} (length : data.length = n) : chunks n 1 data = [data] := by
  rw [chunks, List.take_of_length_le length.le]
  rfl

/-! ### The first index of a table -/

theorem find?_range_of_first {p : Nat → Bool} {n i : Nat} (inside : i < n) (here : p i = true) (first : ∀ j < i, p j = false) :
    (List.range n).find? p = some i := by
  rw [List.find?_range_eq_some]
  exact ⟨here, List.mem_range.2 inside, fun j lt => by simp [first j lt]⟩

theorem find?_range_of_none {p : Nat → Bool} {n : Nat} (none_there : ∀ i < n, p i = false) : (List.range n).find? p = none := by
  rw [List.find?_range_eq_none]
  exact fun i lt => by simp [none_there i lt]

/-- A member of the first `k` places. -/
theorem take_any_iff {α : Type} {t : List α} {k : Nat} {p : α → Bool} :
    (t.take k).any p = true ↔ ∃ j x, j < k ∧ t[j]? = some x ∧ p x = true := by
  rw [List.any_eq_true]
  refine ⟨fun ⟨x, mem, holds⟩ => ?_, fun ⟨j, x, lt, at_j, holds⟩ => ⟨x, ?_, holds⟩⟩
  · obtain ⟨j, at_j⟩ := List.mem_iff_getElem?.1 mem
    rw [List.getElem?_take] at at_j
    split_ifs at at_j with lt
    exact ⟨j, x, lt, at_j, holds⟩
  · refine List.mem_iff_getElem?.2 ⟨j, ?_⟩
    rw [List.getElem?_take, if_pos lt, at_j]

end Sys2Proof.Machine
end

section
/-! SUPPORT. TABLE-WRITE of one acquisition entry (R42, R181). -/

namespace Sys2Proof.Machine

/-! ### The checks of an entry (R42) -/

theorem acqEntryFailure_eq {e : AcqEntry} (func : e.func = .read ∨ e.func = .write) : acqEntryFailure e =
    if e.addr < 1 ∨ 47 < e.addr then some .field
    else if ¬(e.func = .read ∧ 1 ≤ e.signal ∧ e.signal ≤ 34 ∨ e.func = .write ∧ 40 ≤ e.signal ∧ e.signal ≤ 48) then
      some .signalClass
    else if e.divisor ≤ e.phase then some .field
    else if (e.settle = .span ∨ e.settle = .persist) ∧ e.func = .write then some .settle
    else if 1 < e.span ∧ e.settle ≠ .span then some .settle
    else if 47 < e.addr + e.span - 1 then some .field
    else none := by
  have class_iff : (!(if e.func = .read then isInput e.signal else isOutput e.signal)) = true ↔
      ¬(e.func = .read ∧ 1 ≤ e.signal ∧ e.signal ≤ 34 ∨ e.func = .write ∧ 40 ≤ e.signal ∧ e.signal ≤ 48) := by
    obtain read | write := func
    · simp [read, isInput]
      omega
    · simp [write, isOutput]
      omega
  have not_read : e.func ≠ .read ↔ e.func = .write := by
    obtain read | write := func
    · simp [read]
    · simp [write]
  simp only [acqEntryFailure, class_iff, not_read]

theorem decodeAcq_func (bs : List Byte) : (decodeAcq bs).func = .read ∨ (decodeAcq bs).func = .write := by
  unfold decodeAcq
  dsimp only
  split
  · exact .inr rfl
  · exact .inl rfl

/-! ### Two valid entries of one function with one signal (R42) -/

theorem acqClashes_iff {a b : AcqEntry} : acqClashes a b = true ↔
    a.valid = true ∧ b.valid = true ∧ a.func = b.func ∧ a.signal = b.signal := by
  simp [acqClashes, and_assoc]

theorem acqClashes_symm {a b : AcqEntry} (h : acqClashes a b = true) : acqClashes b a = true := by
  obtain ⟨va, vb, func, signal⟩ := acqClashes_iff.1 h
  exact acqClashes_iff.2 ⟨vb, va, func.symm, signal.symm⟩

theorem acqClashes_trans {a b c : AcqEntry} (h : acqClashes a b = true) (h' : acqClashes b c = true) : acqClashes a c = true := by
  obtain ⟨va, -, func, signal⟩ := acqClashes_iff.1 h
  obtain ⟨-, vc, func', signal'⟩ := acqClashes_iff.1 h'
  exact acqClashes_iff.2 ⟨va, vc, func.trans func', signal.trans signal'⟩

/-- No two entries of the table clash. -/
def NoClash (t : List AcqEntry) : Prop :=
  ∀ (j k : Nat) (x y : AcqEntry), j ≠ k → t[j]? = some x → t[k]? = some y → acqClashes x y ≠ true

/-- An earlier entry clashes with the entry of index `k`. -/
def ClashAt (t : List AcqEntry) (k : Nat) : Prop :=
  ∃ (j : Nat) (x y : AcqEntry), j < k ∧ t[j]? = some x ∧ t[k]? = some y ∧ acqClashes x y = true

theorem clashAt_iff {t : List AcqEntry} {k : Nat} (inside : k < t.length) :
    (t.take k).any (acqClashes · (t.getD k .empty)) = true ↔ ClashAt t k := by
  have at_k : t[k]? = some (t.getD k .empty) := by simp [List.getD, inside]
  rw [take_any_iff]
  refine ⟨fun ⟨j, x, lt, at_j, clash⟩ => ⟨j, x, _, lt, at_j, at_k, clash⟩, fun ⟨j, x, y, lt, at_j, at_k', clash⟩ => ?_⟩
  obtain rfl : t.getD k .empty = y := Option.some.inj (at_k.symm.trans at_k')
  exact ⟨j, x, lt, at_j, clash⟩

theorem duplicateIndex_of_first {t : List AcqEntry} {k : Nat} (inside : k < t.length) (here : ClashAt t k)
    (first : ∀ m < k, ¬ ClashAt t m) : duplicateIndex t = some k :=
  find?_range_of_first inside ((clashAt_iff inside).2 here) fun m lt =>
    Bool.eq_false_iff.2 fun clash => first m lt ((clashAt_iff (lt.trans inside)).1 clash)

theorem duplicateIndex_of_none {t : List AcqEntry} (none_there : ∀ m < t.length, ¬ ClashAt t m) : duplicateIndex t = none :=
  find?_range_of_none fun m lt => Bool.eq_false_iff.2 fun clash => none_there m lt ((clashAt_iff lt).1 clash)

section
variable {t : List AcqEntry} {i : Nat} {e : AcqEntry} (no_clash : NoClash t) (inside : i < t.length)
include no_clash inside

/-- With one entry replaced every clash is with the entry written. -/
theorem clashAt_set {m : Nat} (clash : ClashAt (t.set i e) m) : ∃ j x, j ≠ i ∧ t[j]? = some x ∧ acqClashes x e = true
    ∧ m = max i j := by
  obtain ⟨j, x, y, lt, at_j, at_m, clash⟩ := clash
  by_cases j_here : j = i
  · subst j_here
    rw [List.getElem?_set_self inside] at at_j
    obtain rfl : e = x := Option.some.inj at_j
    rw [List.getElem?_set_ne (by omega)] at at_m
    exact ⟨m, y, by omega, at_m, acqClashes_symm clash, by omega⟩
  · rw [List.getElem?_set_ne (Ne.symm j_here)] at at_j
    by_cases m_here : m = i
    · subst m_here
      rw [List.getElem?_set_self inside] at at_m
      obtain rfl : e = y := Option.some.inj at_m
      exact ⟨j, x, j_here, at_j, clash, by omega⟩
    · rw [List.getElem?_set_ne (Ne.symm m_here)] at at_m
      exact absurd clash (no_clash j m x y (by omega) at_j at_m)

/-- The later of the entry written and the one it clashes with offends. -/
theorem duplicateIndex_set_of_clash {j : Nat} {x : AcqEntry} (apart : j ≠ i) (at_j : t[j]? = some x)
    (clash : acqClashes x e = true) : duplicateIndex (t.set i e) = some (max i j) := by
  have j_inside : j < t.length := (List.getElem?_eq_some_iff.1 at_j).1
  have at_i' : (t.set i e)[i]? = some e := List.getElem?_set_self inside
  have at_j' : (t.set i e)[j]? = some x := by rw [List.getElem?_set_ne (Ne.symm apart), at_j]
  refine duplicateIndex_of_first (by rw [List.length_set]; omega) ?_ fun m lt at_m => ?_
  · obtain below | above := Nat.lt_or_gt_of_ne apart
    · rw [Nat.max_eq_left below.le]
      exact ⟨j, x, e, below, at_j', at_i', clash⟩
    · rw [Nat.max_eq_right (Nat.le_of_lt above)]
      exact ⟨i, e, x, above, at_i', at_j', acqClashes_symm clash⟩
  · obtain ⟨l, y, l_apart, at_l, clash_l, rfl⟩ := clashAt_set no_clash inside at_m
    have other : l ≠ j := fun same => absurd lt (by rw [same]; exact Nat.lt_irrefl _)
    exact no_clash l j y x other at_l at_j (acqClashes_trans clash_l (acqClashes_symm clash))

theorem duplicateIndex_set_of_none (fresh : ∀ j x, j ≠ i → t[j]? = some x → acqClashes x e ≠ true) :
    duplicateIndex (t.set i e) = none :=
  duplicateIndex_of_none fun _ _ at_m => by
    obtain ⟨j, x, apart, at_j, clash, -⟩ := clashAt_set no_clash inside at_m
    exact fresh j x apart at_j clash

end

/-! ### A write of one entry -/

section
variable {i : Nat} {e : AcqEntry} {s : State} (halted : s.dsc.gov = .halted)
include halted

theorem writeAcq_of_failure {d : Detail} (valid : e.valid = true) (fails : acqEntryFailure e = some d) :
    writeAcq i [e] s = .error (.range, d, i) := by
  simp [writeAcq, halted, firstFailure, valid, fails]

omit halted in
theorem firstFailure_of_sound_single (sound : e.valid = true → acqEntryFailure e = none) :
    firstFailure (fun e : AcqEntry => if e.valid then acqEntryFailure e else none) i [e] = none :=
  firstFailure_of_sound (fun x mem => by
    obtain rfl := List.mem_singleton.1 mem
    split
    · rename_i valid
      exact sound valid
    · rfl) i

variable (sound : e.valid = true → acqEntryFailure e = none) (inside : i < s.slc.acq.length)
include sound inside

theorem writeAcq_of_duplicate {n : Nat} (duplicate : duplicateIndex ((s.slc.acq.map (·.val)).set i (acqStored e)) = some n) :
    writeAcq i [e] s = .error (.range, .duplicateSignal, n) := by
  rw [writeAcq, if_neg (not_not.2 halted), firstFailure_of_sound_single sound]
  simp only [List.map_cons, List.map_nil]
  rw [splice_single _ (by simpa using inside), duplicate]

theorem writeAcq_of_fresh (fresh : duplicateIndex ((s.slc.acq.map (·.val)).set i (acqStored e)) = none) :
    ∃ (fs : List Nat) (n : Nat), Struck s.imn.acq.inject fs ∧ (s.imn.acq.inject = .none → n = s.imn.freeCount)
      ∧ writeAcq i [e] s = .ok { s with
        slc.acq := s.slc.acq.set i ⟨acqStored e, fs⟩, imn.acq.inject := .none, imn.freeCount := n } := by
  obtain ⟨struck, count, injected⟩ := takeInjection_spec .acq s
  rw [writeAcq, if_neg (not_not.2 halted), firstFailure_of_sound_single sound]
  simp only [List.map_cons, List.map_nil]
  rw [splice_single _ (by simpa using inside), fresh]
  generalize takeInjection .acq s = q at struck count injected ⊢
  obtain ⟨fs, t⟩ := q
  dsimp only at struck count injected ⊢
  generalize t.imn.freeCount = n at count injected
  subst injected
  refine ⟨fs, n, struck, count, ?_⟩
  rw [← splice_single s.slc.acq inside]
  rfl

end

/-! ### The request -/

section
variable {tag : Byte} {data : List Byte} {s : State} (can_take : CanTake s) (tag_ne : tag ≠ 0#8)
  (table : s.hli.cursor.table = 1) (index : s.hli.cursor.index < 64) (length : data.length = 8)
include can_take tag_ne table index length

theorem exec_tableWrite_acq_of_error {c : RClass} {d : Detail} {q : Nat}
    (refused : writeAcq s.hli.cursor.index [decodeAcq data] s = .error (c, d, q)) :
    exec (.tableWrite tag data) s = .next (s.turnedAway 0x87 tag c d q) := by
  rw [exec_tableWrite can_take tag_ne]
  have one : data.length / 8 = 1 := by rw [length]
  refine congrArg _ (takeTableWrite_of_error (by rw [table, length]; rfl) (by rw [table, length]; decide)
    (by rw [table]; decide) (by rw [table, length]; exact index) tag ?_)
  rw [table]
  show writeAcq _ ((chunks 8 (data.length / 8) data).map decodeAcq) s = _
  rw [one, chunks_one length]
  exact refused

theorem exec_tableWrite_acq_of_ok (mode : s.hli.cursor.mode = .none) {t : State}
    (taken : writeAcq s.hli.cursor.index [decodeAcq data] s = .ok t) (hli : t.hli = s.hli) :
    exec (.tableWrite tag data) s = .next (t.answered 0x87 tag []) := by
  rw [exec_tableWrite can_take tag_ne]
  have one : data.length / 8 = 1 := by rw [length]
  have taken' : writeAcq s.hli.cursor.index ((chunks 8 (data.length / 8) data).map decodeAcq) s = .ok t := by
    rw [one, chunks_one length]
    exact taken
  have moved := takeTableWrite_of_ok (s := s) (data := data) (t := t) (by rw [table, length]; rfl)
    (by rw [table, length]; decide) (by rw [table]; decide) (by rw [table, length]; exact index) tag
    (by rw [table]; exact taken')
  have stays : (s.hli.cursor.mode != CursorMode.none) = false := by rw [mode]; rfl
  rw [moved, stays, Cursor.moved_of_stays, ← hli]

end

end Sys2Proof.Machine
end

section
/-! SUPPORT. TABLE-WRITE of one record set entry (R162, R172). -/

namespace Sys2Proof.Machine

theorem decodeRecset_pair (v id : Byte) : decodeRecset [v, id] = if v = 0#8 then none else some id.toNat := by
  have zero_iff : v.toNat = 0 ↔ v = 0#8 := by bv_omega
  show (if v.toNat = 0 then none else some id.toNat) = _
  simp only [zero_iff]

/-! ### The checks of the set as it would stand (R162) -/

theorem firstIndex_of_first {bad : Nat → Option Nat → Bool} {t : List (Option Nat)} {q : Nat} (inside : q < t.length)
    (here : bad q (t.getD q none) = true) (first : ∀ m < q, bad m (t.getD m none) = false) : firstIndex bad t = some q :=
  find?_range_of_first inside here first

theorem firstIndex_of_none {bad : Nat → Option Nat → Bool} {t : List (Option Nat)}
    (none_there : ∀ m < t.length, bad m (t.getD m none) = false) : firstIndex bad t = none :=
  find?_range_of_none none_there

theorem getElem?_of_inside {t : List (Option Nat)} {q : Nat} (inside : q < t.length) : t[q]? = some (t.getD q none) := by
  simp [List.getD, inside]

theorem take_contains_iff {t : List (Option Nat)} {q : Nat} {e : Option Nat} :
    (t.take q).contains e = true ↔ ∃ j, j < q ∧ t[j]? = some e := by
  rw [← List.any_beq', take_any_iff]
  refine ⟨fun ⟨j, x, lt, at_j, same⟩ => ⟨j, lt, ?_⟩, fun ⟨j, lt, at_j⟩ => ⟨j, e, lt, at_j, by simp⟩⟩
  rw [at_j, beq_iff_eq.1 same]

/-- An earlier entry names the id of the entry of index `q`. -/
def RepeatAt (t : List (Option Nat)) (q : Nat) : Prop := ∃ n j : Nat, j < q ∧ t[j]? = some (some n) ∧ t[q]? = some (some n)

/-- An entry not valid stands before the valid entry of index `q`. -/
def GapAt (t : List (Option Nat)) (q : Nat) : Prop := ∃ n j : Nat, j < q ∧ t[j]? = some none ∧ t[q]? = some (some n)

theorem repeatAt_iff {t : List (Option Nat)} {q : Nat} (inside : q < t.length) :
    (t.getD q none).any (fun n => (t.take q).contains (some n)) = true ↔ RepeatAt t q := by
  have at_q := getElem?_of_inside inside
  unfold RepeatAt
  rw [at_q]
  cases t.getD q none with
  | none => simp
  | some n =>
    rw [Option.any_some, take_contains_iff]
    refine ⟨fun ⟨j, lt, at_j⟩ => ⟨n, j, lt, at_j, rfl⟩, fun ⟨n', j, lt, at_j, same⟩ => ⟨j, lt, ?_⟩⟩
    rw [at_j, Option.some.inj same]

theorem gapAt_iff {t : List (Option Nat)} {q : Nat} (inside : q < t.length) :
    ((t.getD q none).isSome && (t.take q).contains none) = true ↔ GapAt t q := by
  have at_q := getElem?_of_inside inside
  unfold GapAt
  rw [at_q, Bool.and_eq_true, take_contains_iff]
  cases t.getD q none with
  | none => simp
  | some n =>
    refine ⟨fun ⟨_, j, lt, at_j⟩ => ⟨n, j, lt, at_j, rfl⟩, fun ⟨_, j, lt, at_j, _⟩ => ⟨rfl, j, lt, at_j⟩⟩

theorem firstIndex_repeat {t : List (Option Nat)} {q : Nat} (here : RepeatAt t q) (first : ∀ m < q, ¬ RepeatAt t m) :
    firstIndex (fun i e => e.any (fun n => (t.take i).contains (some n))) t = some q := by
  obtain ⟨n, j, lt, at_j, at_q⟩ := here
  have inside : q < t.length := (List.getElem?_eq_some_iff.1 at_q).1
  exact firstIndex_of_first inside ((repeatAt_iff inside).2 ⟨n, j, lt, at_j, at_q⟩) fun m below =>
    Bool.eq_false_iff.2 fun repeats => first m below ((repeatAt_iff (below.trans inside)).1 repeats)

theorem firstIndex_no_repeat {t : List (Option Nat)} (distinct : ∀ q, ¬ RepeatAt t q) :
    firstIndex (fun i e => e.any (fun n => (t.take i).contains (some n))) t = none :=
  firstIndex_of_none fun m inside => Bool.eq_false_iff.2 fun repeats => distinct m ((repeatAt_iff inside).1 repeats)

theorem firstIndex_gap {t : List (Option Nat)} {q : Nat} (here : GapAt t q) (first : ∀ m < q, ¬ GapAt t m) :
    firstIndex (fun i e => e.isSome && (t.take i).contains none) t = some q := by
  obtain ⟨n, j, lt, at_j, at_q⟩ := here
  have inside : q < t.length := (List.getElem?_eq_some_iff.1 at_q).1
  exact firstIndex_of_first inside ((gapAt_iff inside).2 ⟨n, j, lt, at_j, at_q⟩) fun m below =>
    Bool.eq_false_iff.2 fun gap => first m below ((gapAt_iff (below.trans inside)).1 gap)

theorem firstIndex_no_gap {t : List (Option Nat)} (packed : ∀ q, ¬ GapAt t q) :
    firstIndex (fun i e => e.isSome && (t.take i).contains none) t = none :=
  firstIndex_of_none fun m inside => Bool.eq_false_iff.2 fun gap => packed m ((gapAt_iff inside).1 gap)

section
variable {t : List (Option Nat)} (known : firstIndex (fun _ e => e.any (fun n => !inCatalog n)) t = none)
include known

theorem recsetFailure_of_repeat {q : Nat} (here : RepeatAt t q) (first : ∀ m < q, ¬ RepeatAt t m) :
    recsetFailure t = some (.duplicateSignal, q) := by
  unfold recsetFailure
  rw [known]
  dsimp only
  rw [firstIndex_repeat here first]

variable (distinct : ∀ q, ¬ RepeatAt t q)
include distinct

theorem recsetFailure_of_gap {q : Nat} (here : GapAt t q) (first : ∀ m < q, ¬ GapAt t m) :
    recsetFailure t = some (.gap, q) := by
  unfold recsetFailure
  rw [known]
  dsimp only
  rw [firstIndex_no_repeat distinct]
  dsimp only
  rw [firstIndex_gap here first]
  rfl

theorem recsetFailure_of_sound (packed : ∀ q, ¬ GapAt t q) : recsetFailure t = none := by
  unfold recsetFailure
  rw [known]
  dsimp only
  rw [firstIndex_no_repeat distinct]
  dsimp only
  rw [firstIndex_no_gap packed]
  rfl

end

/-! ### The ids of the set with one entry replaced -/

section
variable {t : List (Option Nat)} {i : Nat} {e : Option Nat} (known : ∀ n, some n ∈ t → inCatalog n = true)
include known

theorem known_getD {m : Nat} (apart : m ≠ i) : ((t.set i e).getD m none).any (fun n => !inCatalog n) = false := by
  cases at_m : t[m]? with
  | none => simp [List.getD, List.getElem?_set_ne (Ne.symm apart), at_m]
  | some x =>
    cases x with
    | none => simp [List.getD, List.getElem?_set_ne (Ne.symm apart), at_m]
    | some n => simp [List.getD, List.getElem?_set_ne (Ne.symm apart), at_m, known n (List.mem_of_getElem? at_m)]

variable (inside : i < t.length)
include inside

theorem recsetFailure_of_unknown {n : Nat} (unknown : inCatalog n = false) :
    recsetFailure (t.set i (some n)) = some (.signal, i) := by
  have found : firstIndex (fun _ e => e.any (fun n => !inCatalog n)) (t.set i (some n)) = some i :=
    firstIndex_of_first (by rwa [List.length_set]) (by simp [List.getD, inside, unknown]) fun m lt =>
      known_getD known (by omega)
  unfold recsetFailure
  rw [found]

theorem firstIndex_known (e_known : ∀ n, e = some n → inCatalog n = true) :
    firstIndex (fun _ e => e.any (fun n => !inCatalog n)) (t.set i e) = none := by
  refine firstIndex_of_none fun m _ => ?_
  by_cases here : m = i
  · subst here
    cases e with
    | none => simp [List.getD, inside]
    | some n => simp [List.getD, inside, e_known n rfl]
  · exact known_getD known here

end

/-! ### The request -/

section
variable {tag : Byte} {data : List Byte} {s : State} (can_take : CanTake s) (tag_ne : tag ≠ 0#8)
  (table : s.hli.cursor.table = 3) (index : s.hli.cursor.index < 12) (length : data.length = 2)
include can_take tag_ne table index length

theorem exec_tableWrite_recset_of_error {c : RClass} {d : Detail} {q : Nat}
    (refused : writeRecset s.hli.cursor.index [decodeRecset data] s = .error (c, d, q)) :
    exec (.tableWrite tag data) s = .next (s.turnedAway 0x87 tag c d q) := by
  rw [exec_tableWrite can_take tag_ne]
  have one : data.length / 2 = 1 := by rw [length]
  refine congrArg _ (takeTableWrite_of_error (by rw [table, length]; rfl) (by rw [table, length]; decide) (by rw [table])
    (by rw [table, length]; exact index) tag ?_)
  rw [table]
  show writeRecset _ ((chunks 2 (data.length / 2) data).map decodeRecset) s = _
  rw [one, chunks_one length]
  exact refused

theorem exec_tableWrite_recset_of_ok (mode : s.hli.cursor.mode = .none) {t : State}
    (taken : writeRecset s.hli.cursor.index [decodeRecset data] s = .ok t) (hli : t.hli = s.hli) :
    exec (.tableWrite tag data) s = .next (t.answered 0x87 tag []) := by
  rw [exec_tableWrite can_take tag_ne]
  have one : data.length / 2 = 1 := by rw [length]
  have taken' : writeRecset s.hli.cursor.index ((chunks 2 (data.length / 2) data).map decodeRecset) s = .ok t := by
    rw [one, chunks_one length]
    exact taken
  have moved := takeTableWrite_of_ok (s := s) (data := data) (t := t) (by rw [table, length]; rfl)
    (by rw [table, length]; decide) (by rw [table]) (by rw [table, length]; exact index) tag (by rw [table]; exact taken')
  have stays : (s.hli.cursor.mode != CursorMode.none) = false := by rw [mode]; rfl
  rw [moved, stays, Cursor.moved_of_stays, ← hli]

end

section
variable {i : Nat} {e : Option Nat} {s : State}

theorem writeRecset_of_busy (busy : s.trc.st ≠ .idle) : writeRecset i [e] s = .error (.state, .notIdle, 0) := if_pos busy

theorem writeRecset_of_find (idle : s.trc.st = .idle) (find : s.trc.find.isSome = true) :
    writeRecset i [e] s = .error (.state, .findRunning, 0) := (if_neg (not_not.2 idle)).trans (if_pos find)

variable (idle : s.trc.st = .idle) (find : s.trc.find = none) (inside : i < s.trc.recset.length)
include idle find inside

theorem writeRecset_of_failure {d : Detail} {n : Nat} (fails : recsetFailure (s.trc.recset.set i e) = some (d, n)) :
    writeRecset i [e] s = .error (.range, d, n) := by
  rw [writeRecset, if_neg (not_not.2 idle), if_neg (by simp [find]), splice_single _ inside]
  dsimp only
  rw [fails]

theorem writeRecset_of_sound (sound : recsetFailure (s.trc.recset.set i e) = none) :
    writeRecset i [e] s = .ok { emptyRing s with trc.recset := s.trc.recset.set i e } := by
  rw [writeRecset, if_neg (not_not.2 idle), if_neg (by simp [find]), splice_single _ inside]
  dsimp only
  rw [sound]

end

end Sys2Proof.Machine
end

section
/-! SUPPORT. The bytes of table entries as TABLE-READ returns them (R191, R198). -/

namespace Sys2Proof.Machine

/-! ### Fields of whole bytes -/

/-- The low byte of a number. -/
def lowByte (n : Nat) : Byte := BitVec.ofNat 8 n

theorem beBytes_one (n : Nat) : beBytes 1 n = [lowByte n] := rfl

theorem beBytes_two (n : Nat) : beBytes 2 n = [lowByte (n / 256), lowByte n] := by
  simp [beBytes, lowByte, Nat.shiftRight_eq_div_pow]

theorem vFrame_eq (n : Nat) : vFrame n = [5, 4, 3, 2, 1, 0].map (fun k => lowByte (n / 256 ^ k)) := by
  simp [vFrame, beBytes, lowByte, Nat.shiftRight_eq_div_pow]

theorem lowByte_toNat (d : Byte) : lowByte d.toNat = d := by
  simp [lowByte]

theorem vMark_eq (b : Bool) : vMark b = [lowByte (if b then 1 else 0)] := rfl

/-- The high and low byte of a 16-bit signed field. -/
theorem be16s_eq (z : Int) : be16s z = [BitVec.ofInt 8 (z / 256), BitVec.ofInt 8 z] := by
  have high : lowByte ((BitVec.ofInt 16 z).toNat / 256) = BitVec.ofInt 8 (z / 256) := by
    apply BitVec.eq_of_toNat_eq
    simp only [lowByte, BitVec.toNat_ofNat, BitVec.toNat_ofInt]
    omega
  have low : lowByte (BitVec.ofInt 16 z).toNat = BitVec.ofInt 8 z := by
    apply BitVec.eq_of_toNat_eq
    simp only [lowByte, BitVec.toNat_ofNat, BitVec.toNat_ofInt]
    omega
  rw [be16s, beBytes_two, high, low]

theorem int16At_eq {bs : List Byte} {i : Nat} {a b : Byte} (at_i : byteAt bs i = a.toNat) (next : byteAt bs (i + 1) = b.toNat) :
    int16At bs i = (a ++ b).toInt := by
  have joined : BitVec.ofNat 16 (256 * a.toNat + b.toNat) = a ++ b := by
    apply BitVec.eq_of_toNat_eq
    rw [BitVec.toNat_append, BitVec.toNat_ofNat, ← Nat.shiftLeft_add_eq_or_of_lt b.isLt, Nat.shiftLeft_eq]
    have := a.isLt
    have := b.isLt
    omega
  rw [int16At, at_i, next, joined]

theorem be16s_append (a b : Byte) : be16s (a ++ b).toInt = [a, b] := by
  have high : lowByte ((a ++ b).toNat / 256) = a := by
    apply BitVec.eq_of_toNat_eq
    rw [lowByte, BitVec.toNat_append, BitVec.toNat_ofNat, ← Nat.shiftLeft_add_eq_or_of_lt b.isLt, Nat.shiftLeft_eq]
    have := a.isLt
    have := b.isLt
    omega
  have low : lowByte (a ++ b).toNat = b := by
    apply BitVec.eq_of_toNat_eq
    rw [lowByte, BitVec.toNat_append, BitVec.toNat_ofNat, ← Nat.shiftLeft_add_eq_or_of_lt b.isLt, Nat.shiftLeft_eq]
    have := b.isLt
    omega
  rw [be16s, BitVec.ofInt_toInt, beBytes_two, high, low]

/-! ### Fields of single bits, byte by byte -/

theorem bitAt_eq : ∀ d : Byte, (d.toNat / 128 % 2 == 1) = d.getLsbD 7 ∧ (d.toNat / 64 % 2 == 1) = d.getLsbD 6
    ∧ (d.toNat / 32 % 2 == 1) = d.getLsbD 5 ∧ (d.toNat / 16 % 2 == 1) = d.getLsbD 4 := by decide

theorem settleOfCode_at : ∀ k < 4, [Settle.strict, .lenient, .persist, .span][k]? = some (settleOfCode k) := by decide

theorem testOfCode_at : ∀ k < 4, [ScreenTest.range, .step, .agree, .unknown][k]? = some (testOfCode k) := by decide

theorem actionOfCode_at : ∀ k < 4, [FailAction.hold, .bad, .subst, .unknown][k]? = some (actionOfCode k) := by decide

theorem acqByte_zero : ∀ d : Byte, lowByte (bit (d.toNat / 128 % 2 == 1) 7
      + bit ((if d.toNat / 64 % 2 == 1 then Func.write else .read) == .write) 6 + bit (d.toNat / 32 % 2 == 1) 5
      + bit (d.toNat / 16 % 2 == 1) 4 + 4 * settleCode (settleOfCode (d.toNat / 4 % 4)) + (d.toNat % 4 + 1 - 1) % 4) = d := by
  decide

theorem acqByte_two : ∀ d : Byte, lowByte (16 * (d.toNat / 16 % 8 % 8) + d.toNat % 8 % 8) = d &&& 0x77#8 := by decide

theorem acqByte_four : ∀ d : Byte, lowByte (16 * divisorCode (2 ^ (d.toNat / 16 % 4)) + d.toNat % 8 % 8) = d &&& 0x37#8 := by
  decide

theorem screenByte_zero : ∀ d : Byte, lowByte (bit (d.toNat / 128 % 2 == 1) 7
      + 16 * testCode (testOfCode (d.toNat / 16 % 4)) + actionCode (actionOfCode (d.toNat % 4))) = d &&& 0xB3#8 := by decide

/-! ### Tables 1 and 2 -/

section
variable (d0 d1 d2 d3 d4 d5 d6 d7 : Byte)

theorem encodeAcq_decodeAcq (c : Bool) : encodeAcq { decodeAcq [d0, d1, d2, d3, d4, d5, d6, d7] with corrupt := c } =
    [d0, d1, d2 &&& 0x77#8, d3, d4 &&& 0x37#8, lowByte (if c then 1 else 0), 0#8, 0#8] := by
  have zero := acqByte_zero d0
  have two := acqByte_two d2
  have four := acqByte_four d4
  have value : encodeAcq { decodeAcq [d0, d1, d2, d3, d4, d5, d6, d7] with corrupt := c } = [lowByte _, lowByte d1.toNat,
    lowByte _, lowByte d3.toNat, lowByte _, lowByte (if c then 1 else 0), 0#8, 0#8] := rfl
  rw [value, lowByte_toNat, lowByte_toNat]
  exact congrArg₂ _ zero (congrArg (d1 :: ·) (congrArg₂ _ two (congrArg (d3 :: ·) (congrArg₂ _ four rfl))))

theorem decodeScreen_fields (d8 d9 d10 d11 : Byte) :
    let e := decodeScreen [d0, d1, d2, d3, d4, d5, d6, d7, d8, d9, d10, d11]
    e.low = (d4 ++ d5).toInt ∧ e.high = (d6 ++ d7).toInt := ⟨int16At_eq rfl rfl, int16At_eq rfl rfl⟩

theorem encodeScreen_decodeScreen (d8 d9 d10 d11 : Byte) (n : Nat) (c : Bool) :
    encodeScreen { decodeScreen [d0, d1, d2, d3, d4, d5, d6, d7, d8, d9, d10, d11] with failCount := n, corrupt := c } =
      [d0 &&& 0xB3#8, d1, d2, lowByte (if c then 1 else 0), d4, d5, d6, d7] ++ [lowByte (n / 256), lowByte n]
        ++ List.replicate 2 0#8 := by
  obtain ⟨low, high⟩ := decodeScreen_fields d0 d1 d2 d3 d4 d5 d6 d7 d8 d9 d10 d11
  have zero := screenByte_zero d0
  have one : (decodeScreen [d0, d1, d2, d3, d4, d5, d6, d7, d8, d9, d10, d11]).signal = d1.toNat := rfl
  have two : (decodeScreen [d0, d1, d2, d3, d4, d5, d6, d7, d8, d9, d10, d11]).partner = d2.toNat := rfl
  simp only [encodeScreen, low, high, be16s_append, beBytes_two, beBytes_one, vMark_eq, one, two, lowByte_toNat]
  exact congrArg (· :: [d1, d2, lowByte (if c then 1 else 0), d4, d5, d6, d7, lowByte (n / 256), lowByte n, 0#8, 0#8]) zero

end

/-! ### The codes of the other tables -/

theorem stationStateCode_eq (x : StationState) : stationStateCode x = [StationState.enrolled, .suspect, .excluded].idxOf x := by
  cases x <;> rfl

theorem kindCode_eq (x : Kind) : kindCode x = [Kind.inverter, .chopper, .steer, .sense].idxOf x + 1 := by
  cases x <;> rfl

theorem failKindCode_eq (x : FailKind) : failKindCode x = [FailKind.none, .noReply, .check, .untaken].idxOf x := by
  cases x <;> rfl

theorem derateTargetCode_eq (x : DerateTarget) : derateTargetCode x = [DerateTarget.left, .right, .vehicle].idxOf x := by
  cases x <;> rfl

theorem derateKindCode_eq (x : DerateKind) : derateKindCode x = [DerateKind.propel, .retard, .torque, .speed].idxOf x := by
  cases x <;> rfl

theorem derateCauseCode_eq (x : DerateCause) : derateCauseCode x = [DerateCause.motorHot, .inverterHot, .tempUnknown,
    .slipPersist, .slipRefLost, .payloadOver, .gridHeat, .gridWithdrawn, .dcLinkHigh, .steerTrack, .accLow, .stationSuspect,
    .ambientUnknown].idxOf x + 1 := by
  cases x <;> rfl

theorem tripCode_eq (x : TripCause) : tripCode x = [TripCause.inverterFaultL, .inverterFaultR, .motorOvertempL,
    .motorOvertempR, .dcLinkOver, .chopperFault, .steerSupply, .steerAngleLost, .speedLost, .loopLost, .demandLost, .stopLine,
    .tableFault, .overflow, .payloadGross, .gridOvertempA, .gridOvertempB, .screenFault, .overspeed].idxOf x + 1 := by
  cases x <;> rfl

theorem stringClassCode_eq (x : StringClass) :
    stringClassCode x = [StringClass.none, .good, .drift, .open, .short].idxOf x := by
  cases x <;> rfl

theorem gridsCode_eq (x : Grids) : gridsCode x = [Grids.none, .a, .b, .both].idxOf x := by
  cases x <;> rfl

/-! ### Several entries -/

theorem readEntry_of_sound {s : State} (acq : SoundAcq s) (screen : ∀ q ∈ s.sgs.screen, q.flips = []) (table i : Nat) :
    readEntry table i s = ((readEntry table i s).1, s) := by
  unfold readEntry
  split
  · rw [readAcq_of_sound acq]
  · cases at_i : s.sgs.screen[i]? with
    | none => simp [readScreen, at_i]
    | some p =>
      obtain ⟨e, fs⟩ := p
      obtain rfl : fs = [] := screen _ (List.mem_of_getElem? at_i)
      rw [readScreen_of_no_flip at_i]
  all_goals rfl

theorem readEntries_of_sound {s : State} (acq : SoundAcq s) (screen : ∀ q ∈ s.sgs.screen, q.flips = []) (table : Nat)
    (is : List Nat) : readEntries table is s = (is.map (fun j => (readEntry table j s).1), s) := by
  induction is with
  | nil => rfl
  | cons i is ih =>
    rw [readEntries, readEntry_of_sound acq screen]
    dsimp only
    rw [ih]
    rfl

end Sys2Proof.Machine
end

section
/-! PROOF. The table requests and the cursor (R42, R162, R190, R191, R198). -/

namespace Sys2Proof.Machine

/-! ### The entries of tables 3 to 7 -/

theorem encodeStation_some (e : Station) : encodeStation (some e) =
    [lowByte (128 + [StationState.enrolled, .suspect, .excluded].idxOf e.state), lowByte e.addr,
      lowByte ([Kind.inverter, .chopper, .steer, .sense].idxOf e.kind + 1), lowByte e.revision, lowByte e.streak]
      ++ [lowByte (e.total / 256), lowByte e.total]
      ++ [lowByte ([FailKind.none, .noReply, .check, .untaken].idxOf e.lastFail)] := by
  rw [encodeStation, stationStateCode_eq, kindCode_eq, failKindCode_eq, beBytes_two]
  rfl

theorem encodeDerate_some (e : Derate) : encodeDerate (some e) =
    [lowByte (128 + (if e.holding then 64 else 0) + 16 * [DerateTarget.left, .right, .vehicle].idxOf e.target
        + [DerateKind.propel, .retard, .torque, .speed].idxOf e.kind), lowByte (derateCauseCode e.cause)]
      ++ [BitVec.ofInt 8 (e.limit / 256), BitVec.ofInt 8 e.limit]
      ++ [lowByte (e.holdRemaining / 256), lowByte e.holdRemaining]
      ++ [5, 4, 3, 2, 1, 0].map (fun k => lowByte (e.entered / 256 ^ k)) := by
  rw [encodeDerate, derateTargetCode_eq, derateKindCode_eq, be16s_eq, beBytes_two, vFrame_eq]
  rfl

theorem encodeTrip_some (e : Trip) : encodeTrip (some e) =
    [lowByte (128 + (if e.clearable then 64 else 0) + (if !e.severe then 32 else 0) + tripCode e.cause)]
      ++ [5, 4, 3, 2, 1, 0].map (fun k => lowByte (e.first / 256 ^ k))
      ++ [5, 4, 3, 2, 1, 0].map (fun k => lowByte (e.last / 256 ^ k)) ++ [lowByte e.recurrences]
      ++ [BitVec.ofInt 8 (e.detail / 256), BitVec.ofInt 8 e.detail] := by
  rw [encodeTrip, be16s_eq, vFrame_eq, vFrame_eq]
  rfl

theorem encodeString_eq (e : StringResult) : encodeString e =
    [lowByte ([StringClass.none, .good, .drift, .open, .short].idxOf e.cls), 0#8]
      ++ [lowByte (e.resistance / 256), lowByte e.resistance]
      ++ [5, 4, 3, 2, 1, 0].map (fun k => lowByte (e.frame / 256 ^ k)) ++ List.replicate 2 0#8 := by
  rw [encodeString, stringClassCode_eq, beBytes_two, vFrame_eq]
  rfl

theorem encodeAnomaly_some (e : Anomaly) : encodeAnomaly (some e) =
    [0x80#8, lowByte (gridCode e.grid), lowByte e.string,
        lowByte ([StringClass.none, .good, .drift, .open, .short].idxOf e.cls)]
      ++ [lowByte (e.resistance / 256), lowByte e.resistance] ++ List.replicate 6 0#8 := by
  rw [encodeAnomaly, stringClassCode_eq, beBytes_two]
  rfl

theorem gridTableEntry_of_string {i : Nat} {e : StringResult} {s : State} (below : i < 16)
    (at_i : s.rgv.check.results[i]? = some e) : gridTableEntry i s = encodeString e := by
  rw [gridTableEntry, if_pos below, List.getD, at_i]
  rfl

theorem gridTableEntry_of_anomaly {i : Nat} (from16 : 16 ≤ i) (below : i < 20) (s : State) :
    gridTableEntry i s = encodeAnomaly s.rgv.check.anomalies[i - 16]? := by
  rw [gridTableEntry, if_neg (by omega), if_pos below]

theorem gridTableEntry_of_summary (s : State) : gridTableEntry 20 s =
    [lowByte (if s.rgv.check.more then 128 else 0), lowByte s.rgv.check.anomalies.length,
      lowByte ([Grids.none, .a, .b, .both].idxOf s.rgv.check.named), lowByte s.rgv.gridA.good, lowByte s.rgv.gridB.good]
      ++ List.replicate 7 0#8 := by
  rw [gridTableEntry, if_neg (by decide), if_neg (by decide), gridSummaryBytes, gridsCode_eq]
  rfl

/-! ### The obligation -/

/-- Settles O10. -/
theorem tableRequestsMoveEntriesAndTheCursor : Obligations.TableRequestsMoveEntriesAndTheCursor := by
  refine ⟨?cursor, ?write, ?read, ?acq, ?recset, ?bytes⟩
  case cursor =>
    intro tag table index mode s can_take tag_ne
    rw [exec_tableCursor can_take tag_ne, takeTableCursor_eq]
  case write =>
    intro tag data s can_take tag_ne c n
    rw [exec_tableWrite can_take tag_ne]
    by_cases length : data.length % entrySize c.table ≠ 0 ∨ n = 0
    · rw [if_pos length, takeTableWrite_of_length tag s length]
    rw [if_neg length]
    by_cases read_only : 3 < c.table
    · rw [if_pos read_only, takeTableWrite_of_readOnly tag s length read_only]
    rw [if_neg read_only]
    by_cases past : tableSize c.table < c.index + n
    · rw [if_pos past, takeTableWrite_of_pastEnd tag s length read_only past]
    · rw [if_neg past]
      obtain ⟨whole, some_entry⟩ := not_or.1 length
      have whole' := not_not.1 whole
      have table := Nat.not_lt.1 read_only
      have fits := Nat.not_lt.1 past
      cases written : writeTable c.table c.index (chunks (entrySize c.table) n data) s with
      | error x =>
        obtain ⟨cls, d, q⟩ := x
        rw [takeTableWrite_of_error whole' some_entry table fits tag written]
      | ok t =>
        rw [takeTableWrite_of_ok whole' some_entry table fits tag written]
        have moved : c.moved n (c.mode != CursorMode.none) = if c.mode = CursorMode.none then c
            else { c with index := min (c.index + n) (tableSize c.table - 1) } := by
          rw [Cursor.moved_eq]
          by_cases stays : c.mode = CursorMode.none <;> simp [stays]
        exact congrArg (fun k => Host.Outcome.next ({ t with hli.cursor := k }.answered 0x87 tag [])) moved
  case read =>
    intro tag count s can_take tag_ne c n r
    have moved : c.moved n (c.mode == CursorMode.onReadAndWrite) = if c.mode = CursorMode.onReadAndWrite
        then { c with index := min (c.index + n) (tableSize c.table - 1) } else c := by
      rw [Cursor.moved_eq]
      by_cases moves : c.mode = CursorMode.onReadAndWrite <;> simp [moves]
    rw [exec_tableRead can_take tag_ne, takeTableRead_eq, ← moved]
  case acq =>
    intro tag data s can_take tag_ne table index mode size length e i no clash bad
    have func : e.func = .read ∨ e.func = .write := decodeAcq_func data
    have inside : i < s.slc.acq.length := by rw [size]; exact index
    have bad_eq : bad = if e.valid = false then none else acqEntryFailure e := by rw [acqEntryFailure_eq func]
    refine ⟨fun not_halted => ?_, fun d halted fails => ?_, fun halted passes distinct => ⟨fun j valid apart clash_j => ?_,
      fun fresh => ?_⟩⟩
    · exact exec_tableWrite_acq_of_error can_take tag_ne table index length (if_pos not_halted)
    · rw [bad_eq] at fails
      split_ifs at fails with invalid
      exact exec_tableWrite_acq_of_error can_take tag_ne table index length
        (writeAcq_of_failure halted (by simpa using invalid) fails)
    all_goals
      have sound : e.valid = true → acqEntryFailure e = none := fun valid => by
        rw [bad_eq, if_neg (by simp [valid])] at passes
        exact passes
      have stored_at : ∀ j x, (s.slc.acq.map (·.val))[j]? = some x → ∃ p : Prot AcqEntry, s.slc.acq[j]? = some p ∧ p.val = x :=
        fun j x at_j => by rwa [List.getElem?_map, Option.map_eq_some_iff] at at_j
      have no_clash : NoClash (s.slc.acq.map (·.val)) := by
        have ordered : ∀ (j k : Nat) (x y : AcqEntry), j < k → (s.slc.acq.map (·.val))[j]? = some x →
            (s.slc.acq.map (·.val))[k]? = some y → acqClashes x y ≠ true := fun j k x y lt at_j at_k clash => by
          obtain ⟨p, at_p, rfl⟩ := stored_at j x at_j
          obtain ⟨q, at_q, rfl⟩ := stored_at k y at_k
          obtain ⟨valid_p, valid_q, func, signal⟩ := acqClashes_iff.1 clash
          exact distinct j k p q lt at_p at_q valid_p valid_q func signal
        intro j k x y apart at_j at_k clash
        obtain lt | gt := Nat.lt_or_gt_of_ne apart
        · exact ordered j k x y lt at_j at_k clash
        · exact ordered k j y x gt at_k at_j (acqClashes_symm clash)
      have inside' : i < (s.slc.acq.map (·.val)).length := by rwa [List.length_map]
    · obtain ⟨p, at_j, valid_p, func_p, signal_p⟩ := clash_j
      have stored : acqStored e = e := if_pos valid
      have duplicate : duplicateIndex ((s.slc.acq.map (·.val)).set i (acqStored e)) = some (max i j) := by
        rw [stored]
        exact duplicateIndex_set_of_clash no_clash inside' apart (by simp [at_j])
          (acqClashes_iff.2 ⟨valid_p, valid, func_p, signal_p⟩)
      exact exec_tableWrite_acq_of_error can_take tag_ne table index length
        (writeAcq_of_duplicate halted sound inside duplicate)
    · have no_duplicate : duplicateIndex ((s.slc.acq.map (·.val)).set i (acqStored e)) = none := by
        refine duplicateIndex_set_of_none no_clash inside' fun j x apart at_j clashes => ?_
        obtain ⟨p, at_p, rfl⟩ := stored_at j x at_j
        obtain ⟨valid_p, valid_e, func_p, signal_p⟩ := acqClashes_iff.1 clashes
        obtain invalid | fresh := fresh
        · have stored : acqStored e = .empty := if_neg (by simp [invalid])
          rw [stored] at valid_e
          exact absurd valid_e (by decide)
        · by_cases valid : e.valid = true
          · have stored : acqStored e = e := if_pos valid
            rw [stored] at func_p signal_p
            exact fresh j apart ⟨p, at_p, valid_p, func_p, signal_p⟩
          · have stored : acqStored e = .empty := if_neg valid
            rw [stored] at valid_e
            exact absurd valid_e (by decide)
      obtain ⟨fs, n, struck, count, written⟩ := writeAcq_of_fresh halted sound inside no_duplicate
      refine ⟨fs, n, struck, count, ?_⟩
      rw [exec_tableWrite_acq_of_ok can_take tag_ne table index length mode written rfl]
      rfl
  case recset =>
    intro tag v id s can_take tag_ne table index mode size i e t no
    have inside : i < s.trc.recset.length := by rw [size]; exact index
    have entry : decodeRecset [v, id] = e := decodeRecset_pair v id
    have refused : ∀ {c d n}, writeRecset i [e] s = .error (c, d, n) → exec (.tableWrite tag [v, id]) s = no c d n :=
      fun written => exec_tableWrite_recset_of_error can_take tag_ne table index rfl (entry ▸ written)
    refine ⟨fun busy => refused (writeRecset_of_busy busy), fun idle find => refused (writeRecset_of_find idle find),
      fun idle find known => ⟨fun n e_eq unknown => ?_, fun e_known => ⟨fun q here first => ?_, fun distinct =>
        ⟨fun q here first => ?_, fun packed => ?_⟩⟩⟩⟩
    · refine refused (writeRecset_of_failure idle find inside ?_)
      rw [e_eq]
      exact recsetFailure_of_unknown known inside unknown
    · exact refused (writeRecset_of_failure idle find inside
        (recsetFailure_of_repeat (firstIndex_known known inside e_known) here first))
    all_goals
      have no_repeat : ∀ q, ¬ RepeatAt t q := fun q ⟨n, j, lt, at_j, at_q⟩ => distinct n j q lt at_j at_q
    · exact refused (writeRecset_of_failure idle find inside
        (recsetFailure_of_gap (firstIndex_known known inside e_known) no_repeat here first))
    · have no_gap : ∀ q, ¬ GapAt t q := fun q ⟨n, j, lt, at_j, at_q⟩ => packed n j q lt at_j at_q
      have written := writeRecset_of_sound idle find inside
        (recsetFailure_of_sound (firstIndex_known known inside e_known) no_repeat no_gap)
      exact exec_tableWrite_recset_of_ok can_take tag_ne table index rfl mode (entry ▸ written) rfl
  case bytes =>
    intro one mark two signed six zeros
    refine ⟨?table1, ?table2, fun i s => ⟨?table3, ?table4, ?table5, ?table6, ?table7⟩, fun table is s acq screen =>
      readEntries_of_sound acq screen table is⟩
    case table1 =>
      intro i d0 d1 d2 d3 d4 d5 d6 d7 c s e
      obtain ⟨b7, b6, b5, b4⟩ := bitAt_eq d0
      refine ⟨b7, ?_, b5, b4, settleOfCode_at _ (Nat.mod_lt _ (by decide)), rfl, rfl, rfl, rfl, rfl, rfl, rfl, fun at_i => ?_⟩
      · rw [← b6]
        rfl
      · show (encodeAcq (readAcq i s).1, (readAcq i s).2) = _
        rw [readAcq_of_no_flip at_i, encodeAcq_decodeAcq]
        rfl
    case table2 =>
      intro i n d0 d1 d2 d3 d4 d5 d6 d7 d8 d9 d10 d11 c s e
      obtain ⟨b7, -⟩ := bitAt_eq d0
      obtain ⟨low, high⟩ := decodeScreen_fields d0 d1 d2 d3 d4 d5 d6 d7 d8 d9 d10 d11
      refine ⟨b7, testOfCode_at _ (Nat.mod_lt _ (by decide)), actionOfCode_at _ (Nat.mod_lt _ (by decide)), rfl, rfl, low, high,
        fun at_i => ?_⟩
      show (encodeScreen (readScreen i s).1, (readScreen i s).2) = _
      rw [readScreen_of_no_flip at_i, encodeScreen_decodeScreen]
      rfl
    case table3 =>
      intro v at_i
      show (encodeRecset (s.trc.recset.getD i none), s) = _
      rw [List.getD, at_i]
      cases v <;> rfl
    case table4 =>
      show (encodeStation s.slc.dir[i]?, s) = _
      cases s.slc.dir[i]? with
      | none => rfl
      | some e => rw [encodeStation_some]; rfl
    case table5 =>
      show (encodeDerate s.epu.derates[i]?, s) = _
      cases s.epu.derates[i]? with
      | none => rfl
      | some e => rw [encodeDerate_some, derateCauseCode_eq]; rfl
    case table6 =>
      show (encodeTrip s.epu.trips[i]?, s) = _
      cases s.epu.trips[i]? with
      | none => rfl
      | some e => rw [encodeTrip_some, tripCode_eq]; rfl
    case table7 =>
      intro cls k
      show (∀ e, i < 16 → k.results[i]? = some e → (gridTableEntry i s, s) = _)
        ∧ (16 ≤ i → i < 20 → (gridTableEntry i s, s) = _) ∧ (i = 20 → (gridTableEntry i s, s) = _)
      refine ⟨fun e below at_i => ?_, fun from16 below => ?_, ?_⟩
      · rw [gridTableEntry_of_string below at_i, encodeString_eq]
        rfl
      · rw [gridTableEntry_of_anomaly from16 below]
        cases s.rgv.check.anomalies[i - 16]? with
        | none => rfl
        | some e =>
          rw [encodeAnomaly_some]
          obtain ⟨grid, _, _, _⟩ := e
          cases grid <;> rfl
      · rintro rfl
        rw [gridTableEntry_of_summary]
        rfl

end Sys2Proof.Machine
end

section
/-! SUPPORT. The walk over the acquisition table and the skip of what is left of it (R48, R49, R55): what they can change, and
what they do to a table with no bit flipped. -/

namespace Sys2Proof.Machine

/-! ### Skipped entries (R47, R48) -/

/-- The MISSED item of an entry, when its signal is an input. -/
def missedItem (i : Nat) (e : AcqEntry) (c : MissCause) (n : Nat) : List Delivery :=
  if e.func = .read ∧ isInput e.signal = true then [⟨i, e.signal, n, .missed c⟩] else []

theorem missed_eq (i : Nat) (e : AcqEntry) (c : MissCause) (s : State) :
    missed i e c s = { s with slc.delivery := s.slc.delivery ++ missedItem i e c s.slc.frameNo } := by
  unfold missed missedItem
  split
  · rfl
  · rw [List.append_nil]

/-- Items join the delivery buffer and entries are counted as skipped. -/
def State.skipping (ds : List Delivery) (n : Nat) (s : State) : State := { s with
  slc.delivery := s.slc.delivery ++ ds
  hli.counters.entriesSkipped := Nat.repeat Counter.rise n s.hli.counters.entriesSkipped }

theorem skipEntry_eq (i : Nat) (e : AcqEntry) (c : MissCause) (s : State) :
    skipEntry i e c s = s.skipping (missedItem i e c s.slc.frameNo) 1 := by
  rw [skipEntry, missed_eq]
  rfl

theorem repeat_add {α : Type} (f : α → α) (m n : Nat) (a : α) : Nat.repeat f (m + n) a = Nat.repeat f n (Nat.repeat f m a) := by
  induction n with
  | zero => rfl
  | succ n ih => exact congrArg f ih

theorem skipping_skipping (ds ds' : List Delivery) (n n' : Nat) (s : State) :
    (s.skipping ds n).skipping ds' n' = s.skipping (ds ++ ds') (n + n') := by
  simp only [State.skipping, List.append_assoc, repeat_add]

theorem skipping_nil (s : State) : s.skipping [] 0 = s := by
  simp only [State.skipping, List.append_nil, Nat.repeat]

/-! ### What a walk can change -/

/-- Items of missed inputs, with causes that `P` allows, have joined the delivery buffer. -/
def MissedJoin (P : MissCause → Prop) (t s : State) : Prop :=
  ∃ more, t.slc.delivery = s.slc.delivery ++ more ∧ ∀ d ∈ more, d.frame = s.slc.frameNo ∧ ∃ c, P c ∧ d.result = .missed c

/-- What a walk changes: the table and its memory's guard, where the pass stands, missed inputs, the count of skipped
entries. -/
structure WalkStep (P : MissCause → Prop) (t s : State) : Prop where
  moves : PassMoves t s
  slc : t.slc = { s.slc with acq := t.slc.acq, delivery := t.slc.delivery, run := t.slc.run, passIdx := t.slc.passIdx }
  counters : t.hli.counters = { s.hli.counters with entriesSkipped := t.hli.counters.entriesSkipped }
  skipped : t.hli.firstSkipped = s.hli.firstSkipped
  missed : MissedJoin P t s

namespace WalkStep
variable {P : MissCause → Prop}

theorem frameNo {t s : State} (h : WalkStep P t s) : t.slc.frameNo = s.slc.frameNo := by rw [h.slc]

theorem phase {t s : State} (h : WalkStep P t s) : t.slc.phase = s.slc.phase := by rw [h.slc]

theorem slots {t s : State} (h : WalkStep P t s) : t.slc.slots = s.slc.slots := by rw [h.slc]

theorem trans {u t s : State} (h : WalkStep P u t) (h' : WalkStep P t s) : WalkStep P u s := by
  refine ⟨h.moves.trans h'.moves, ?_, ?_, h.skipped.trans h'.skipped, ?_⟩
  · rw [h.slc, h'.slc]
  · rw [h.counters, h'.counters]
  · obtain ⟨more, joined, told⟩ := h.missed
    obtain ⟨more', joined', told'⟩ := h'.missed
    refine ⟨more' ++ more, by rw [joined, joined', List.append_assoc], fun d mem => ?_⟩
    obtain first | last := List.mem_append.1 mem
    · exact told' d first
    · rw [← h'.frameNo]
      exact told d last

/-- Where the pass stands. -/
theorem of_run (s : State) (run : Option Run) (idx : Nat) :
    WalkStep P { s with slc.run := run, slc.passIdx := idx } s :=
  ⟨.of_pass s s.slc.delivery run idx s.slc.slots s.slc.phase, rfl, rfl, rfl, [], by simp⟩

theorem refl (s : State) : WalkStep P s s := of_run s s.slc.run s.slc.passIdx

end WalkStep

section
variable {P : MissCause → Prop}

theorem missed_step {e : AcqEntry} {c : MissCause} (allowed : e.func = .read → P c) (i : Nat) (s : State) :
    WalkStep P (missed i e c s) s := by
  refine ⟨missed_moves i e c s, ?_, ?_, ?_, missedItem i e c s.slc.frameNo, ?_, fun d mem => ?_⟩
  · rw [missed_eq]
  · rw [missed_eq]
  · rw [missed_eq]
  · rw [missed_eq]
  · unfold missedItem at mem
    split at mem
    · rename_i input
      rw [List.mem_singleton.1 mem]
      exact ⟨rfl, c, allowed input.1, rfl⟩
    · exact absurd mem (by simp)

theorem skipEntry_step {e : AcqEntry} {c : MissCause} (allowed : e.func = .read → P c) (i : Nat) (s : State) :
    WalkStep P (skipEntry i e c s) s := by
  have told := missed_step (P := P) allowed i s
  refine ⟨skipEntry_moves i e c s, ?_, ?_, ?_, told.missed⟩
  · rw [skipEntry_eq]
    rfl
  · rw [skipEntry_eq]
    rfl
  · rw [skipEntry_eq]
    rfl

theorem readAcq_step (i : Nat) (s : State) : WalkStep P (readAcq i s).2 s := by
  have slc := readAcq_slc i s
  refine ⟨readAcq_moves i s, ?_, ?_, ?_, [], ?_, by simp⟩
  · rw [slc]
  · unfold readAcq
    (repeat' split) <;> rfl
  · unfold readAcq
    (repeat' split) <;> rfl
  · rw [slc, List.append_nil]

theorem due_func {f : Func} {n : Nat} {e : AcqEntry} (is_due : due f n e = true) : e.func = f := by
  simp only [due, Bool.and_eq_true, beq_iff_eq] at is_due
  exact is_due.1.2

theorem walk_step {f : Func} (allowed : f = .read → P .corrupt ∧ P .loopDown ∧ P .excluded) (is : List Nat) (s : State) :
    WalkStep P (walk f is s) s := by
  induction is generalizing s with
  | nil => exact .of_run s none 64
  | cons i is ih =>
    have read := readAcq_step (P := P) i s
    unfold walk
    generalize readAcq i s = q at read ⊢
    obtain ⟨e, u⟩ := q
    dsimp only at read ⊢
    by_cases is_due : due f u.slc.frameNo e = true
    · have of_read : e.func = .read → P .corrupt ∧ P .loopDown ∧ P .excluded := fun reads =>
        allowed ((due_func is_due).symm.trans reads)
      rw [if_pos is_due]
      split_ifs
      · exact (ih _).trans ((skipEntry_step (fun reads => (of_read reads).1) i u).trans read)
      · exact (ih _).trans ((skipEntry_step (fun reads => (of_read reads).2.1) i u).trans read)
      · exact (ih _).trans ((skipEntry_step (fun reads => (of_read reads).2.2) i u).trans read)
      · exact (WalkStep.of_run u _ _).trans read
    · rw [if_neg is_due]
      exact (ih u).trans read

theorem skipAll_step {f : Func} {c : MissCause} (allowed : f = .read → P .corrupt ∧ P c) (is : List Nat) (s : State) :
    WalkStep P (skipAll f c is s) s := by
  induction is generalizing s with
  | nil => exact .of_run s none 64
  | cons i is ih =>
    have read := readAcq_step (P := P) i s
    unfold skipAll
    generalize readAcq i s = q at read ⊢
    obtain ⟨e, u⟩ := q
    dsimp only at read ⊢
    by_cases is_due : due f u.slc.frameNo e = true
    · rw [if_pos is_due]
      refine (ih _).trans ((skipEntry_step (fun reads => ?_) i u).trans read)
      obtain ⟨corrupt, cause⟩ := allowed ((due_func is_due).symm.trans reads)
      split
      · exact corrupt
      · exact cause
    · rw [if_neg is_due]
      exact (ih u).trans read

end

/-- With no cause allowed the delivery buffer stays. -/
theorem WalkStep.delivery {t s : State} (h : WalkStep (fun _ => False) t s) : t.slc.delivery = s.slc.delivery := by
  obtain ⟨more, joined, told⟩ := h.missed
  have empty : more = [] := List.eq_nil_iff_forall_not_mem.2 fun d mem => by
    obtain ⟨-, c, never, -⟩ := told d mem
    exact never
  rw [joined, empty, List.append_nil]

/-- A walk ends with no run, or with one of an index walked over, not begun. -/
theorem walk_run (f : Func) (is : List Nat) (s : State) : (walk f is s).slc.run = none
    ∨ ∃ i e, i ∈ is ∧ (walk f is s).slc.run = some ⟨i, e, false, 0, 0, none⟩ ∧ (walk f is s).slc.passIdx = i + 1 := by
  induction is generalizing s with
  | nil => exact .inl rfl
  | cons i is ih =>
    have behind : ∀ u, (walk f is u).slc.run = none ∨ ∃ j e, j ∈ i :: is
        ∧ (walk f is u).slc.run = some ⟨j, e, false, 0, 0, none⟩ ∧ (walk f is u).slc.passIdx = j + 1 := fun u => by
      obtain ended | ⟨j, e, mem, run, idx⟩ := ih u
      · exact .inl ended
      · exact .inr ⟨j, e, List.mem_cons_of_mem _ mem, run, idx⟩
    unfold walk
    generalize readAcq i s = q
    obtain ⟨e, u⟩ := q
    dsimp only
    split_ifs
    · exact behind _
    · exact behind _
    · exact behind _
    · exact .inr ⟨i, e, List.mem_cons_self .., rfl, rfl⟩
    · exact behind u

theorem skipAll_run (f : Func) (c : MissCause) (is : List Nat) (s : State) : (skipAll f c is s).slc.run = none := by
  induction is generalizing s with
  | nil => rfl
  | cons i is ih =>
    unfold skipAll
    generalize readAcq i s = q
    obtain ⟨e, u⟩ := q
    dsimp only
    split
    · exact ih _
    · exact ih u

/-! ### A table with no bit flipped -/

/-- The due entries among the given indices. -/
def dueAmong (f : Func) (is : List Nat) (s : State) : List Nat :=
  is.filter fun j => due f s.slc.frameNo (entryAt j s)

/-- The items of entries skipped with the causes given. -/
def itemsOf (cause : Nat → MissCause) (js : List Nat) (s : State) : List Delivery :=
  js.flatMap fun j => missedItem j (entryAt j s) (cause j) s.slc.frameNo

theorem SoundAcq.skipping {s : State} (sound : SoundAcq s) (ds : List Delivery) (n : Nat) : SoundAcq (s.skipping ds n) := sound

theorem skipAll_of_sound {s : State} (sound : SoundAcq s) (f : Func) (c : MissCause) (is : List Nat) :
    skipAll f c is s = { s.skipping (itemsOf (fun j => if (entryAt j s).corrupt then .corrupt else c) (dueAmong f is s) s)
      (dueAmong f is s).length with slc.run := none, slc.passIdx := 64 } := by
  induction is generalizing s with
  | nil => simp [skipAll, dueAmong, itemsOf, skipping_nil]
  | cons i is ih =>
    rw [skipAll, readAcq_of_sound sound]
    dsimp only
    by_cases is_due : due f s.slc.frameNo (entryAt i s) = true
    · have among : dueAmong f (i :: is) s = i :: dueAmong f is s := List.filter_cons_of_pos is_due
      have behind : ∀ ds n, dueAmong f is (s.skipping ds n) = dueAmong f is s := fun _ _ => rfl
      rw [if_pos is_due, skipEntry_eq, ih (sound.skipping _ _), skipping_skipping, among, behind, List.length_cons, Nat.add_comm]
      rfl
    · have among : dueAmong f (i :: is) s = dueAmong f is s := List.filter_cons_of_neg is_due
      rw [if_neg is_due, ih sound, among]

/-- A due entry that a walk skips. -/
def Blocked (j : Nat) (s : State) : Prop :=
  (entryAt j s).corrupt = true ∨ s.slc.loopLost = true ∨ allExcluded (entryAt j s) s = true

/-- The cause with which a walk skips an entry. -/
def walkCause (s : State) (j : Nat) : MissCause :=
  if (entryAt j s).corrupt then .corrupt else if s.slc.loopLost then .loopDown else .excluded

section
variable {s : State} {f : Func}

theorem walk_of_blocked (sound : SoundAcq s) {i : Nat} {is : List Nat} (is_due : due f s.slc.frameNo (entryAt i s) = true)
    (blocked : Blocked i s) :
    walk f (i :: is) s = walk f is (s.skipping (missedItem i (entryAt i s) (walkCause s i) s.slc.frameNo) 1) := by
  rw [walk, readAcq_of_sound sound]
  dsimp only
  rw [if_pos is_due, ← skipEntry_eq, walkCause]
  by_cases corrupt : (entryAt i s).corrupt = true
  · rw [if_pos corrupt, if_pos corrupt]
  rw [if_neg corrupt, if_neg corrupt]
  by_cases lost : s.slc.loopLost = true
  · rw [if_pos lost, if_pos lost]
  · rw [if_neg lost, if_neg lost, if_pos (blocked.elim (absurd · corrupt) (·.elim (absurd · lost) id))]

theorem walk_of_not_due (sound : SoundAcq s) {i : Nat} {is : List Nat}
    (not_due : ¬ due f s.slc.frameNo (entryAt i s) = true) : walk f (i :: is) s = walk f is s := by
  rw [walk, readAcq_of_sound sound]
  exact if_neg not_due

theorem walk_of_free (sound : SoundAcq s) {i : Nat} {is : List Nat} (is_due : due f s.slc.frameNo (entryAt i s) = true)
    (free : ¬ Blocked i s) :
    walk f (i :: is) s = { s with slc.run := some ⟨i, entryAt i s, false, 0, 0, none⟩, slc.passIdx := i + 1 } := by
  obtain ⟨sound_entry, rest⟩ := not_or.1 free
  obtain ⟨loop, stations⟩ := not_or.1 rest
  rw [walk, readAcq_of_sound sound]
  dsimp only
  rw [if_pos is_due, if_neg sound_entry, if_neg loop, if_neg stations]

/-- A walk over entries that it all skips goes on behind them. -/
theorem walk_append (sound : SoundAcq s) (is js : List Nat)
    (blocked : ∀ j ∈ dueAmong f is s, Blocked j s) :
    walk f (is ++ js) s = walk f js (s.skipping (itemsOf (walkCause s) (dueAmong f is s) s) (dueAmong f is s).length) := by
  induction is generalizing s with
  | nil => simp [dueAmong, itemsOf, skipping_nil]
  | cons i is ih =>
    by_cases is_due : due f s.slc.frameNo (entryAt i s) = true
    · have among : dueAmong f (i :: is) s = i :: dueAmong f is s := List.filter_cons_of_pos is_due
      have behind : ∀ ds n, dueAmong f is (s.skipping ds n) = dueAmong f is s := fun _ _ => rfl
      rw [among] at blocked ⊢
      rw [List.cons_append, walk_of_blocked sound is_due (blocked i (List.mem_cons_self ..)), ih (sound.skipping _ _)
        fun j mem => blocked j (List.mem_cons_of_mem _ mem), skipping_skipping, behind, List.length_cons, Nat.add_comm]
      rfl
    · have among : dueAmong f (i :: is) s = dueAmong f is s := List.filter_cons_of_neg is_due
      rw [among] at blocked ⊢
      rw [List.cons_append, walk_of_not_due sound is_due, ih sound blocked]

/-- A walk that skips every due entry ends. -/
theorem walk_of_all_blocked (sound : SoundAcq s) (is : List Nat) (blocked : ∀ j ∈ dueAmong f is s, Blocked j s) :
    walk f is s = { s.skipping (itemsOf (walkCause s) (dueAmong f is s) s) (dueAmong f is s).length with
      slc.run := none, slc.passIdx := 64 } := by
  have ended := walk_append sound is [] blocked
  rwa [List.append_nil] at ended

/-- A walk stops at the first due entry that it does not skip, or ends. -/
theorem walk_cases (s : State) (f : Func) (is : List Nat) : (∀ j ∈ dueAmong f is s, Blocked j s)
    ∨ ∃ before i behind, is = before ++ i :: behind ∧ (∀ j ∈ dueAmong f before s, Blocked j s)
      ∧ due f s.slc.frameNo (entryAt i s) = true ∧ ¬ Blocked i s := by
  induction is with
  | nil => exact .inl (by simp [dueAmong])
  | cons i is ih =>
    by_cases is_due : due f s.slc.frameNo (entryAt i s) = true
    · by_cases blocked : Blocked i s
      · have among : ∀ l, dueAmong f (i :: l) s = i :: dueAmong f l s := fun _ => List.filter_cons_of_pos is_due
        obtain all | ⟨before, j, behind, rfl, skipped, j_due, free⟩ := ih
        · refine .inl fun j mem => ?_
          rw [among] at mem
          obtain rfl | mem := List.mem_cons.1 mem
          · exact blocked
          · exact all j mem
        · refine .inr ⟨i :: before, j, behind, rfl, fun k mem => ?_, j_due, free⟩
          rw [among] at mem
          obtain rfl | mem := List.mem_cons.1 mem
          · exact blocked
          · exact skipped k mem
      · exact .inr ⟨[], i, is, rfl, by simp [dueAmong], is_due, blocked⟩
    · have among : ∀ l, dueAmong f (i :: l) s = dueAmong f l s := fun _ => List.filter_cons_of_neg is_due
      obtain all | ⟨before, j, behind, rfl, skipped, j_due, free⟩ := ih
      · exact .inl (by rw [among]; exact all)
      · exact .inr ⟨i :: before, j, behind, rfl, by rw [among]; exact skipped, j_due, free⟩

end

/-! ### The pass moves on to its next entry, or ends (R48, R51) -/

/-- The acquisition pass stands at a run, or has ended. -/
def AcqStands (run : Option Run) (phase : Phase) : Prop := phase = .acq ∧ run.isSome ∨ phase = .acqEnded ∧ run = none

theorem advance_of_acq {P : MissCause → Prop} (allowed : P .corrupt ∧ P .loopDown ∧ P .excluded) {s : State}
    (acq : s.slc.phase = .acq) :
    ∃ u phase, WalkStep P u s ∧ advance s = { u with slc.phase := phase } ∧ AcqStands u.slc.run phase := by
  have step := walk_step (P := P) (f := passFunc s) (fun _ => allowed) (indicesFrom s.slc.passIdx) s
  unfold advance
  generalize walk (passFunc s) (indicesFrom s.slc.passIdx) s = u at step
  have u_acq : u.slc.phase = .acq := step.phase.trans acq
  unfold endIfOver
  by_cases runs : u.slc.run.isSome = true
  · rw [if_pos runs]
    refine ⟨u, .acq, step, ?_, .inl ⟨rfl, runs⟩⟩
    rw [← u_acq]
  · rw [if_neg runs, u_acq]
    exact ⟨u, .acqEnded, step, rfl, .inr ⟨rfl, by simpa using runs⟩⟩

theorem advance_of_dispatch {s : State} (dispatch : s.slc.phase = .dispatch) :
    ∃ u, WalkStep (fun _ => False) u s ∧ u = walk .write (indicesFrom s.slc.passIdx) s
      ∧ (u.slc.run.isSome = true ∧ advance s = u ∨ u.slc.run = none ∧ advance s = beginService u) := by
  have func : passFunc s = .write := by simp [passFunc, dispatch]
  have step := walk_step (P := fun _ => False) (f := .write) (by simp) (indicesFrom s.slc.passIdx) s
  refine ⟨_, step, rfl, ?_⟩
  unfold advance
  rw [func]
  generalize walk .write (indicesFrom s.slc.passIdx) s = u at step
  unfold endIfOver
  by_cases runs : u.slc.run.isSome = true
  · rw [if_pos runs]
    exact .inl ⟨runs, rfl⟩
  · rw [if_neg runs, step.phase.trans dispatch]
    exact .inr ⟨by simpa using runs, rfl⟩

end Sys2Proof.Machine
end

section
/-! PROOF. A frame start (R31, R39, R48, R55, R167). -/

namespace Sys2Proof.Machine

/-! ### The recording event leaves the passes (R167) -/

/-- The passes, the governing state and the outputs stay, no flag goes, and FRAME_OVERRUNS stays. -/
structure RecordStep (t s : State) : Prop where
  slc : t.slc = s.slc
  dsc : t.dsc = s.dsc
  out : t.out = s.out
  flags : KeepsFlags t s
  overruns : t.hli.counters.frameOverruns = s.hli.counters.frameOverruns

theorem RecordStep.trans {u t s : State} (h : RecordStep u t) (h' : RecordStep t s) : RecordStep u s :=
  ⟨h.slc.trans h'.slc, h.dsc.trans h'.dsc, h.out.trans h'.out, h.flags.trans h'.flags, h.overruns.trans h'.overruns⟩

theorem RecordStep.of_hli {t s : State} (slc : t.slc = s.slc) (dsc : t.dsc = s.dsc) (out : t.out = s.out)
    (flags : t.hli.flags = s.hli.flags) (counters : t.hli.counters = s.hli.counters) : RecordStep t s :=
  ⟨slc, dsc, out, keepsFlags_of_flags flags, by rw [counters]⟩

theorem RecordStep.refl (s : State) : RecordStep s s := .of_hli rfl rfl rfl rfl rfl

theorem latch_recordStep (f : Flag) (s : State) : RecordStep (latch f s) s := ⟨rfl, rfl, rfl, keepsFlags_of_or rfl, rfl⟩

theorem notify_recordStep (n : Notice) (s : State) : RecordStep (notify n s) s := by
  refine ⟨by simp, by simp, by simp, notify_keepsFlags n s, ?_⟩
  obtain same | queued | dropped := notify_hli n s
  · rw [same]
  · rw [queued]
  · rw [dropped]
    rfl

theorem noteCorrected_recordStep (m : Mem) (a : Nat) (s : State) : RecordStep (noteCorrected m a s) s :=
  ⟨rfl, rfl, rfl, keepsFlags_of_or rfl, rfl⟩

theorem noteUncorrectable_recordStep (m : Mem) (a : Nat) (s : State) : RecordStep (noteUncorrectable m a s) s :=
  ⟨rfl, rfl, rfl, keepsFlags_of_or rfl, rfl⟩

theorem readImage_recordStep (id : Nat) (s : State) : RecordStep (readImage id s).2 s := by
  unfold readImage
  split
  · exact .refl s
  · split
    · exact .refl s
    · exact (noteCorrected_recordStep ..).trans (.of_hli rfl rfl rfl rfl rfl)
    · have latched : ∀ b u, RecordStep (latchIf b .signalBad u) u := fun b u => by
        cases b
        · exact .refl u
        · exact latch_recordStep ..
      exact (latched ..).trans ((noteUncorrectable_recordStep ..).trans (.of_hli rfl rfl rfl rfl rfl))

theorem recordedSignals_recordStep (n : Nat) (ids : List Nat) (s : State) : RecordStep (recordedSignals n ids s).2 s := by
  have signal : ∀ id u, RecordStep (recordedSignal id n u).2 u := fun id u => by
    unfold recordedSignal
    split_ifs
    · exact readImage_recordStep id u
    · exact .refl u
    · exact .refl u
    · exact .refl u
  induction ids generalizing s with
  | nil => exact .refl s
  | cons id ids ih => exact (ih _).trans (signal id s)

theorem recordWords_recordStep (n : Nat) (s : State) : RecordStep (recordWords n s).2 s := recordedSignals_recordStep ..

theorem joinRecord_recordStep (ws : List RingWord) (s : State) : RecordStep (joinRecord ws s) s := by
  obtain ⟨fs, n, -, -, joined⟩ := joinRecord_spec ws s
  rw [joined]
  exact .of_hli rfl rfl rfl rfl rfl

theorem readRingWord_recordStep (p w : Nat) (s : State) : RecordStep (readRingWord p w s).2.2 s := by
  unfold readRingWord
  (repeat' split)
  · exact .refl s
  · exact .refl s
  · exact .refl s
  · exact (noteCorrected_recordStep ..).trans (.of_hli rfl rfl rfl rfl rfl)
  · exact noteUncorrectable_recordStep ..

theorem readRecords_recordStep (ps : List Nat) (s : State) : RecordStep (readRecords ps s).2 s := by
  have words : ∀ p ws u, RecordStep (readRingWords p ws u).2.2 u := fun p ws => by
    induction ws with
    | nil => exact .refl
    | cons w ws ih => exact fun u => (ih _).trans (readRingWord_recordStep p w u)
  induction ps generalizing s with
  | nil => exact .refl s
  | cons p ps ih => exact (ih _).trans (words p _ s)

theorem blockReady_recordStep (s : State) : RecordStep (blockReady s) s := by
  have announced : RecordStep (notify .blockReady { s with trc.announced := true }) s :=
    (notify_recordStep ..).trans (.of_hli rfl rfl rfl rfl rfl)
  have answered : ∀ b u, RecordStep (deferredReply b u) u := fun b u => by
    unfold deferredReply
    split <;> exact .of_hli rfl rfl rfl rfl rfl
  have taken : ∀ n u, RecordStep (takeUnread n u).2 u := fun n u =>
    .trans (t := (readRecords _ u).2) (.of_hli rfl rfl rfl rfl rfl) (readRecords_recordStep _ u)
  unfold blockReady
  dsimp only
  split
  · exact (answered ..).trans ((taken ..).trans announced)
  · exact announced

theorem streamRecord_recordStep (ws : List RingWord) (s : State) : RecordStep (streamRecord ws s) s := by
  unfold streamRecord
  dsimp only
  split_ifs
  · exact (latch_recordStep ..).trans (.trans (t := joinRecord ws s) ⟨rfl, rfl, rfl, keepsFlags_of_flags rfl, rfl⟩
      (joinRecord_recordStep ws s))
  · exact (blockReady_recordStep _).trans ((joinRecord_recordStep ..).trans (.of_hli rfl rfl rfl rfl rfl))
  · exact (joinRecord_recordStep ..).trans (.of_hli rfl rfl rfl rfl rfl)

theorem captureRecord_recordStep (ws : List RingWord) (s : State) : RecordStep (captureRecord ws s) s := by
  have frozen : ∀ u, RecordStep (freeze u) u := fun u => by
    unfold freeze
    dsimp only
    split
    · exact (notify_recordStep ..).trans (.of_hli rfl rfl rfl rfl rfl)
    · exact .of_hli rfl rfl rfl rfl rfl
  unfold captureRecord
  dsimp only
  split_ifs
  · exact (frozen _).trans (joinRecord_recordStep ws s)
  · exact .trans (t := joinRecord ws s) (.of_hli rfl rfl rfl rfl rfl) (joinRecord_recordStep ws s)
  · exact joinRecord_recordStep ws s

theorem recordFrame_recordStep (s : State) : RecordStep (recordFrame s) s := by
  unfold recordFrame
  dsimp only
  split_ifs
  · exact (captureRecord_recordStep ..).trans (recordWords_recordStep _ s)
  · exact (streamRecord_recordStep ..).trans (recordWords_recordStep _ s)
  · exact .refl s

/-! ### The passes of the frame that ends (R55; log 9) -/

theorem endPasses_of_over {s : State} (over' : s.slc.phase = .idle ∨ s.slc.phase = .done) : endPasses s = s := if_pos over'

theorem endPasses_of_unfinished {s : State} (unfinished : ¬ (s.slc.phase = .idle ∨ s.slc.phase = .done)) :
    ∃ u, WalkStep (fun _ => False) u s ∧ endPasses s = { u with
      slc.slot := u.slc.slot.map orphanPass
      hli.counters.frameOverruns := u.hli.counters.frameOverruns.rise, hli.flags := u.hli.flags ||| Flag.frameOverrun.mask } :=
  ⟨_, skipAll_step (f := .write) (c := .overrun) (by simp) (unbegunWrites s) s, if_neg unfinished⟩

/-- The due entries of an unfinished frame that have not begun. -/
def overrunEntries (s : State) : List Nat := dueAmong .write (unbegunWrites s) s

/-- Unfinished passes have ended with a frame overrun, and `n` of their entries were skipped. -/
def State.passesOverrun (n : Nat) (s : State) : State := { s with
  slc.run := none, slc.passIdx := 64, slc.slot := s.slc.slot.map orphanPass
  hli.flags := s.hli.flags ||| Flag.frameOverrun.mask
  hli.counters.entriesSkipped := Nat.repeat Counter.rise n s.hli.counters.entriesSkipped
  hli.counters.frameOverruns := s.hli.counters.frameOverruns.rise }

theorem endPasses_of_sound {s : State} (sound : SoundAcq s) (unfinished : ¬ (s.slc.phase = .idle ∨ s.slc.phase = .done)) :
    endPasses s = s.passesOverrun (overrunEntries s).length := by
  have no_items : ∀ cause, itemsOf cause (dueAmong .write (unbegunWrites s) s) s = [] := fun cause => by
    refine List.flatMap_eq_nil_iff.2 fun j mem => if_neg fun reads => ?_
    have is_due : due .write s.slc.frameNo (entryAt j s) = true := (List.mem_filter.1 mem).2
    rw [due_func is_due] at reads
    exact absurd reads.1 (by decide)
  rw [endPasses, if_neg unfinished, skipAll_of_sound sound, no_items]
  simp only [State.skipping, List.append_nil]
  rfl

theorem due_entryAt (f : Func) (n i : Nat) (s : State) : due f n (entryAt i s) =
    ((s.slc.acq[i]?).map fun p => p.val.valid && p.val.func == f && n % p.val.divisor == p.val.phase).getD false := by
  unfold entryAt
  cases s.slc.acq[i]? <;> rfl

/-! ### The next frame begins (R39, R48) -/

/-- The next frame, its acquisition pass not yet begun. -/
def State.nextFrame (s : State) : State := { s with
  slc.frameNo := (s.slc.frameNo + 1) % 2 ^ 48, slc.firstFrame := false, slc.delivery := []
  slc.loopLost := s.slc.loopState != .up, slc.markReached := false }

/-- The condition posting and the recording event of the frame that ends (R31, R167). -/
def recordEnded (s : State) : State :=
  if s.slc.firstFrame then s else recordFrame { s with slc.posting := some (slcPosting s) }

theorem recordEnded_step (s : State) :
    RecordStep (recordEnded s) { s with slc.posting := if s.slc.firstFrame then s.slc.posting else some (slcPosting s) } := by
  unfold recordEnded
  split
  · exact .refl s
  · exact recordFrame_recordStep _

theorem exec_frameStart {s : State} (live : Live s) (timer : s.slc.frameTimer = true) :
    exec .frameStart s = .next (beginAcq (recordEnded (endPasses s)).nextFrame) := by
  refine (live_of_run frameStart live).trans (congrArg _ ?_)
  rw [frameStart, if_pos timer]
  rfl

theorem beginAcq_step (s : State) : ∃ u phase, WalkStep (fun _ => True) u
      { s with slc.phase := .acq, slc.slots := 0, slc.passIdx := 0, slc.run := none }
    ∧ beginAcq s = { u with slc.phase := phase } ∧ AcqStands u.slc.run phase :=
  advance_of_acq ⟨trivial, trivial, trivial⟩ rfl

/-! ### A frame start (R39) -/

/-- What the unfinished passes leave as they end. -/
structure PassesEnded (t s : State) : Prop where
  slc : t.slc = { s.slc with
    acq := t.slc.acq, delivery := t.slc.delivery, run := t.slc.run, passIdx := t.slc.passIdx, slot := t.slc.slot }
  dsc : t.dsc = s.dsc
  out : t.out = s.out
  overrun : s.slc.phase ≠ .idle → s.slc.phase ≠ .done → standing .frameOverrun t = true
    ∧ t.hli.counters.frameOverruns = s.hli.counters.frameOverruns.rise
  finished : s.slc.phase = .idle ∨ s.slc.phase = .done → t.hli.counters.frameOverruns = s.hli.counters.frameOverruns

theorem endPasses_ended (s : State) : PassesEnded (endPasses s) s := by
  by_cases finished : s.slc.phase = .idle ∨ s.slc.phase = .done
  · rw [endPasses_of_over finished]
    exact ⟨rfl, rfl, rfl, fun not_idle not_done => absurd finished (not_or.2 ⟨not_idle, not_done⟩), fun _ => rfl⟩
  · obtain ⟨u, step, ended⟩ := endPasses_of_unfinished finished
    obtain ⟨dsc, -, out, -⟩ := step.moves.frame
    refine ⟨?_, ?_, ?_, fun _ _ => ⟨?_, ?_⟩, fun h => absurd h finished⟩
    · rw [ended, step.slc]
    · rw [ended]
      exact dsc
    · rw [ended]
      exact out
    · rw [ended]
      exact standing_latch .frameOverrun _
    · rw [ended, step.counters]

/-- Settles O26. -/
theorem frameStartBeginsTheNextFrame : Obligations.FrameStartBeginsTheNextFrame := by
  unfold Obligations.FrameStartBeginsTheNextFrame
  refine ⟨fun s live => ⟨fun stopped => ?_, fun timer => ?_⟩, fun s live timer => ?_⟩
  · refine (live_of_run frameStart live).trans (congrArg _ ?_)
    rw [frameStart, stopped]
    rfl
  · have ended := endPasses_ended s
    have recorded := recordEnded_step (endPasses s)
    obtain ⟨u, phase, step, begun, stands⟩ := beginAcq_step (recordEnded (endPasses s)).nextFrame
    have frameNo : u.slc.frameNo = (s.slc.frameNo + 1) % 2 ^ 48 := by
      refine step.frameNo.trans ?_
      simp only [State.nextFrame]
      rw [recorded.slc, ended.slc]
    have first : u.slc.firstFrame = false := by rw [step.slc]; rfl
    have slots : u.slc.slots = 0 := step.slots
    have mark : u.slc.markReached = false := step.moves.stands.mark
    obtain ⟨u_dsc, -, u_out, -⟩ := step.moves.frame
    have queue : u.slc.queue = s.slc.queue := by
      refine step.moves.queue.1.trans ?_
      simp only [State.nextFrame]
      rw [recorded.slc, ended.slc]
    have firstFrame : (endPasses s).slc.firstFrame = s.slc.firstFrame := by rw [ended.slc]
    have posting : u.slc.posting = if s.slc.firstFrame then s.slc.posting else some (slcPosting (endPasses s)) := by
      rw [step.slc]
      simp only [State.nextFrame]
      rw [recorded.slc]
      dsimp only
      rw [firstFrame, ended.slc]
    have counted : u.hli.counters.frameOverruns = (endPasses s).hli.counters.frameOverruns := by
      rw [step.counters]
      exact recorded.overruns
    refine ⟨_, (exec_frameStart live timer).trans (congrArg _ begun), frameNo, first, stands, fun d mem => ?_, slots, mark,
      ?_, ?_, queue, fun not_first => ⟨slcPosting (endPasses s), ?_, ?_, ?_, ?_, ?_⟩, fun is_first => ?_,
      fun not_idle not_done => ?_, fun finished => counted.trans (ended.finished finished)⟩
    · obtain ⟨more, joined, told⟩ := step.missed
      have among : d ∈ more := by
        rw [show u.slc.delivery = more from joined] at mem
        exact mem
      rw [(told d among).1, ← frameNo, step.frameNo]
    · exact u_dsc.trans (recorded.dsc.trans ended.dsc)
    · exact u_out.trans (recorded.out.trans ended.out)
    · rw [posting, not_first]
      rfl
    · show (endPasses s).slc.loopState = _
      rw [ended.slc]
    · show (endPasses s).slc.loopLost = _
      rw [ended.slc]
    · show (endPasses s).slc.dir.countP _ = _
      rw [ended.slc]
    · show (endPasses s).slc.dir.countP _ = _
      rw [ended.slc]
    · rw [posting, is_first]
      rfl
    · obtain ⟨latched, count⟩ := ended.overrun not_idle not_done
      exact ⟨step.moves.stands.flags _ (recorded.flags _ latched), counted.trans count⟩
  · intro begun recorded unbegun skipped orphaned
    have begins : ∀ w, w.slc.frameNo = s.slc.frameNo → w.slc.loopState = s.slc.loopState →
        begun (recordEnded w) = beginAcq (recordEnded w).nextFrame := fun w frameNo loop => by
      have step := recordEnded_step w
      simp only [begun, State.nextFrame]
      rw [step.slc]
      dsimp only
      rw [frameNo, loop]
    have orphans : orphaned = orphanPass := by
      funext x
      obtain ⟨claim⟩ := x
      cases claim <;> rfl
    refine ⟨fun finished => ?_, fun not_idle not_done sound => ?_⟩
    · have starts := exec_frameStart live timer
      rw [endPasses_of_over finished, ← begins s rfl rfl] at starts
      exact starts
    · have entries : unbegun = unbegunWrites s := by
        simp only [unbegun, unbegunWrites]
        cases phase : s.slc.phase with
        | idle => exact absurd phase not_idle
        | done => exact absurd phase not_done
        | dispatch => cases s.slc.run <;> rfl
        | service => rfl
        | acq => exact List.range_eq_range'
        | acqEnded => exact List.range_eq_range'
        | published => exact List.range_eq_range'
      have count : (overrunEntries s).length = skipped := by
        simp only [skipped, overrunEntries, dueAmong, ← List.countP_eq_length_filter, entries]
        refine List.countP_congr fun i _ => ?_
        rw [due_entryAt]
        cases s.slc.acq[i]? <;> rfl
      have starts := exec_frameStart live timer
      rw [endPasses_of_sound sound (not_or.2 ⟨not_idle, not_done⟩), count, ← begins (s.passesOverrun skipped) rfl rfl] at starts
      rw [orphans]
      exact starts

end Sys2Proof.Machine
end

section
/-! PROOF. A pass whose budget is used up ends, and the dispatch mark begins the dispatch pass (R48, R49, R51, R177). -/

namespace Sys2Proof.Machine

/-! ### A pass is over (R48, R51) -/

/-- The acquisition or dispatch pass is over: the first waits for publication, the service pass begins after the second. -/
structure PassOver (t s : State) : Prop where
  run : t.slc.run = none
  acq : s.slc.phase = .acq → t.slc.phase = .acqEnded
  dispatch : s.slc.phase = .dispatch → t.slc.phase = (if s.slc.loopLost = true ∨ s.hli.force.serviceBudget = 0
    ∨ s.slc.queue = [] then .done else .service) ∧ t.slc.slots = 0
  dir : t.slc.dir = s.slc.dir
  out : t.out = s.out
  dsc : t.dsc = s.dsc

theorem endIfOver_over {v : State} (run : v.slc.run = none) : PassOver (endIfOver v) v := by
  unfold endIfOver
  rw [run]
  cases phase : v.slc.phase with
  | acq => exact ⟨run, fun _ => rfl, fun h => absurd (phase.symm.trans h) (by decide), rfl, rfl, rfl⟩
  | dispatch =>
    refine ⟨run, fun h => absurd (phase.symm.trans h) (by decide), fun _ => ⟨?_, rfl⟩, rfl, rfl, rfl⟩
    simp [beginService, or_assoc]
  | _ => exact ⟨run, fun h => absurd (phase.symm.trans h) (by decide), fun h => absurd (phase.symm.trans h) (by decide), rfl,
      rfl, rfl⟩

theorem PassOver.of_moves {t v s : State} (h : PassOver t v) (moves : PassMoves v s) (phase : v.slc.phase = s.slc.phase) :
    PassOver t s := by
  obtain ⟨dsc, -, out, -⟩ := moves.frame
  refine ⟨h.run, fun acq => h.acq (phase.trans acq), fun dispatch => ?_, h.dir.trans moves.stands.dir, h.out.trans out,
    h.dsc.trans dsc⟩
  have ended := h.dispatch (phase.trans dispatch)
  rwa [moves.loop.2.1, moves.stands.force, moves.queue.1] at ended

/-- The end of a pass leaves the delivery buffer and the host link. -/
theorem endIfOver_keeps (v : State) : (endIfOver v).slc.delivery = v.slc.delivery ∧ (endIfOver v).hli = v.hli := by
  unfold endIfOver beginService
  (repeat' split) <;> exact ⟨rfl, rfl⟩

/-! ### The budget is used up (R49) -/

/-- The pass ends at its budget with the run of an entry not ended. -/
def budgetOver (r : Run) (s : State) : State :=
  let v := skipAll (passFunc s) .budget (indicesFrom s.slc.passIdx) (skipEntry r.entry r.e .budget s)
  endIfOver (latch .passOverrun { v with hli.firstSkipped := s.hli.firstSkipped <|> some r.entry })

/-- What the end of a pass at its budget does with the run of an entry. -/
theorem budgetEnd_of_passCorrupt {v s : State} (corrupt : passCorrupt s = v) : (v.slc.run = none → budgetEnd s = v)
    ∧ ∀ r, v.slc.run = some r → budgetEnd s = budgetOver r v := by
  refine ⟨fun run => ?_, fun r run => ?_⟩
  · simp only [budgetEnd, corrupt, run]
  · have step := skipEntry_step (P := fun _ => True) (e := r.e) (c := .budget) (fun _ => trivial) r.entry v
    have idx : (skipEntry r.entry r.e .budget v).slc.passIdx = v.slc.passIdx := by
      rw [skipEntry_eq]
      rfl
    have func : passFunc (skipEntry r.entry r.e .budget v) = passFunc v := by simp only [passFunc, step.phase]
    have skipped : (skipAll (passFunc v) .budget (indicesFrom v.slc.passIdx)
        (skipEntry r.entry r.e .budget v)).hli.firstSkipped = v.hli.firstSkipped :=
      (skipAll_step (P := fun _ => True) (fun _ => ⟨trivial, trivial⟩) _ _).skipped.trans step.skipped
    simp only [budgetEnd, corrupt, run, idx, func, skipped, budgetOver]

section
variable (r : Run) (s : State)

/-- The remaining entries of the pass, skipped at its budget. -/
theorem budgetOver_step (P : MissCause → Prop) (allowed : P .corrupt ∧ P .budget) :
    WalkStep P (skipAll (passFunc s) .budget (indicesFrom s.slc.passIdx) (skipEntry r.entry r.e .budget s)) s :=
  (skipAll_step (fun _ => allowed) _ _).trans (skipEntry_step (fun _ => allowed.2) r.entry s)

theorem budgetOver_over : PassOver (budgetOver r s) s := by
  have step := budgetOver_step r s (fun _ => True) ⟨trivial, trivial⟩
  refine (endIfOver_over ?_).of_moves (.trans (t := skipAll (passFunc s) .budget (indicesFrom s.slc.passIdx)
    (skipEntry r.entry r.e .budget s)) ?_ step.moves) step.phase
  · exact skipAll_run (passFunc s) .budget (indicesFrom s.slc.passIdx) (skipEntry r.entry r.e .budget s)
  · exact ⟨(latch_stands ..).trans (.of_eq rfl rfl rfl rfl rfl ⟨rfl, rfl⟩ (keepsFlags_of_flags rfl)), by simp, rfl, rfl,
      rfl, ⟨rfl, rfl⟩, rfl, ⟨rfl, rfl⟩, rfl, rfl, rfl⟩

/-- PASS_OVERRUN is latched and the entry is captured unless one is held. -/
theorem budgetOver_overrun : standing .passOverrun (budgetOver r s) = true
    ∧ (budgetOver r s).hli.firstSkipped = (s.hli.firstSkipped <|> some r.entry) := by
  unfold budgetOver
  dsimp only
  refine ⟨?_, ?_⟩
  · rw [standing, (endIfOver_keeps _).2]
    exact standing_latch .passOverrun _
  · rw [(endIfOver_keeps _).2]
    rfl

theorem budgetOver_causes : ∀ d ∈ (budgetOver r s).slc.delivery,
    d ∈ s.slc.delivery ∨ d.result = .missed .budget ∨ d.result = .missed .corrupt := by
  have step := budgetOver_step r s (fun c => c = .budget ∨ c = .corrupt) ⟨.inr rfl, .inl rfl⟩
  obtain ⟨more, joined, told⟩ := step.missed
  intro d mem
  rw [budgetOver, (endIfOver_keeps _).1] at mem
  change d ∈ (skipAll (passFunc s) .budget (indicesFrom s.slc.passIdx) (skipEntry r.entry r.e .budget s)).slc.delivery at mem
  rw [joined] at mem
  obtain before | last := List.mem_append.1 mem
  · exact .inl before
  · obtain ⟨-, c, budget | corrupt, result⟩ := told d last
    · exact .inr (.inl (budget ▸ result))
    · exact .inr (.inr (corrupt ▸ result))

/-- The cause with which an entry is skipped at the end of its pass. -/
def budgetCause (s : State) (j : Nat) : MissCause := if (entryAt j s).corrupt then .corrupt else .budget

theorem budgetOver_of_sound {s : State} (sound : SoundAcq s) :
    (budgetOver r s).slc.delivery = s.slc.delivery ++ (missedItem r.entry r.e .budget s.slc.frameNo
        ++ itemsOf (budgetCause s) (dueAmong (passFunc s) (indicesFrom s.slc.passIdx) s) s)
      ∧ (budgetOver r s).hli.counters = { s.hli.counters with
          entriesSkipped := Nat.repeat Counter.rise (1 + (dueAmong (passFunc s) (indicesFrom s.slc.passIdx) s).length)
            s.hli.counters.entriesSkipped } := by
  rw [budgetOver, (endIfOver_keeps _).1, (endIfOver_keeps _).2, skipEntry_eq, skipAll_of_sound (sound.skipping _ _),
    skipping_skipping]
  exact ⟨rfl, rfl⟩

end

/-! ### An entry marked CORRUPT when its turn came (R177; log 31) -/

/-- The item of an entry marked CORRUPT before its run began, when its stored fields make it due. -/
def corruptItems (r : Run) (s : State) : List Delivery :=
  if due (passFunc s) s.slc.frameNo (entryAt r.entry s) = true then missedItem r.entry (entryAt r.entry s) .corrupt s.slc.frameNo
  else []

/-- The skip of an entry marked CORRUPT before its run began. -/
def corruptSkips (r : Run) (s : State) : Nat := if due (passFunc s) s.slc.frameNo (entryAt r.entry s) = true then 1 else 0

section
variable {r : Run} {s : State}

theorem runCorrupt_of_unbegun (unbegun : r.begun = false) :
    runCorrupt r s = s.skipping (corruptItems r s) (corruptSkips r s) := by
  unfold runCorrupt corruptItems corruptSkips
  dsimp only
  rw [unbegun, if_neg Bool.false_ne_true]
  split_ifs
  · exact skipEntry_eq ..
  · exact (skipping_nil s).symm

theorem passCorrupt_of_runs (run : s.slc.run = some r) (runs : r.begun = true ∨ (entryAt r.entry s).corrupt = false) :
    passCorrupt s = s := by
  unfold passCorrupt
  rw [run]
  exact if_neg (by obtain begun | sound := runs <;> simp [*])

theorem passCorrupt_of_corrupt (run : s.slc.run = some r) (unbegun : r.begun = false)
    (corrupt : (entryAt r.entry s).corrupt = true) : passCorrupt s =
      endIfOver (walk (passFunc s) (indicesFrom s.slc.passIdx) (s.skipping (corruptItems r s) (corruptSkips r s))) := by
  unfold passCorrupt
  rw [run]
  refine (if_pos (by simp [unbegun, corrupt])).trans ?_
  rw [runCorrupt_of_unbegun unbegun]
  rfl

/-- With a run left the pass goes on, else it is over. -/
theorem endIfOver_of_some {v : State} (run : v.slc.run = some r) : endIfOver v = v := if_pos (by rw [run]; rfl)

theorem budgetEnd_over_of_corrupt (run : s.slc.run = some r) (unbegun : r.begun = false)
    (corrupt : (entryAt r.entry s).corrupt = true) : PassOver (budgetEnd s) s := by
  have met := passCorrupt_of_corrupt run unbegun corrupt
  have skipped : PassMoves (s.skipping (corruptItems r s) (corruptSkips r s)) s := by
    rw [← runCorrupt_of_unbegun unbegun]
    exact runCorrupt_moves r s
  obtain ⟨moves, phase⟩ := walk_moves (passFunc s) (indicesFrom s.slc.passIdx) (s.skipping (corruptItems r s) (corruptSkips r s))
  generalize walk (passFunc s) (indicesFrom s.slc.passIdx) (s.skipping (corruptItems r s) (corruptSkips r s)) = w
    at met moves phase
  cases left : w.slc.run with
  | none =>
    have over' := endIfOver_over left
    rw [(budgetEnd_of_passCorrupt met).1 over'.run]
    exact over'.of_moves (moves.trans skipped) phase
  | some r' =>
    rw [endIfOver_of_some left] at met
    rw [(budgetEnd_of_passCorrupt met).2 r' left]
    exact (budgetOver_over r' w).of_moves (moves.trans skipped) phase

theorem itemsOf_congr {cause cause' : Nat → MissCause} {js : List Nat} (same : ∀ j ∈ js, cause j = cause' j) :
    itemsOf cause js s = itemsOf cause' js s := by
  simp only [itemsOf, List.flatMap_def]
  rw [List.map_congr_left fun j mem => by rw [same j mem]]

/-- Every due entry behind it is marked too: there is no overrun. -/
theorem budgetEnd_of_all_corrupt (sound : SoundAcq s) (run : s.slc.run = some r) (unbegun : r.begun = false)
    (corrupt : (entryAt r.entry s).corrupt = true)
    (all : ∀ j ∈ dueAmong (passFunc s) (indicesFrom s.slc.passIdx) s, (entryAt j s).corrupt = true) :
    let behind := dueAmong (passFunc s) (indicesFrom s.slc.passIdx) s
    (budgetEnd s).slc.delivery = s.slc.delivery ++ (corruptItems r s ++ itemsOf (fun _ => .corrupt) behind s)
      ∧ (budgetEnd s).hli = { s.hli with
          counters.entriesSkipped := Nat.repeat Counter.rise (corruptSkips r s + behind.length)
            s.hli.counters.entriesSkipped } := by
  have met := passCorrupt_of_corrupt run unbegun corrupt
  rw [walk_of_all_blocked (sound.skipping _ _) _ fun j mem => .inl (all j mem), skipping_skipping] at met
  rw [(budgetEnd_of_passCorrupt met).1 (endIfOver_over rfl).run, (endIfOver_keeps _).1, (endIfOver_keeps _).2]
  refine ⟨?_, rfl⟩
  have causes := itemsOf_congr (s := s) (cause := walkCause s) (cause' := fun _ => .corrupt) fun j mem => if_pos (all j mem)
  rw [← causes]
  rfl

theorem indicesFrom_split {i j : Nat} {before behind : List Nat} (split : indicesFrom i = before ++ j :: behind) :
    behind = indicesFrom (j + 1) := by
  obtain ⟨k, -, -, rest⟩ := List.range'_eq_append_iff.1 split
  obtain ⟨at_j, -, behind_eq⟩ := List.range'_eq_cons_iff.1 rest.symm
  rw [behind_eq, indicesFrom]
  congr 1
  omega

/-- The pass stands at a run not yet begun, the entry's index the given one. -/
def State.standingAt (j : Nat) (s : State) : State :=
  { s with slc.run := some ⟨j, entryAt j s, false, 0, 0, none⟩, slc.passIdx := j + 1 }

/-- The budget is used up with the pass standing at an entry, after skips. -/
theorem budgetOver_standingAt (sound : SoundAcq s) (ds : List Delivery) (n j : Nat) :
    let w := (s.skipping ds n).standingAt j
    let behind := dueAmong (passFunc s) (indicesFrom (j + 1)) s
    (budgetOver ⟨j, entryAt j s, false, 0, 0, none⟩ w).slc.delivery = s.slc.delivery ++ ds
        ++ (missedItem j (entryAt j s) .budget s.slc.frameNo ++ itemsOf (budgetCause s) behind s)
      ∧ (budgetOver ⟨j, entryAt j s, false, 0, 0, none⟩ w).hli.counters = { s.hli.counters with
          entriesSkipped := Nat.repeat Counter.rise (n + (1 + behind.length)) s.hli.counters.entriesSkipped } := by
  intro w behind
  have sound' : SoundAcq w := sound
  obtain ⟨delivery, counters⟩ := budgetOver_of_sound ⟨j, entryAt j s, false, 0, 0, none⟩ sound'
  refine ⟨delivery, counters.trans ?_⟩
  rw [repeat_add Counter.rise n]
  rfl

/-- The first due entry behind it that runs is the one that the overrun ends. -/
theorem budgetEnd_of_next (sound : SoundAcq s) (run : s.slc.run = some r) (unbegun : r.begun = false)
    (corrupt : (entryAt r.entry s).corrupt = true) {pre post : List Nat} {j : Nat}
    (behind : dueAmong (passFunc s) (indicesFrom s.slc.passIdx) s = pre ++ j :: post)
    (marked : ∀ k ∈ pre, (entryAt k s).corrupt = true) (free : ¬ Blocked j s) :
    ∃ w r', budgetEnd s = budgetOver r' w ∧ r'.entry = j ∧ w.hli.firstSkipped = s.hli.firstSkipped
      ∧ (budgetOver r' w).slc.delivery = s.slc.delivery ++ (corruptItems r s ++ itemsOf (budgetCause s) (pre ++ j :: post) s)
      ∧ (budgetOver r' w).hli.counters = { s.hli.counters with
          entriesSkipped := Nat.repeat Counter.rise (corruptSkips r s + (pre ++ j :: post).length)
            s.hli.counters.entriesSkipped } := by
  have met := passCorrupt_of_corrupt run unbegun corrupt
  obtain ⟨front, rest, indices, front_due, rest_due⟩ := List.filter_eq_append_iff.1 behind
  obtain ⟨gap, back, rest_eq, gap_due, j_due, back_due⟩ := List.filter_eq_cons_iff.1 rest_due
  have split : indicesFrom s.slc.passIdx = (front ++ gap) ++ j :: back := by rw [indices, rest_eq, List.append_assoc]
  have before : dueAmong (passFunc s) (front ++ gap) s = pre := by
    rw [dueAmong, List.filter_append, front_due, List.filter_eq_nil_iff.2 gap_due, List.append_nil]
  have after : dueAmong (passFunc s) (indicesFrom (j + 1)) s = post := by rw [← indicesFrom_split split]; exact back_due
  have skipped : ∀ ds n, dueAmong (passFunc s) (front ++ gap) (s.skipping ds n) = pre := fun _ _ => before
  have stops : ∀ ds n, walk (passFunc s) (j :: back) (s.skipping ds n) = (s.skipping ds n).standingAt j := fun ds n =>
    walk_of_free (sound.skipping _ _) j_due free
  rw [split, walk_append (sound.skipping _ _) _ _ (fun k mem => .inl (marked k (by rwa [skipped] at mem))), skipped,
    skipping_skipping, stops, endIfOver_of_some rfl] at met
  have causes := itemsOf_congr (s := s) (cause := walkCause s) (cause' := budgetCause s) fun k mem =>
    (if_pos (marked k mem)).trans (if_pos (marked k mem)).symm
  have own : missedItem j (entryAt j s) .budget s.slc.frameNo = itemsOf (budgetCause s) [j] s := by
    have sound_entry : budgetCause s j = .budget := if_neg fun h => free (.inl h)
    simp only [itemsOf, List.flatMap_singleton, sound_entry]
  obtain ⟨delivery, counters⟩ := budgetOver_standingAt sound (corruptItems r s ++ itemsOf (walkCause s) pre s)
    (corruptSkips r s + pre.length) j
  refine ⟨_, _, (budgetEnd_of_passCorrupt met).2 _ rfl, rfl, rfl, delivery.trans ?_, counters.trans ?_⟩
  · have joined : itemsOf (budgetCause s) (pre ++ j :: post) s = itemsOf (budgetCause s) pre s
        ++ (itemsOf (budgetCause s) [j] s ++ itemsOf (budgetCause s) post s) := by
      simp only [itemsOf, List.flatMap_append, List.flatMap_cons, List.flatMap_nil, List.append_nil]
    rw [after, causes, own, joined, List.append_assoc, List.append_assoc]
  · have count : corruptSkips r s + pre.length + (1 + post.length) = corruptSkips r s + (pre ++ j :: post).length := by
      rw [List.length_append, List.length_cons]
      omega
    rw [after, count]

end

/-! ### The dispatch mark (R51) -/

/-- With no bit flipped the dispatch pass begins at the first due entry that it does not skip. -/
theorem walk_write_of_sound {s : State} (sound : SoundAcq s) {r : Run} (run : (walk .write (indicesFrom 0) s).slc.run = some r) :
    r.begun = false ∧ r.e = entryAt r.entry s ∧ due .write s.slc.frameNo r.e = true ∧ r.e.corrupt = false
      ∧ (walk .write (indicesFrom 0) s).hli.counters.entriesSkipped = Nat.repeat Counter.rise
        ((List.range r.entry).countP (fun j => due .write s.slc.frameNo (entryAt j s))) s.hli.counters.entriesSkipped := by
  obtain all | ⟨before, i, behind, split, blocked, is_due, free⟩ := walk_cases s .write (indicesFrom 0)
  · rw [walk_of_all_blocked sound _ all] at run
    exact absurd run (by simp)
  · obtain ⟨k, -, front, rest⟩ := List.range'_eq_append_iff.1 split
    obtain ⟨at_i, -, -⟩ := List.range'_eq_cons_iff.1 rest.symm
    have front' : before = List.range i := by rw [front, List.range_eq_range', ← at_i, Nat.zero_add, Nat.mul_one]
    rw [split, walk_append sound _ _ blocked, walk_of_free (sound.skipping _ _) is_due free] at run ⊢
    obtain rfl := Option.some.inj run
    refine ⟨rfl, rfl, is_due, ?_, ?_⟩
    · exact Bool.eq_false_iff.2 fun h => free (.inl h)
    · rw [List.countP_eq_length_filter, ← front']
      rfl

theorem dispatchMark_of_published {s : State} (published : s.slc.phase = .published) (fresh : s.slc.markReached = false) :
    dispatchMark s = beginDispatch { s with slc.markReached := true } := by
  simp [dispatchMark, published, fresh]

/-- Settles O30. -/
theorem passesEndAndBeginAtTheirEvents : Obligations.PassesEndAndBeginAtTheirEvents := by
  unfold Obligations.PassesEndAndBeginAtTheirEvents
  refine ⟨fun s live => ⟨fun unused => ?_, fun r pass run slot used => ?_⟩, fun s live => ⟨fun idle => ?_, fun waits fresh => ?_,
    fun published fresh => ?_⟩⟩
  · refine (live_of_run budgetExhaustion live).trans (congrArg _ ?_)
    rw [budgetExhaustion, unused]
    rfl
  · intro f behind item own met told marked ended overrun skips
    have func : f = passFunc s := by
      obtain acq | dispatch := pass
      · simp only [f, passFunc, acq]
        rfl
      · simp only [f, passFunc, dispatch]
        rfl
    have is_used : budgetUsedUp s = true := by
      obtain acq | dispatch := pass
      · simp only [acq, if_true] at used
        simp [budgetUsedUp, passBudget, acq, run, slot, used]
      · rw [dispatch, if_neg (by decide)] at used
        simp [budgetUsedUp, passBudget, dispatch, run, slot, used]
    have exhausts : exec .budgetExhaustion s = .next (budgetEnd s) := by
      refine (live_of_run budgetExhaustion live).trans (congrArg _ ?_)
      rw [budgetExhaustion, is_used]
      rfl
    have behind_eq : behind = dueAmong (passFunc s) (indicesFrom s.slc.passIdx) s := by rw [← func]; rfl
    have ended_of : ∀ t, PassOver t s → ended t := fun t h => ⟨h.run, h.acq, h.dispatch, h.dir, h.out, h.dsc⟩
    have captured : ∀ t i, standing .passOverrun t = true → t.hli.firstSkipped = (s.hli.firstSkipped <|> some i) →
        overrun t i := fun t i latched held => ⟨latched, held.trans (by cases s.hli.firstSkipped <;> rfl)⟩
    have told_eq : told = corruptItems r s := by
      simp only [told, func]
      rfl
    have met_eq : met = corruptSkips r s := by
      simp only [met, func]
      rfl
    refine ⟨fun runs => ?_, fun unbegun corrupt => ?_⟩
    · have over' := (budgetEnd_of_passCorrupt (passCorrupt_of_runs run runs)).2 r run
      obtain ⟨latched, held⟩ := budgetOver_overrun r s
      refine ⟨_, exhausts.trans (congrArg _ over'), ended_of _ (budgetOver_over r s), captured _ _ latched held,
        budgetOver_causes r s, fun sound => ?_⟩
      obtain ⟨delivery, counters⟩ := budgetOver_of_sound r sound
      rw [← behind_eq] at delivery counters
      refine ⟨?_, counters⟩
      rw [delivery, List.append_assoc]
      rfl
    · refine ⟨_, exhausts, ended_of _ (budgetEnd_over_of_corrupt run unbegun corrupt), fun sound all => ?_,
        fun pre post j split sound marked_pre sound_j loop stations => ?_⟩
      · rw [behind_eq] at all
        obtain ⟨delivery, hli⟩ := budgetEnd_of_all_corrupt sound run unbegun corrupt all
        have causes := itemsOf_congr (s := s) (cause := fun _ => .corrupt)
          (cause' := fun j => if (entryAt j s).corrupt then .corrupt else .corrupt) fun j mem => (if_pos (all j mem)).symm
        rw [← behind_eq] at delivery hli causes
        refine ⟨?_, ?_, ?_, ?_⟩
        · rw [delivery, told_eq, causes, List.append_assoc]
          rfl
        · rw [met_eq]
          simp only [skips, hli]
        · rw [hli]
        · rw [hli]
      · rw [behind_eq] at split
        have free : ¬ Blocked j s := by simp [Blocked, sound_j, loop, stations]
        obtain ⟨w, r', ends, rfl, held, delivery, counters⟩ :=
          budgetEnd_of_next sound run unbegun corrupt split marked_pre free
        obtain ⟨latched, first⟩ := budgetOver_overrun r' w
        rw [← split, ← behind_eq] at delivery counters
        refine ⟨captured _ _ ?_ ?_, ?_, ?_⟩
        · rw [ends]
          exact latched
        · rw [ends, first, held]
        · rw [ends, met_eq]
          exact counters
        · rw [ends, delivery, told_eq, List.append_assoc]
          rfl
  · refine (live_of_run dispatchMark live).trans (congrArg _ ?_)
    exact if_pos idle
  · refine (live_of_run dispatchMark live).trans (congrArg _ ?_)
    obtain acq | ended := waits
    · simp [dispatchMark, acq, fresh]
    · simp [dispatchMark, ended, fresh]
  · obtain ⟨u, step, walked, goes⟩ := advance_of_dispatch
      (s := { s with slc.markReached := true, slc.phase := .dispatch, slc.slots := 0, slc.passIdx := 0, slc.run := none }) rfl
    have starts : exec .dispatchMarkReached s = .next (beginDispatch { s with slc.markReached := true }) :=
      (live_of_run dispatchMark live).trans (congrArg _ (dispatchMark_of_published published fresh))
    have first : ∀ r, u.slc.run = some r → SoundAcq s → r.begun = false ∧ r.e = entryAt r.entry s
        ∧ due .write s.slc.frameNo r.e = true ∧ r.e.corrupt = false ∧ u.hli.counters.entriesSkipped = Nat.repeat Counter.rise
          ((List.range r.entry).countP (fun j => due .write s.slc.frameNo (entryAt j s))) s.hli.counters.entriesSkipped :=
      fun r run sound => by
        rw [walked] at run ⊢
        exact walk_write_of_sound (s := { s with
          slc.markReached := true, slc.phase := .dispatch, slc.slots := 0, slc.passIdx := 0, slc.run := none }) sound run
    have mark : u.slc.markReached = true := step.moves.stands.mark
    obtain ⟨-, -, out, -⟩ := step.moves.frame
    obtain ⟨runs, stands⟩ | ⟨no_run, over'⟩ := goes
    · exact ⟨u, starts.trans (congrArg _ stands), mark, step.slots, .inl ⟨step.phase, runs⟩, step.delivery, out,
        step.moves.stands.dir, fun sound r run => first r run sound⟩
    · have phase := (beginService_moves u).2
      refine ⟨beginService u, starts.trans (congrArg _ over'), mark, rfl, .inr ⟨no_run, phase.symm⟩, step.delivery, out,
        step.moves.stands.dir, fun _ r run => ?_⟩
      exact absurd (run.symm.trans no_run) (by simp)

end Sys2Proof.Machine
end

section
/-! SUPPORT. The words that return in a slot: the part's own command words, the reply judged, and the value delivered (R23,
R24, R63, R200; log 68). -/

namespace Sys2Proof.Machine

/-! ### The part's own words (R23, R200; log 68) -/

theorem cleanIdle_iff (w : RxWord) : w.cleanIdle = true ↔ w = ⟨idleWord, false⟩ := by
  obtain ⟨word, error⟩ := w
  simp [RxWord.cleanIdle]

/-- A word of the line that is no idle word is taken for an own word exactly when it is one still to come. -/
theorem dropOwn_of_word {w : RxWord} (ws : List RxWord) (own : List LoopWord) (word : w.cleanIdle = false) :
    dropOwn (w :: ws) own = if w.lineError = false ∧ w.word ∈ own then
      dropOwn ws ((own.dropWhile (· != w.word)).drop 1) else w :: ws := by
  rw [dropOwn, word]
  simp

theorem sublist_behind {α : Type} [DecidableEq α] {p : α} {ps own : List α} (sub : (p :: ps).Sublist own) :
    ps.Sublist ((own.dropWhile (· != p)).drop 1) := by
  induction own with
  | nil => cases sub
  | cons a own ih =>
    by_cases here : a = p
    · subst here
      simpa using sub
    · have behind : (p :: ps).Sublist own := by
        cases sub with
        | cons _ h => exact h
        | cons_cons => exact absurd rfl here
      rw [List.dropWhile_cons_of_pos (by simpa using here)]
      exact ih behind

/-- A part of the own words, in their order, is passed over. -/
theorem dropOwn_of_part {ws : List RxWord} {own part : List LoopWord} (sub : part.Sublist own)
    (words : ws.filter (fun w => !w.cleanIdle) = part.map fun w => ⟨w, false⟩) : dropOwn ws own = [] := by
  induction ws generalizing own part with
  | nil => rfl
  | cons w ws ih =>
    cases idle : w.cleanIdle with
    | true =>
      rw [List.filter_cons_of_neg (by simp [idle])] at words
      rw [dropOwn, idle]
      exact ih sub words
    | false =>
      rw [List.filter_cons_of_pos (by simp [idle])] at words
      cases part with
      | nil => exact absurd words (by simp)
      | cons p ps =>
        obtain ⟨rfl, rest⟩ := List.cons.inj words
        have mem : p ∈ own := sub.subset (List.mem_cons_self ..)
        rw [dropOwn_of_word ws own idle, if_pos ⟨rfl, mem⟩]
        exact ih (sublist_behind sub) rest

/-- Behind the whole command, its idle words passed over, the reply begins. -/
theorem dropOwn_of_whole {w : RxWord} (rest : List RxWord) (word : w.cleanIdle = false) (left : List LoopWord) :
    ∀ passed : List LoopWord, (∀ v ∈ passed, v = idleWord) →
      dropOwn (left.map (fun v => ⟨v, false⟩) ++ w :: rest) (passed ++ left) = w :: rest := by
  induction left with
  | nil =>
    intro passed idles
    have not_own : ¬ (w.lineError = false ∧ w.word ∈ passed ++ []) := by
      rintro ⟨clean, mem⟩
      have idle : w.word = idleWord := idles _ (by simpa using mem)
      simp [RxWord.cleanIdle, clean, idle] at word
    exact (dropOwn_of_word rest _ word).trans (if_neg not_own)
  | cons v left ih =>
    intro passed idles
    rw [List.map_cons, List.cons_append]
    by_cases idle : v = idleWord
    · have clean : (⟨v, false⟩ : RxWord).cleanIdle = true := (cleanIdle_iff _).2 (by rw [idle])
      rw [dropOwn, clean, if_pos rfl, List.append_cons passed]
      refine ih (passed ++ [v]) fun u mem => ?_
      obtain before | last := List.mem_append.1 mem
      · exact idles u before
      · rw [List.mem_singleton.1 last, idle]
    · have unclean : (⟨v, false⟩ : RxWord).cleanIdle = false := by simp [RxWord.cleanIdle, idle]
      have skipped : (passed ++ v :: left).dropWhile (· != v) = v :: left := by
        rw [List.dropWhile_append_of_pos fun u mem => by simpa [idles u mem] using fun h => idle h.symm,
          List.dropWhile_cons_of_neg (by simp)]
      rw [dropOwn_of_word _ _ unclean, if_pos ⟨rfl, by simp⟩, skipped]
      exact ih [] (by simp)

/-! ### The words of a command (R23) -/

/-- The header of a command as a number. -/
theorem commandHeader_toNat (x : SlotEx) : (BitVec.ofNat 16 (32768 + 256 * (x.addr % 64) + 32 * (x.channel % 8)
      + 8 * funcCode x.func + bit x.size32 2)).toNat =
    32768 + 256 * (x.addr % 64) + 32 * (x.channel % 8) + 8 * funcCode x.func + bit x.size32 2 := by
  have func : funcCode x.func ≤ 2 := by cases x.func <;> decide
  have size : bit x.size32 2 ≤ 4 := by cases x.size32 <;> decide
  rw [BitVec.toNat_ofNat]
  omega

theorem commandHeader_not_idle {x : SlotEx} {o : LoopWord} {own : List LoopWord} (words : commandWords x = o :: own) :
    (⟨o, false⟩ : RxWord).cleanIdle = false := by
  have header := commandHeader_toNat x
  obtain ⟨rfl, -⟩ := List.cons.inj words
  refine Bool.eq_false_iff.2 fun idle => ?_
  have word := congrArg (fun w : RxWord => w.word.toNat) ((cleanIdle_iff _).1 idle)
  dsimp only at word
  rw [header] at word
  have : idleWord.toNat = 3855 := by decide
  omega

theorem commandWords_eq_cons (x : SlotEx) : ∃ o own, commandWords x = o :: own := ⟨_, _, rfl⟩

/-! ### The reply begins (R24, R200) -/

theorem heardReply_of_replyWords {x : SlotEx} {ws rest : List RxWord} {w : RxWord} (words : replyWords x ws = w :: rest) :
    heardReply x ws = some (judgeReply x (w :: rest)) := by
  simp only [heardReply, words]

theorem heardReply_eq_none {x : SlotEx} {ws : List RxWord} (words : replyWords x ws = []) : heardReply x ws = none := by
  simp only [heardReply, words]

section
variable {x : SlotEx} {o : LoopWord} {own : List LoopWord}

/-- Behind idle words the first other word is the part's own header, or the reply's. -/
theorem replyWords_of_head (words : commandWords x = o :: own) {ws rest : List RxWord} {w : RxWord}
    (head : ws.dropWhile (·.cleanIdle) = w :: rest) :
    replyWords x ws = if w = ⟨o, false⟩ then dropOwn rest own else w :: rest := by
  simp only [replyWords, head, words]

theorem replyWords_of_idle {ws : List RxWord} (idle : ∀ w ∈ ws, w.cleanIdle = true) : replyWords x ws = [] := by
  have empty : ws.dropWhile (·.cleanIdle) = [] := List.dropWhile_eq_nil_iff.2 idle
  simp only [replyWords, empty]

theorem replyWords_of_part (words : commandWords x = o :: own) {ws : List RxWord} {part : List LoopWord} (sub : part.Sublist own)
    (seen : ws.filter (fun w => !w.cleanIdle) = (o :: part).map fun w => ⟨w, false⟩) : replyWords x ws = [] := by
  obtain ⟨idles, tail, rfl, idle, -, after⟩ := List.filter_eq_cons_iff.1 seen
  have head : (idles ++ (⟨o, false⟩ : RxWord) :: tail).dropWhile (·.cleanIdle) = ⟨o, false⟩ :: tail := by
    rw [List.dropWhile_append_of_pos fun w mem => by simpa using idle w mem,
      List.dropWhile_cons_of_neg (by rw [commandHeader_not_idle words]; simp)]
  rw [replyWords_of_head words head, if_pos rfl]
  exact dropOwn_of_part sub after

theorem replyWords_of_whole (words : commandWords x = o :: own) {w : RxWord} (word : w.cleanIdle = false)
    (rest : List RxWord) : replyWords x ((commandWords x).map (fun v => ⟨v, false⟩) ++ w :: rest) = w :: rest := by
  have head : ((commandWords x).map (fun v => (⟨v, false⟩ : RxWord)) ++ w :: rest).dropWhile (·.cleanIdle) =
      ⟨o, false⟩ :: (own.map (fun v => ⟨v, false⟩) ++ w :: rest) := by
    rw [words, List.map_cons, List.cons_append, List.dropWhile_cons_of_neg (by rw [commandHeader_not_idle words]; simp)]
  rw [replyWords_of_head words head, if_pos rfl]
  exact dropOwn_of_whole rest word own [] (by simp)

theorem replyWords_of_other (words : commandWords x = o :: own) {idles rest : List RxWord} {w : RxWord}
    (idle : ∀ v ∈ idles, v.cleanIdle = true) (word : w.cleanIdle = false) (other : w ≠ ⟨o, false⟩) :
    replyWords x (idles ++ w :: rest) = w :: rest := by
  have head : (idles ++ w :: rest).dropWhile (·.cleanIdle) = w :: rest := by
    rw [List.dropWhile_append_of_pos idle, List.dropWhile_cons_of_neg (by rw [word]; simp)]
  rw [replyWords_of_head words head, if_neg other]

end

/-! ### The reply judged (R24, R196, R200) -/

/-- What a sound reply with this header and these data says. -/
def heardOf (h : LoopWord) (d : Nat) : Heard :=
  ⟨if h.getLsbD 7 = false then .untaken else if h.getLsbD 6 then .takenReady else .takenNotReady, h.getLsbD 6, d⟩

theorem heardOf_eq (h : LoopWord) (d : Nat) : heardOf h d =
    ⟨if h.toNat / 128 % 2 = 0 then .untaken else if (h.toNat / 64 % 2 == 1) = true then .takenReady else .takenNotReady,
      h.toNat / 64 % 2 == 1, d⟩ := by
  have bit7 : h.getLsbD 7 = (h.toNat / 128 % 2 == 1) := by
    simp [BitVec.getLsbD, Nat.testBit_eq_decide_div_mod_eq]
    rfl
  have bit6 : h.getLsbD 6 = (h.toNat / 64 % 2 == 1) := by
    simp [BitVec.getLsbD, Nat.testBit_eq_decide_div_mod_eq]
    rfl
  have taken : (h.toNat / 128 % 2 == 1) = false ↔ h.toNat / 128 % 2 = 0 := by simp
  simp only [heardOf, bit7, bit6, taken]

theorem judgeReply_of_unsound {x : SlotEx} {ws : List RxWord}
    (bad : ws.length < dataLen x.size32 + 2 ∨ ∃ w ∈ ws.take (dataLen x.size32 + 2), w.lineError = true) :
    judgeReply x ws = .bare .check := by
  refine if_neg fun sound => ?_
  simp only [Bool.and_eq_true, beq_iff_eq, List.all_eq_true, List.length_take] at sound
  obtain ⟨⟨⟨⟨length, clean⟩, -⟩, -⟩, -⟩ := sound
  obtain short | ⟨w, mem, error⟩ := bad
  · omega
  · simpa [error] using clean w mem

section
variable {x : SlotEx} (rest : List RxWord)

theorem judgeReply_of_size16 (size : x.size32 = false) (h d c : LoopWord) :
    judgeReply x ([⟨h, false⟩, ⟨d, false⟩, ⟨c, false⟩] ++ rest) =
      if h.toNat / 16384 = 3 ∧ c = checkWord [h, d] ∧ h.toNat / 256 % 64 = x.addr % 64 then heardOf h d.toNat
      else .bare .check := by
  simp only [heardOf_eq]
  simp [judgeReply, size, dataLen, and_assoc]

theorem judgeReply_of_size32 (size : x.size32 = true) (h d e c : LoopWord) :
    judgeReply x ([⟨h, false⟩, ⟨d, false⟩, ⟨e, false⟩, ⟨c, false⟩] ++ rest) =
      if h.toNat / 16384 = 3 ∧ c = checkWord [h, d, e] ∧ h.toNat / 256 % 64 = x.addr % 64 then
        heardOf h (65536 * d.toNat + e.toNat)
      else .bare .check := by
  simp only [heardOf_eq]
  simp [judgeReply, size, dataLen, and_assoc]

end

/-! ### The value delivered (R63) -/

theorem isSigned_iff (id : Nat) : isSigned id = true ↔ id ∈ [1, 2, 5, 6, 9, 10, 11, 12, 18, 19, 28, 32, 34] := by
  simp [isSigned]
  omega

theorem signedOf_size16 {d : Nat} (fits : d < 65536) : signedOf false d = if d < 32768 then (d : Int) else d - 65536 := by
  simp only [signedOf, Bool.false_eq_true, if_false, BitVec.toInt_eq_toNat_cond, BitVec.toNat_ofNat]
  split_ifs <;> omega

theorem signedOf_size32 {d : Nat} (fits : d < 4294967296) :
    signedOf true d = if d < 2147483648 then (d : Int) else d - 4294967296 := by
  simp only [signedOf, if_true, BitVec.toInt_eq_toNat_cond, BitVec.toNat_ofNat]
  split_ifs <;> omega

end Sys2Proof.Machine
end

section
/-! PROOF. Runs end by their settle mode (R24, R29, R44 to R47, R51, R63). -/

namespace Sys2Proof.Machine

/-! ### What an exchange's outcome leaves of the pass under way (R24, R30) -/

/-- The slot is empty, and the pass stands as it stood. -/
structure HeardPass (t s : State) : Prop where
  slot : t.slc.slot = none
  run : t.slc.run = s.slc.run
  passIdx : t.slc.passIdx = s.slc.passIdx
  phase : t.slc.phase = s.slc.phase
  delivery : t.slc.delivery = s.slc.delivery
  frameNo : t.slc.frameNo = s.slc.frameNo
  out : t.out = s.out

theorem checksTold_pass (addr : Nat) {s : State} (pass : s.slc.phase = .acq ∨ s.slc.phase = .dispatch) :
    (steerStationExcluded addr (gridStationExcluded addr s)).slc.phase = s.slc.phase
      ∧ (steerStationExcluded addr (gridStationExcluded addr s)).out = s.out := by
  have grid : (gridStationExcluded addr s).slc.phase = s.slc.phase ∧ (gridStationExcluded addr s).out = s.out := by
    obtain same | aborted := gridStationExcluded_cases addr s
    · rw [same]
      exact ⟨rfl, rfl⟩
    · rw [aborted]
      refine ⟨(gridAbort_phase .stationExcluded s).resolve_right fun ⟨service, _⟩ => ?_, by simp⟩
      rw [service] at pass
      exact absurd pass (by simp)
  obtain same | aborted := steerStationExcluded_cases addr (gridStationExcluded addr s)
  · rw [same]
    exact grid
  · rw [aborted]
    simpa using grid

theorem stationMoved_pass (addr : Nat) (before after : Station) {s : State}
    (pass : s.slc.phase = .acq ∨ s.slc.phase = .dispatch) :
    (stationMoved addr before after s).slc.phase = s.slc.phase ∧ (stationMoved addr before after s).out = s.out := by
  unfold stationMoved
  split_ifs
  · exact ⟨rfl, rfl⟩
  · split
    · exact ⟨rfl, rfl⟩
    · exact checksTold_pass addr (s := latch .stationExcluded s) pass
    · exact ⟨rfl, rfl⟩

theorem applyDirectory_pass (x : SlotEx) (o : ExOutcome) {s : State} (pass : s.slc.phase = .acq ∨ s.slc.phase = .dispatch) :
    (applyDirectory x o s).slc.phase = s.slc.phase ∧ (applyDirectory x o s).slc.passIdx = s.slc.passIdx
      ∧ (applyDirectory x o s).out = s.out := by
  have failed : ∀ k, (stationFailed x.addr k s).slc.phase = s.slc.phase
      ∧ (stationFailed x.addr k s).slc.passIdx = s.slc.passIdx ∧ (stationFailed x.addr k s).out = s.out := fun k => by
    unfold stationFailed
    split
    · exact ⟨rfl, rfl, rfl⟩
    · rename_i e _
      have step := stationMoved_pass x.addr e ((e.fail k).judge s.hli.force)
        (s := updStation x.addr (fun _ => (e.fail k).judge s.hli.force) s) pass
      obtain ⟨-, -, -, -, -, -, -, -, -, passIdx, -⟩ := (stationMoved_keeps x.addr e ((e.fail k).judge s.hli.force)
        (updStation x.addr (fun _ => (e.fail k).judge s.hli.force) s)).2
      exact ⟨step.1, passIdx, step.2⟩
  unfold applyDirectory
  split
  · split_ifs
    · exact ⟨rfl, rfl, rfl⟩
    · exact failed _
  · split <;> exact ⟨rfl, rfl, rfl⟩

theorem heardState_pass (x : SlotEx) (h : Heard) {s : State} (pass : s.slc.phase = .acq ∨ s.slc.phase = .dispatch) :
    HeardPass (heardState x h s) s := by
  obtain ⟨cs, heard⟩ := heardState_eq x h s
  obtain ⟨-, -, run, -, frameNo, delivery⟩ := applyDirectory_keeps x h.outcome s
  obtain ⟨phase, passIdx, out⟩ := applyDirectory_pass x h.outcome pass
  rw [heard]
  exact ⟨rfl, run, passIdx, phase, delivery, frameNo, out⟩

theorem settleReset_keeps (x : SlotEx) (s : State) :
    (settleReset x s).slc = { s.slc with dir := (settleReset x s).slc.dir } ∧ (settleReset x s).out = s.out
      ∧ (x.afterReset = false → settleReset x s = s) := by
  unfold settleReset
  refine ⟨?_, ?_, fun no_reset => ?_⟩
  · split <;> rfl
  · split <;> rfl
  · rw [no_reset]
    rfl

/-! ### A READ ends with a result, or goes on (R44 to R47) -/

/-- The run of a READ of an input has ended with a result: the item is delivered first, missed entries follow. -/
structure ReadEnds (r : Run) (res : Result) (t s : State) : Prop where
  moves : t.slc.slot = s.slc.slot ∧ t.slc.dir = s.slc.dir
  counters : t.hli.counters = { s.hli.counters with entriesSkipped := t.hli.counters.entriesSkipped }
  delivery : ∃ more : List Delivery, t.slc.delivery = s.slc.delivery ++ (⟨r.entry, r.e.signal, s.slc.frameNo, res⟩ :: more)
    ∧ ∀ d ∈ more, ∃ c, d.result = .missed c

theorem endRun_eq_deliver {e : AcqEntry} (reads : e.func = .read) (input : isInput e.signal = true) (i : Nat) (res : Result)
    (s : State) : endRun i e res s = deliver i e.signal res s := by
  cases res with
  | delivered v => rfl
  | missed c => exact if_pos ⟨reads, input⟩

theorem acqOutcome_of_ended {r : Run} {h : Heard} {res : Result} {s : State} (acq : s.slc.phase = .acq)
    (run : s.slc.run = some r) (reads : r.e.func = .read) (input : isInput r.e.signal = true)
    (ended : readResult r h = .inl res) : ReadEnds r res (acqOutcome r.entry h s) s := by
  have value : acqOutcome r.entry h s = advance (deliver r.entry r.e.signal res s) := by
    simp only [acqOutcome, run, ended, if_true, endRun_eq_deliver reads input]
  obtain ⟨u, phase, step, advanced, -⟩ := advance_of_acq (P := fun _ => True) ⟨trivial, trivial, trivial⟩
    (s := deliver r.entry r.e.signal res s) acq
  obtain ⟨more, joined, told⟩ := step.missed
  rw [value, advanced]
  refine ⟨⟨step.moves.slot, step.moves.stands.dir⟩, step.counters, more, ?_, fun d mem => ?_⟩
  · refine joined.trans ?_
    simp [deliver]
  · obtain ⟨-, c, -, result⟩ := told d mem
    exact ⟨c, result⟩

/-- A run that goes on to an address whose station is not EXCLUDED. -/
theorem acqOutcome_of_going {r r' : Run} {h : Heard} {s : State} (run : s.slc.run = some r)
    (going : readResult r h = .inr r') (next : (nextOffset r.e r'.offset s).isSome = true) :
    acqOutcome r.entry h s = { s with slc.run := some r' } := by
  simp only [acqOutcome, run, going, if_true, next]

section
variable {x : SlotEx} {r : Run} {h : Heard} {s : State}

theorem complete_of_acq (slot : s.slc.slot = some x) (claim : x.claim = .acq r.entry) :
    complete h s = settleReset x (acqOutcome r.entry h (heardState x h s)) := by
  rw [complete_eq slot, claimOutcome, claim]

theorem complete_read_ends {res : Result} (slot : s.slc.slot = some x) (claim : x.claim = .acq r.entry) (acq : s.slc.phase = .acq)
    (run : s.slc.run = some r) (reads : r.e.func = .read) (input : isInput r.e.signal = true)
    (ended : readResult r h = .inl res) :
    (complete h s).slc.slot = none ∧ ∃ more : List Delivery,
      (complete h s).slc.delivery = s.slc.delivery ++ (⟨r.entry, r.e.signal, s.slc.frameNo, res⟩ :: more)
        ∧ ∀ d ∈ more, ∃ c, d.result = .missed c := by
  have pass := heardState_pass x h (s := s) (.inl acq)
  obtain ⟨⟨empty, -⟩, -, more, delivery, told⟩ :=
    acqOutcome_of_ended (pass.phase.trans acq) (pass.run.trans run) reads input ended
  rw [complete_of_acq slot claim, (settleReset_keeps x _).1]
  rw [pass.delivery, pass.frameNo] at delivery
  exact ⟨empty.trans pass.slot, more, delivery, told⟩

theorem complete_read_goes {r' : Run} (slot : s.slc.slot = some x) (claim : x.claim = .acq r.entry) (acq : s.slc.phase = .acq)
    (run : s.slc.run = some r) (going : readResult r h = .inr r')
    (next : (nextOffset r.e r'.offset (heardState x h s)).isSome = true) :
    (complete h s).slc.slot = none ∧ (complete h s).slc.run = some r' ∧ (complete h s).slc.phase = .acq
      ∧ (complete h s).slc.delivery = s.slc.delivery := by
  have pass := heardState_pass x h (s := s) (.inl acq)
  rw [complete_of_acq slot claim, (settleReset_keeps x _).1, acqOutcome_of_going (pass.run.trans run) going next]
  exact ⟨pass.slot, rfl, pass.phase.trans acq, pass.delivery⟩

end

/-! ### What a READ does after an exchange, by its settle mode (R44 to R46) -/

/-- The cause that the statement gives an outcome that a reply in the slot can have. -/
theorem missCause_of_heard {o : ExOutcome} (heard : o = .takenReady ∨ o = .takenNotReady ∨ o = .untaken ∨ o = .check)
    (not_ready : o ≠ .takenReady) :
    missCause o = if o = .takenNotReady then .notReady else if o = .untaken then .untaken else .check := by
  obtain rfl | rfl | rfl | rfl := heard
  · exact absurd rfl not_ready
  · rfl
  · rfl
  · rfl

section
variable {r : Run} {h : Heard}

theorem readResult_of_ready (ready : h.outcome = .takenReady) :
    readResult r h = .inl (.delivered (deliveredValue r.e.signal r.e.size32 h.data)) := if_pos ready

variable (not_ready : h.outcome ≠ .takenReady) (up : h.outcome ≠ .loopDown)
include not_ready up

theorem readResult_of_strict (strict : r.e.settle = .strict) : readResult r h = .inl (.missed (missCause h.outcome)) := by
  simp only [readResult, if_neg not_ready, if_neg up, strict]

theorem readResult_of_lenient (lenient : r.e.settle = .lenient) : readResult r h = .inl (if h.outcome = .takenNotReady then
    .delivered (deliveredValue r.e.signal r.e.size32 h.data) else .missed (missCause h.outcome)) := by
  simp only [readResult, if_neg not_ready, if_neg up, lenient]

theorem readResult_of_persist (persist : r.e.settle = .persist) : readResult r h =
    if h.outcome = .takenNotReady ∧ r.used < r.e.retry then .inr r else .inl (.missed (missCause h.outcome)) := by
  simp only [readResult, if_neg not_ready, if_neg up, persist]

theorem readResult_of_span (span : r.e.settle = .span) : readResult r h = if r.offset + 1 < r.e.span then
    .inr { r with offset := r.offset + 1, last := some (missCause h.outcome) } else .inl (.missed (missCause h.outcome)) := by
  simp only [readResult, if_neg not_ready, if_neg up, span]

end

/-! ### The stations after the outcome (R29, R30) -/

theorem stationAt_heardState (x : SlotEx) (h : Heard) (s : State) (a : Nat) :
    stationAt a (heardState x h s) = stationAt a (applyDirectory x h.outcome s) := by
  obtain ⟨cs, heard⟩ := heardState_eq x h s
  rw [heard]
  rfl

theorem isExcluded_of_stationAt {a : Nat} {t s : State} (same : stationAt a t = stationAt a s) :
    isExcluded a t = isExcluded a s := by
  rw [isExcluded, same]
  rfl

/-- An outcome leaves every other station. -/
theorem stationAt_applyDirectory_other {x : SlotEx} {a : Nat} (other : a ≠ x.addr) (o : ExOutcome) (s : State) :
    stationAt a (applyDirectory x o s) = stationAt a s := by
  by_cases spared : o = .untaken ∧ x.tolerate = true
  · obtain ⟨rfl, tolerates⟩ := spared
    have same : applyDirectory x .untaken s = s := if_pos ⟨rfl, tolerates⟩
    rw [same]
  · by_cases strict : x.tolerate = true
    · have same : applyDirectory x o s = applyDirectory { x with tolerate := false } o s := by
        have not_untaken : o ≠ .untaken := fun untaken => spared ⟨untaken, strict⟩
        cases o with
        | untaken => exact absurd rfl not_untaken
        | _ => rfl
      rw [same]
      exact (applyDirectory_hears (x := { x with tolerate := false }) rfl o s).others a other
    · exact (applyDirectory_hears (by simpa using strict) o s).others a other

/-- A station that has taken a command stays EXCLUDED, or not. -/
theorem isExcluded_took (x : SlotEx) (a : Nat) (s : State) :
    isExcluded a (updStation x.addr Station.took s) = isExcluded a s := by
  by_cases here : a = x.addr
  · cases station : stationAt a s with
    | none => rw [← here, updStation_of_none station]
    | some e =>
      have took : stationAt a (updStation a Station.took s) = some e.took :=
        stationAt_updStation_same station fun e at_a => (Station.took_addr e).trans at_a
      rw [← here, isExcluded_of_station took, isExcluded_of_station station]
      unfold Station.took
      split_ifs with excluded
      · rfl
      · simp [excluded]
  · exact isExcluded_of_stationAt (stationAt_updStation_other here s fun e at_a => (Station.took_addr e).trans at_a)

/-! ### A WRITE makes one exchange (R44, R51) -/

theorem complete_write {x : SlotEx} {r : Run} {h : Heard} {s : State} (slot : s.slc.slot = some x)
    (claim : x.claim = .dispatch r.entry) (dispatch : s.slc.phase = .dispatch) (run : s.slc.run = some r) :
    (complete h s).slc.slot = none ∧ (complete h s).slc.delivery = s.slc.delivery ∧ (complete h s).out = s.out
      ∧ ∀ r', (complete h s).slc.run = some r' → r'.begun = false ∧ s.slc.passIdx ≤ r'.entry := by
  have pass := heardState_pass x h (s := s) (.inr dispatch)
  have value : complete h s = settleReset x (advance (heardState x h s)) := by
    rw [complete_eq slot, claimOutcome, claim]
    simp only [dispatchOutcome, pass.run, run, if_true]
  obtain ⟨slc, out, -⟩ := settleReset_keeps x (advance (heardState x h s))
  rw [value, slc, out]
  obtain ⟨u, step, walked, goes⟩ := advance_of_dispatch (pass.phase.trans dispatch)
  obtain ⟨-, -, u_out, -⟩ := step.moves.frame
  have runs : ∀ r', u.slc.run = some r' → r'.begun = false ∧ s.slc.passIdx ≤ r'.entry := fun r' left => by
    rw [walked] at left
    obtain no_run | ⟨i, e, mem, stands, -⟩ := walk_run .write (indicesFrom (heardState x h s).slc.passIdx) (heardState x h s)
    · exact absurd (left.symm.trans no_run) (by simp)
    · obtain rfl := Option.some.inj (stands.symm.trans left)
      rw [pass.passIdx] at mem
      exact ⟨rfl, (List.mem_range'_1.1 mem).1⟩
  have kept : u.slc.slot = none ∧ u.slc.delivery = s.slc.delivery ∧ u.out = s.out :=
    ⟨step.moves.slot.trans pass.slot, step.delivery.trans pass.delivery, u_out.trans pass.out⟩
  obtain ⟨-, stands⟩ | ⟨-, over'⟩ := goes
  · rw [stands]
    exact ⟨kept.1, kept.2.1, kept.2.2, runs⟩
  · rw [over']
    exact ⟨kept.1, kept.2.1, kept.2.2, runs⟩

/-! ### NO_REPLY, and the last exchange of a PERSIST READ (R23, R24, R29, R45) -/

/-- A failure that leaves its station addressed. -/
theorem applyDirectory_of_stays {x : SlotEx} {st : Station} {s : State} (station : stationAt x.addr s = some st)
    (low : st.streak + 1 < s.hli.force.streakSuspect) (order : s.hli.force.streakSuspect < s.hli.force.streakExclude)
    (top : s.hli.force.streakExclude ≤ 255) (room : st.total < 65535) : applyDirectory x .noReply s =
      updStation x.addr (fun _ => { st with streak := st.streak + 1, total := st.total + 1, lastFail := .noReply }) s := by
  have failed : st.fail .noReply = { st with streak := st.streak + 1, total := st.total + 1, lastFail := .noReply } := by
    have streak : st.streak < 255 := by omega
    simp only [Station.fail, satSucc, if_pos streak, if_pos room]
  have judged : (st.fail .noReply).judge s.hli.force = st.fail .noReply := by
    refine Station.judge_of_below ?_ (.inl ?_)
    · rw [failed]
      exact low.trans order
    · rw [failed]
      exact low
  rw [applyDirectory_noReply station, judged, failed]
  exact if_pos rfl

theorem heardState_of_pass {x : SlotEx} {i : Nat} (claim : x.claim = .acq i) (s : State) :
    heardState x (.bare .noReply) s = { bump .exchFailed (applyDirectory x .noReply s) with slc.slot := none }
      ∧ heardState x (.bare .takenNotReady) s =
        { bump .exchNotReady (applyDirectory x .takenNotReady s) with slc.slot := none } := by
  have counts : x.claim ≠ .scan := by simp [claim]
  constructor <;> simp only [heardState, countOutcome, if_neg counts, Heard.bare]

section
variable {x : SlotEx} {r : Run} {s : State}

/-- A READ of an exchange not met by a governor reset ends: the item, and what the outcome left of stations and counts. -/
theorem complete_read_counts {h : Heard} {res : Result} (slot : s.slc.slot = some x) (claim : x.claim = .acq r.entry)
    (no_reset : x.afterReset = false) (acq : s.slc.phase = .acq) (run : s.slc.run = some r) (reads : r.e.func = .read)
    (input : isInput r.e.signal = true) (ended : readResult r h = .inl res) :
    (complete h s).slc.dir = (heardState x h s).slc.dir
      ∧ (complete h s).hli.counters = { (heardState x h s).hli.counters with
          entriesSkipped := (complete h s).hli.counters.entriesSkipped } := by
  have pass := heardState_pass x h (s := s) (.inl acq)
  obtain ⟨⟨-, dir⟩, counters, -⟩ := acqOutcome_of_ended (pass.phase.trans acq) (pass.run.trans run) reads input ended
  rw [complete_of_acq slot claim, (settleReset_keeps x _).2.2 no_reset]
  exact ⟨dir, counters⟩

theorem took_streak {e : Station} (free : e.took.state ≠ .excluded) : e.took.streak = 0 := by
  unfold Station.took at free ⊢
  split_ifs with excluded
  · rw [if_pos excluded] at free
    exact absurd excluded free
  · rfl

/-- A station that has taken a command and is not EXCLUDED has streak 0. -/
theorem streak_of_took {a : Nat} {st : Station} (station : stationAt a (updStation a Station.took s) = some st)
    (free : st.state ≠ .excluded) : st.streak = 0 := by
  cases before : stationAt a s with
  | none =>
    rw [updStation_of_none before, before] at station
    exact absurd station (by simp)
  | some e =>
    have took : stationAt a (updStation a Station.took s) = some e.took :=
      stationAt_updStation_same before fun e at_a => (Station.took_addr e).trans at_a
    obtain rfl : e.took = st := Option.some.inj (took.symm.trans station)
    exact took_streak free

theorem lastAllowed_of_acq (slot : s.slc.slot = some x) (claim : x.claim = .acq r.entry) (run : s.slc.run = some r)
    (persist : r.e.settle = .persist) (last : r.e.retry ≤ r.used) : lastAllowed s = true := by
  obtain ⟨c⟩ := x
  obtain rfl : c = .acq r.entry := claim
  simp [lastAllowed, slot, run, persist, last]

end

/-! ### The modes -/

/-- Settles O29. -/
theorem runsEndByTheirSettleMode : Obligations.RunsEndByTheirSettleMode := by
  unfold Obligations.RunsEndByTheirSettleMode
  refine ⟨?strict, ?repeated, ?write, ?timeout, ?persist, ?own, ?judged, ?other, ?delivered⟩
  case strict =>
    intro ws i r x h s live acq slot claim run entry heard e reads input mode
    subst entry
    have outcome := heardReply_outcome heard
    have ends : readResult r h = .inl (if h.outcome = .takenReady ∨ (h.outcome = .takenNotReady ∧ e.settle = .lenient) then
        .delivered (deliveredValue e.signal e.size32 h.data)
        else .missed (if h.outcome = .takenNotReady then .notReady else if h.outcome = .untaken then .untaken else .check)) := by
      by_cases ready : h.outcome = .takenReady
      · rw [readResult_of_ready ready, if_pos (.inl ready)]
      · have up : h.outcome ≠ .loopDown := by obtain o | o | o | o := outcome <;> simp [o]
        rw [← missCause_of_heard outcome ready]
        obtain strict | lenient := mode
        · rw [readResult_of_strict ready up strict, if_neg (by simp [ready, e, strict])]
        · rw [readResult_of_lenient ready up lenient]
          by_cases not_ready : h.outcome = .takenNotReady
          · rw [if_pos not_ready, if_pos (.inr ⟨not_ready, lenient⟩)]
          · rw [if_neg not_ready, if_neg (by simp [ready, not_ready])]
    obtain ⟨empty, more, delivery, told⟩ := complete_read_ends slot claim acq run reads input ends
    exact ⟨_, more, exec_exchangeComplete live slot heard, empty, delivery, told⟩
  case repeated =>
    intro ws i r x h s live acq slot claim run entry heard e cause ends goesOn reads input
    subst entry
    have outcome := heardReply_outcome heard
    have up : h.outcome ≠ .loopDown := by obtain o | o | o | o := outcome <;> simp [o]
    have ends_of : ∀ res, readResult r h = .inl res → ends res := fun res ended => by
      obtain ⟨empty, more, delivery, told⟩ := complete_read_ends slot claim acq run reads input ended
      exact ⟨_, more, exec_exchangeComplete live slot heard, empty, delivery, told⟩
    have goes_of : ∀ r', readResult r h = .inr r' → (nextOffset r.e r'.offset (heardState x h s)).isSome = true →
        goesOn r' := fun r' going next =>
      ⟨_, exec_exchangeComplete live slot heard, complete_read_goes slot claim acq run going next⟩
    have caused : h.outcome ≠ .takenReady → missCause h.outcome = cause := missCause_of_heard outcome
    refine ⟨fun mode ready => ends_of _ (readResult_of_ready ready), fun persist not_ready left free => ?_,
      fun persist not_ready last => ?_, fun persist failed => ?_, fun span not_ready last => ?_,
      fun k span not_ready after inside other free => ?_⟩
    · have ready : h.outcome ≠ .takenReady := by simp [not_ready]
      refine goes_of r (by rw [readResult_of_persist ready up persist, if_pos ⟨not_ready, left⟩]) ?_
      have same : isExcluded e.addr (heardState x h s) = false := by
        rw [isExcluded_of_stationAt (stationAt_heardState x h s e.addr), not_ready]
        exact (isExcluded_took x e.addr s).trans free
      have not_span : r.e.settle ≠ .span := by simp [show r.e.settle = .persist from persist]
      rw [nextOffset, if_neg not_span, same]
      rfl
    · have ready : h.outcome ≠ .takenReady := by simp [not_ready]
      have none_left : ¬ (h.outcome = .takenNotReady ∧ r.used < r.e.retry) := fun ⟨_, left⟩ => absurd left (Nat.not_lt.2 last)
      refine ends_of _ ?_
      rw [readResult_of_persist ready up persist, if_neg none_left, not_ready]
      rfl
    · have ready : h.outcome ≠ .takenReady := by obtain o | o := failed <;> simp [o]
      have none_left : ¬ (h.outcome = .takenNotReady ∧ r.used < r.e.retry) := by obtain o | o := failed <;> simp [o]
      refine ends_of _ ?_
      rw [readResult_of_persist ready up persist, if_neg none_left, caused ready]
    · refine ends_of _ ?_
      rw [readResult_of_span not_ready up span, if_neg (Nat.not_lt.2 last), caused not_ready]
    · have going : readResult r h = .inr { r with offset := r.offset + 1, last := some cause } := by
        rw [readResult_of_span not_ready up span, if_pos (Nat.lt_of_le_of_lt after inside), caused not_ready]
      refine goes_of _ going ?_
      have inside' : k < r.e.span := inside
      have same : isExcluded (e.addr + k) (heardState x h s) = false := by
        rw [isExcluded_of_stationAt (stationAt_heardState x h s (e.addr + k)),
          isExcluded_of_stationAt (stationAt_applyDirectory_other other h.outcome s), free]
      rw [nextOffset, if_pos span, List.find?_isSome]
      refine ⟨k, List.mem_range'_1.2 ⟨after, ?_⟩, ?_⟩
      · show k < r.offset + 1 + (r.e.span - (r.offset + 1))
        omega
      · rw [show isExcluded (r.e.addr + k) (heardState x h s) = false from same]
        rfl
  case write =>
    intro ws r x h s live dispatch slot claim run heard
    obtain ⟨empty, delivery, out, runs⟩ := complete_write slot claim dispatch run (h := h)
    exact ⟨_, exec_exchangeComplete live slot heard, empty, delivery, out, runs⟩
  case timeout =>
    intro i r x st s live acq slot claim no_reset run entry station low order top room e reads input strict
    subst entry
    have ended : readResult r (.bare .noReply) = .inl (.missed .noReply) :=
      readResult_of_strict (by simp [Heard.bare]) (by simp [Heard.bare]) strict
    have directory := applyDirectory_of_stays station low order top room
    have heard := (heardState_of_pass claim s).1
    rw [directory] at heard
    obtain ⟨empty, more, delivery, told⟩ := complete_read_ends slot claim acq run reads input ended
    obtain ⟨dir, counters⟩ := complete_read_counts slot claim no_reset acq run reads input ended
    refine ⟨_, more, exec_slotTimeout live, empty, delivery, ?_, ?_⟩
    · rw [stationAt_of_dir dir, heard]
      have addr : st.addr = x.addr := addr_of_stationAt station
      exact stationAt_updStation_same station fun _ _ => addr
    · rw [counters, heard]
      rfl
  case persist =>
    intro s live
    refine ⟨fun not_last => (live_of_run persistExhausted live).trans (congrArg _ (if_neg (by simp [not_last]))), ?_⟩
    intro i r x acq slot claim no_reset run entry e reads input persist last
    subst entry
    have ended : readResult r (.bare .takenNotReady) = .inl (.missed .notReady) := by
      rw [readResult_of_persist (by simp [Heard.bare]) (by simp [Heard.bare]) persist,
        if_neg (by simp [Heard.bare, show r.used = r.e.retry from last])]
      rfl
    have heard := (heardState_of_pass claim s).2
    obtain ⟨empty, more, delivery, told⟩ := complete_read_ends slot claim acq run reads input ended
    obtain ⟨dir, counters⟩ := complete_read_counts slot claim no_reset acq run reads input ended
    have exhausts : exec .persistRetryExhausted s = .next (complete (.bare .takenNotReady) s) := by
      refine (live_of_run persistExhausted live).trans (congrArg _ (if_pos ?_))
      exact lastAllowed_of_acq slot claim run persist (Nat.le_of_eq last.symm)
    refine ⟨_, more, exhausts, empty, delivery, ?_, fun st station free => ?_⟩
    · rw [counters, heard]
      rfl
    · rw [stationAt_of_dir dir, heard] at station
      exact streak_of_took station free
  case own =>
    intro x ws s live slot
    have unheard : heardReply x ws = none → exec (.exchangeComplete ws) s = .next s := fun none_heard => by
      refine (live_of_run (exchangeComplete ws) live).trans (congrArg _ ?_)
      simp only [exchangeComplete, slot, none_heard]
    refine ⟨fun idle => unheard (heardReply_eq_none (replyWords_of_idle idle)), fun o own part words sub seen => ?_,
      fun w rest word => ?_⟩
    · have none_heard := heardReply_eq_none (replyWords_of_part words sub seen)
      exact ⟨none_heard, unheard none_heard⟩
    · obtain ⟨o, own, words⟩ := commandWords_eq_cons x
      exact heardReply_of_replyWords (replyWords_of_whole words word rest)
  case judged =>
    intro x inside
    have addr : x.addr % 64 = x.addr := Nat.mod_eq_of_lt inside
    refine ⟨fun h d c rest size => ?_, fun h d e c rest size => ?_, fun ws bad => ?_⟩
    · intro sound got
      have value := judgeReply_of_size16 rest size h d c
      rw [addr] at value
      refine ⟨fun ⟨type, at_addr, check⟩ => value.trans (if_pos ⟨type, check, at_addr⟩), fun unsound => value.trans (if_neg ?_)⟩
      exact fun ⟨type, check, at_addr⟩ => unsound ⟨type, at_addr, check⟩
    · intro sound got
      have value := judgeReply_of_size32 rest size h d e c
      rw [addr] at value
      refine ⟨fun ⟨type, at_addr, check⟩ => value.trans (if_pos ⟨type, check, at_addr⟩), fun unsound => value.trans (if_neg ?_)⟩
      exact fun ⟨type, check, at_addr⟩ => unsound ⟨type, at_addr, check⟩
    · have words : dataLen x.size32 + 2 = if x.size32 then 4 else 3 := by
        unfold dataLen
        split <;> rfl
      exact judgeReply_of_unsound (by rwa [words])
  case other =>
    intro x idles rest w idle word other
    obtain ⟨o, own, words⟩ := commandWords_eq_cons x
    exact heardReply_of_replyWords (replyWords_of_other words idle word (other o (by rw [words]; rfl)))
  case delivered =>
    intro id d signed
    refine ⟨fun unsigned => ?_, fun is_signed fits => ?_, fun is_signed fits => ?_⟩
    · have not_signed : ¬ isSigned id = true := fun h => unsigned ((isSigned_iff id).1 h)
      exact ⟨if_neg not_signed, if_neg not_signed⟩
    · exact (if_pos ((isSigned_iff id).2 is_signed)).trans (signedOf_size16 fits)
    · exact (if_pos ((isSigned_iff id).2 is_signed)).trans (signedOf_size32 fits)

end Sys2Proof.Machine
end

section
/-! PROOF. What a slot start puts into its slot, and the words of its command on LOOP_OUT (R21, R23, R25, R45, R48, R56, R57,
R177, R196, R200). -/

namespace Sys2Proof.Machine

/-! ### The words of a command (R21, R23, R196) -/

theorem loopOut_of_none {s : State} (empty : s.slc.slot = none) (k : Nat) : loopOut k s = 0x0F0F#16 := by
  simp only [loopOut, empty]

theorem loopOut_of_some {x : SlotEx} {s : State} (slot : s.slc.slot = some x) (k : Nat) :
    loopOut k s = (commandWords x).getD k idleWord := by
  simp only [loopOut, slot]

theorem commandWords_length (x : SlotEx) : (commandWords x).length = if x.size32 then 4 else 3 := by
  cases size : x.size32 <;> simp [commandWords, commandHead, dataWords, size]

theorem commandWords_of_size16 {x : SlotEx} (size : x.size32 = false) : ∃ h d : LoopWord,
    h.toNat = 32768 + 256 * (x.addr % 64) + 32 * (x.channel % 8) + 8 * funcCode x.func + bit x.size32 2
      ∧ d.toNat = x.data % 65536 ∧ commandWords x = [h, d, checkWord [h, d]] := by
  refine ⟨_, BitVec.ofNat 16 x.data, commandHeader_toNat x, BitVec.toNat_ofNat .., ?_⟩
  simp only [commandWords, commandHead, dataWords, size]
  rfl

theorem commandWords_of_size32 {x : SlotEx} (size : x.size32 = true) : ∃ h d e : LoopWord,
    h.toNat = 32768 + 256 * (x.addr % 64) + 32 * (x.channel % 8) + 8 * funcCode x.func + bit x.size32 2
      ∧ d.toNat = x.data / 65536 % 65536 ∧ e.toNat = x.data % 65536 ∧ commandWords x = [h, d, e, checkWord [h, d, e]] := by
  refine ⟨_, BitVec.ofNat 16 (x.data / 65536), BitVec.ofNat 16 x.data, commandHeader_toNat x, BitVec.toNat_ofNat ..,
    BitVec.toNat_ofNat .., ?_⟩
  simp only [commandWords, commandHead, dataWords, size]
  rfl

/-! ### The CRC, bit by bit (R196) -/

/-- One bit into the CRC register. -/
def crcBit (c : BitVec 16) (b : Bool) : BitVec 16 := (c <<< 1) ^^^ (if c.msb != b then 0x1021#16 else 0#16)

/-- A shift of the register with a word laid over it takes in the word's top bit. -/
theorem crcShift_xor (c x : BitVec 16) : crcShift (c ^^^ x) = crcBit c x.msb ^^^ (x <<< 1) := by
  have shifted : crcShift (c ^^^ x) = ((c ^^^ x) <<< 1) ^^^ (if (c ^^^ x).msb then 0x1021#16 else 0#16) := by
    unfold crcShift
    split <;> simp
  rw [shifted, BitVec.shiftLeft_xor_distrib, BitVec.msb_xor, crcBit, BitVec.xor_assoc, BitVec.xor_assoc,
    BitVec.xor_comm (x <<< 1)]

theorem crcShift_repeat (n : Nat) (c x : BitVec 16) : Nat.repeat crcShift n (c ^^^ x) =
    ((List.range n).map (fun k => x.getMsbD k)).foldl crcBit c ^^^ (x <<< n) := by
  induction n with
  | zero => simp [Nat.repeat]
  | succ n ih =>
    rw [Nat.repeat, ih, crcShift_xor, List.range_succ, List.map_append, List.foldl_append, BitVec.shiftLeft_add,
      BitVec.msb_shiftLeft]
    rfl

/-- A byte goes into the register from its bit 7 on. -/
theorem crcByte_eq (c : BitVec 16) (b : Byte) :
    crcByte c b = ((List.range 8).map (fun k => b.getMsbD k)).foldl crcBit c := by
  have gone : ∀ b : Byte, (b.setWidth 16 <<< 8) <<< 8 = 0#16 := by decide
  have bits : ∀ b : Byte, (List.range 8).map (fun k => (b.setWidth 16 <<< 8).getMsbD k) =
      (List.range 8).map (fun k => b.getMsbD k) := by decide
  rw [crcByte, crcShift_repeat, gone, bits, BitVec.xor_zero]

theorem crc16_eq (bs : List Byte) :
    crc16 bs = (bs.flatMap (fun b => (List.range 8).map (fun k => b.getMsbD k))).foldl crcBit 0xFFFF#16 := by
  rw [crc16, List.foldl_flatMap, show crcByte = _ from funext fun c => funext fun b => crcByte_eq c b]

theorem dataOf_eq (v : Int) : (dataOf false v : Int) = v % 65536 ∧ (dataOf true v : Int) = v % 4294967296 := by
  simp only [dataOf, BitVec.toNat_ofInt, Bool.false_eq_true, if_false, if_true]
  omega

/-! ### A slot start in the acquisition pass (R25, R45, R48, R177) -/

section
variable {r : Run} {s : State}

theorem exec_exchangeStart_of_acq (live : Live s) (governing : s.dsc.gov ≠ .halted) (up : s.slc.loopState = .up)
    (empty : s.slc.slot = none) (acq : s.slc.phase = .acq) : exec .exchangeStart s = .next (startPass 65 s) := by
  refine (live_of_run exchangeStart live).trans (congrArg _ ?_)
  simp [exchangeStart, governing, up, empty, acq]

theorem startPass_eq_startRead {off : Nat} (acq : s.slc.phase = .acq) (run : s.slc.run = some r)
    (left : budgetUsedUp s = false) (sound : (entryAt r.entry s).corrupt = false)
    (next : nextOffset r.e r.offset s = some off) (n : Nat) : startPass (n + 1) s = startRead r off s := by
  simp [startPass, acq, run, left, sound, next]

/-- A SPAN run addresses its next station that is not EXCLUDED. -/
theorem nextOffset_of_span {e : AcqEntry} {n k : Nat} (span : e.settle = .span) (after : n ≤ k) (inside : k < e.span)
    (free : isExcluded (e.addr + k) s = false) (barred : ∀ j, n ≤ j → j < k → isExcluded (e.addr + j) s = true) :
    nextOffset e n s = some k := by
  have split : List.range' n (e.span - n) = List.range' n (k - n) ++ k :: List.range' (k + 1) (e.span - (k + 1)) := by
    have sizes : e.span - n = (k - n) + (e.span - k) := by omega
    have tail : e.span - k = e.span - (k + 1) + 1 := by omega
    rw [sizes, ← List.range'_append_1, Nat.add_sub_cancel' after, tail, List.range'_succ]
  have none_before : (List.range' n (k - n)).find? (fun j => !isExcluded (e.addr + j) s) = none :=
    List.find?_eq_none.2 fun j mem => by
      obtain ⟨from_n, below⟩ := List.mem_range'_1.1 mem
      simp [barred j from_n (by omega)]
  rw [nextOffset, if_pos span, split, List.find?_append, none_before, Option.none_or, List.find?_cons_of_pos (by simp [free])]

/-! ### An entry marked CORRUPT is not run (R177; log 31) -/

theorem runCorrupt_stands (r : Run) (s : State) :
    (runCorrupt r s).slc.slot = s.slc.slot ∧ (runCorrupt r s).slc.passIdx = s.slc.passIdx := by
  unfold runCorrupt
  dsimp only
  rw [missed_eq, skipEntry_eq]
  split_ifs <;> exact ⟨rfl, rfl⟩

theorem runExcluded_stands (r : Run) (s : State) :
    (runExcluded r s).slc.slot = s.slc.slot ∧ (runExcluded r s).slc.passIdx = s.slc.passIdx := by
  unfold runExcluded
  rw [missed_eq, skipEntry_eq]
  split_ifs <;> exact ⟨rfl, rfl⟩

/-- The end of a pass at its budget begins no exchange. -/
theorem budgetEnd_slot (s : State) : (budgetEnd s).slc.slot = s.slc.slot := by
  have corrupt : (passCorrupt s).slc.slot = s.slc.slot := by
    unfold passCorrupt
    split
    · rfl
    · split_ifs
      · exact (advance_moves _).slot.trans (runCorrupt_stands ..).1
      · rfl
  cases run : (passCorrupt s).slc.run with
  | none => rw [(budgetEnd_of_passCorrupt rfl).1 run, corrupt]
  | some r =>
    rw [(budgetEnd_of_passCorrupt rfl).2 r run, ← corrupt]
    exact (endIfOver_moves _).slot.trans (budgetOver_step r (passCorrupt s) (fun _ => True) ⟨trivial, trivial⟩).moves.slot

/-- No exchange is in its slot, and what is left of the pass lies behind entry `i`. -/
structure PastEntry (i : Nat) (s : State) : Prop where
  slot : s.slc.slot = none
  behind : ∀ r, s.slc.run = some r → i < r.entry ∧ i < s.slc.passIdx

theorem advance_past {i : Nat} (empty : s.slc.slot = none) (past : i < s.slc.passIdx) : PastEntry i (advance s) := by
  have idx : ∀ u : State, (endIfOver u).slc.passIdx = u.slc.passIdx := fun u => by
    unfold endIfOver beginService
    (repeat' split) <;> rfl
  refine ⟨(advance_moves s).slot.trans empty, fun r run => ?_⟩
  rw [advance, endIfOver_run] at run
  rw [advance, idx]
  obtain no_run | ⟨j, e, mem, stands, at_j⟩ := walk_run (passFunc s) (indicesFrom s.slc.passIdx) s
  · exact absurd (run.symm.trans no_run) (by simp)
  · obtain rfl := Option.some.inj (stands.symm.trans run)
    have after : s.slc.passIdx ≤ j := (List.mem_range'_1.1 mem).1
    rw [at_j]
    exact ⟨past.trans_le after, by omega⟩

/-- A slot start that finds the pass behind an entry begins no exchange of it. -/
theorem startPass_spares {i : Nat} (n : Nat) (s : State) (past : PastEntry i s) :
    ∀ x, (startPass n s).slc.slot = some x → x.claim ≠ .acq i := by
  induction n generalizing s with
  | zero => exact fun x slot => absurd (past.slot.symm.trans slot) (by simp)
  | succ n ih =>
    intro x slot
    unfold startPass at slot
    cases run : s.slc.run with
    | none =>
      rw [run] at slot
      exact absurd (past.slot.symm.trans slot) (by simp)
    | some r =>
      obtain ⟨behind, idx⟩ := past.behind r run
      simp only [run] at slot
      by_cases used : budgetUsedUp s = true
      · rw [if_pos used, budgetEnd_slot] at slot
        exact absurd (past.slot.symm.trans slot) (by simp)
      rw [if_neg used] at slot
      by_cases corrupt : (entryAt r.entry s).corrupt = true
      · rw [if_pos corrupt] at slot
        obtain ⟨slot_kept, idx_kept⟩ := runCorrupt_stands r s
        exact ih _ (advance_past (slot_kept.trans past.slot) (idx_kept ▸ idx)) x slot
      rw [if_neg corrupt] at slot
      cases next : nextOffset r.e r.offset s with
      | none =>
        rw [next] at slot
        obtain ⟨slot_kept, idx_kept⟩ := runExcluded_stands r s
        exact ih _ (advance_past (slot_kept.trans past.slot) (idx_kept ▸ idx)) x slot
      | some off =>
        simp only [next] at slot
        by_cases dispatch : s.slc.phase = .dispatch
        · rw [if_pos dispatch, startWrite_slot] at slot
          obtain rfl := Option.some.inj slot
          simp
        · rw [if_neg dispatch] at slot
          obtain rfl := Option.some.inj slot
          simpa using fun h : r.entry = i => absurd behind (by omega)

theorem startPass_of_corrupt (run : s.slc.run = some r) (left : budgetUsedUp s = false)
    (corrupt : (entryAt r.entry s).corrupt = true) (n : Nat) : startPass (n + 1) s = startPass n (advance (runCorrupt r s)) := by
  simp only [startPass, run, left, corrupt, Bool.false_eq_true, if_false, if_true]

end

/-! ### The service queue's head (R36, R57) -/

/-- A slot start serves the head of the queue: in a service pass with budget left, or in HALTED with no scan. -/
structure ServesHead (s : State) : Prop where
  live : Live s
  up : s.slc.loopState = .up
  empty : s.slc.slot = none
  serves : s.slc.phase = .service ∧ s.dsc.gov ≠ .halted ∧ s.slc.slots < s.hli.force.serviceBudget
    ∨ s.dsc.gov = .halted ∧ s.slc.scan = none

namespace ServesHead
variable {s : State} (serves : ServesHead s)
include serves

theorem exec_eq : exec .exchangeStart s = .next (serveHead 32 s) ∨ exec .exchangeStart s = .next (endService (serveHead 32 s)) := by
  have starts := live_of_run exchangeStart serves.live
  obtain ⟨-, up, empty, ⟨service, governing, -⟩ | ⟨halted, no_scan⟩⟩ := serves
  · refine .inr (starts.trans (congrArg _ ?_))
    simp [exchangeStart, startService, governing, up, empty, service]
  · refine .inl (starts.trans (congrArg _ ?_))
    simp [exchangeStart, halted, up, empty, no_scan]

/-- A slot start that puts an exchange into its slot. -/
theorem exec_of_slot {x : SlotEx} (slot : (serveHead 32 s).slc.slot = some x) :
    exec .exchangeStart s = .next (serveHead 32 s) := by
  have goes_on : endService (serveHead 32 s) = serveHead 32 s := if_neg (by simp [slot])
  obtain direct | pass := serves.exec_eq
  · exact direct
  · rwa [goes_on] at pass

/-- A slot start moves the queue on, and a service pass can end. -/
theorem exec_of_phase : ∃ p, exec .exchangeStart s = .next { serveHead 32 s with slc.phase := p } := by
  obtain direct | pass := serves.exec_eq
  · exact ⟨(serveHead 32 s).slc.phase, direct⟩
  · refine ⟨(endService (serveHead 32 s)).slc.phase, pass.trans (congrArg _ ?_)⟩
    unfold endService
    split <;> rfl

end ServesHead

section
variable {it : Item} {its : List Item} {s : State} (queue : s.slc.queue = it :: its)
include queue

theorem serveHead_of_free (free : it.claimant = .reinstate ∨ isExcluded it.addr s = false) (n : Nat) :
    serveHead (n + 1) s = putHead it its s := by
  have not_barred : itemBarred it s = false := by
    unfold itemBarred
    obtain probe | free := free
    · simp [probe]
    · simp [free]
  simp only [serveHead, queue, not_barred, Bool.false_eq_true, if_false]

theorem serveHead_of_barred (item : it.claimant ≠ .reinstate) (excluded : isExcluded it.addr s = true) (n : Nat) :
    serveHead (n + 1) s = serveHead n (finishHead (.bare .excluded) s) := by
  have barred : itemBarred it s = true := by simp [itemBarred, item, excluded]
  simp only [serveHead, queue, barred, if_true]

theorem finishHead_of_none_held (held : s.slc.held = []) (h : Heard) :
    finishHead h s = tellClaimant it h { s with slc.queue := its } := by
  rw [finishHead, queue]
  dsimp only
  rw [popHead_of_none_held held, queue]
  rfl

end

theorem serveHead_of_empty {s : State} (queue : s.slc.queue = []) (n : Nat) : serveHead n s = s := by
  cases n with
  | zero => rfl
  | succ n => simp only [serveHead, queue]

/-! ### A head whose station is EXCLUDED leaves without a slot (R57) -/

/-- The head cannot begin: its station is EXCLUDED, and it waits with none held behind the queue. -/
structure HeadBarred (it : Item) (its : List Item) (s : State) : Prop where
  queue : s.slc.queue = it :: its
  held : s.slc.held = []
  waiting : it.discard = false
  excluded : isExcluded it.addr s = true

namespace HeadBarred
variable {it : Item} {its : List Item} {s : State} (barred : HeadBarred it its s)
include barred

/-- The state once the head of a LOOP-EXCHANGE has been answered EXCLUDED. -/
theorem exchange_leaves (mine : it.claimant = .loopExchange) {tag : Byte}
    (deferred : s.hli.deferred = some ⟨.loopExchange, tag⟩) (n : Nat) :
    serveHead (n + 1) s = serveHead n { s with
      slc.queue := its
      hli.deferred := none
      hli.tx := s.hli.tx ++ [.reply true 0x8E tag (.done (vEnum 5 ++ vMark false ++ beBytes 4 0))] } := by
  have told : tellClaimant it (.bare .excluded) { s with slc.queue := its } =
      deferredReplyOf .loopExchange (.done (exchangeBytes (.bare .excluded))) { s with slc.queue := its } := by
    simp only [tellClaimant, barred.waiting, mine, Bool.false_eq_true, if_false]
  rw [serveHead_of_barred barred.queue (by simp [mine]) barred.excluded,
    finishHead_of_none_held barred.queue barred.held, told,
    deferredReplyOf_of_kind (s := { s with slc.queue := its }) deferred]
  rfl

/-- The grid element check whose item is alone in the queue is aborted. -/
theorem grid_aborts (mine : it.claimant = .gridCheck) {r : GridRun} (run : s.rgv.check.run = some r) (n : Nat) :
    serveHead (n + 1) s = serveHead n (gridAbort .stationExcluded { s with slc.queue := its }) := by
  have told : tellClaimant it (.bare .excluded) { s with slc.queue := its } =
      gridAbort .stationExcluded { s with slc.queue := its } := by
    simp only [tellClaimant, barred.waiting, mine, Bool.false_eq_true, if_false, gridOutcome, run, Heard.bare]
  rw [serveHead_of_barred barred.queue (by simp [mine]) barred.excluded,
    finishHead_of_none_held barred.queue barred.held, told]

/-- The steering supply check hears EXCLUDED. -/
theorem steer_hears (mine : it.claimant = .steerCheck) (n : Nat) :
    serveHead (n + 1) s = serveHead n (steerOutcome .excluded { s with slc.queue := its }) := by
  have told : tellClaimant it (.bare .excluded) { s with slc.queue := its } =
      steerOutcome .excluded { s with slc.queue := its } := by
    simp only [tellClaimant, barred.waiting, mine, Bool.false_eq_true, if_false, Heard.bare]
  rw [serveHead_of_barred barred.queue (by simp [mine]) barred.excluded,
    finishHead_of_none_held barred.queue barred.held, told]

end HeadBarred

/-- An abort with nothing queued leaves nothing queued. -/
theorem gridAbort_of_empty {s : State} (queue : s.slc.queue = []) (held : s.slc.held = []) (empty : s.slc.slot = none)
    (c : ProcCause) : (gridAbort c s).slc.queue = [] ∧ (gridAbort c s).slc.slot = none := by
  cases run : s.rgv.check.run with
  | none =>
    rw [gridAbort_of_idle run]
    exact ⟨queue, empty⟩
  | some r =>
    rw [gridAbort_slc run, removeItems_of_no_slot empty held]
    simp [queue, empty]

/-- The isolate ACT leaves the queue and the release ACT joins it. -/
theorem toRelease_of_no_slot {r : SteerRun} (phase : r.phase ≠ .release) (p : Option (SteerOutcome × ProcCause))
    {s : State} (slot : s.slc.slot = none) (held : s.slc.held = []) (queue : s.slc.queue = []) :
    toRelease r p s = { s with
      slc.queue := [steerItem r.addr 0], sgv.run := some { r with phase := .release, pending := p } } := by
  rw [toRelease, if_neg phase, removeItems_of_no_slot slot held, joinItem_of_room (by simp [queue]), queue]
  rfl

/-- An isolate ACT that cannot begin is followed by a release that cannot either: the check ends, its release
unconfirmed. -/
theorem serveHead_of_isolate {it : Item} {s : State} (barred : HeadBarred it [] s) (empty : s.slc.slot = none)
    (mine : it.claimant = .steerCheck) {r : SteerRun} (run : s.sgv.run = some r) (isolate : r.phase = .isolate)
    (pending : r.pending = none) (addr : r.addr = it.addr) (n : Nat) :
    (serveHead (n + 2) s).slc.slot = none ∧ (serveHead (n + 2) s).slc.queue = [] ∧ (serveHead (n + 2) s).sgv.run = none
      ∧ (serveHead (n + 2) s).sgv.result = ⟨.aborted, .stationExcluded, r.init, r.final, s.slc.frameNo, true⟩ := by
  have aborted : steerOutcome .excluded { s with slc.queue := [] } = { s with
      slc.queue := [steerItem r.addr 0]
      sgv.run := some { r with phase := .release, pending := some (.aborted, .stationExcluded) } } := by
    have phase : r.phase ≠ .release := by simp [isolate]
    rw [(steerOutcome_of_isolate_lost (s := { s with slc.queue := [] }) run isolate).1,
      steerAbort_of_run (s := { s with slc.queue := [] }) run, pending,
      toRelease_of_no_slot (s := { s with slc.queue := [] }) phase _ empty barred.held rfl]
    rfl
  have released : HeadBarred (steerItem r.addr 0) [] { s with
      slc.queue := [steerItem r.addr 0]
      sgv.run := some { r with phase := .release, pending := some (.aborted, .stationExcluded) } } :=
    ⟨rfl, barred.held, rfl, by
      show isExcluded r.addr s = true
      rw [addr]
      exact barred.excluded⟩
  rw [barred.steer_hears mine, aborted, released.steer_hears rfl,
    steerOutcome_of_release_excluded (r := { r with phase := .release, pending := some (.aborted, .stationExcluded) })
      (o := .aborted) (c := .stationExcluded) rfl rfl rfl (by simp), serveHead_of_empty (by rw [steerEnd_slc])]
  rw [steerEnd_slc, steerEnd_sgv]
  exact ⟨empty, rfl, rfl, rfl⟩

/-! ### The slot starts -/

/-- Settles O27. -/
theorem slotStartsServeEntriesAndTheHead : Obligations.SlotStartsServeEntriesAndTheHead := by
  unfold Obligations.SlotStartsServeEntriesAndTheHead
  refine ⟨?entries, ⟨?head, ?barred, ?scan⟩, ?line, ?words, ?check, ?crc, dataOf_eq⟩
  case entries =>
    intro r s live governing up empty acq run slots e
    have starts := exec_exchangeStart_of_acq live governing up empty acq
    have left : budgetUsedUp s = false := budgetUsedUp_of_slots_lt (by simpa [passBudget, acq] using slots)
    refine ⟨fun sound mode free => ?_, fun k sound span after inside free before => ?_, fun corrupt past => ?_⟩
    · refine starts.trans (congrArg _ ?_)
      exact startPass_eq_startRead acq run left sound (nextOffset_of_not_span mode free r.offset) 64
    · refine starts.trans (congrArg _ ?_)
      have not_persist : ¬ (r.begun = true ∧ r.e.settle = .persist) := fun h => by
        rw [show r.e.settle = .span from span] at h
        exact absurd h.2 (by decide)
      rw [startPass_eq_startRead acq run left sound (nextOffset_of_span span after inside free before) 64, startRead,
        putExchange, if_neg not_persist]
    · refine ⟨_, starts, ?_⟩
      obtain ⟨slot, idx⟩ := runCorrupt_stands r s
      rw [startPass_of_corrupt run left corrupt]
      exact startPass_spares 64 _ (advance_past (slot.trans empty) (idx ▸ past))
  case head =>
    intro it its s live up empty queue free cond
    have value := serveHead_of_free queue free 31
    have starts := ServesHead.exec_of_slot ⟨live, up, empty, cond⟩ (by rw [value]; rfl)
    rw [value] at starts
    exact starts
  case barred =>
    intro it its s live up empty queue held waiting excluded cond
    have serves : ServesHead s := ⟨live, up, empty, cond⟩
    have barred : HeadBarred it its s := ⟨queue, held, waiting, excluded⟩
    obtain ⟨p, starts⟩ := serves.exec_of_phase
    refine ⟨fun tag mine deferred => ?_, fun r mine none_left run => ?_, fun r mine none_left run isolate pending addr => ?_⟩
    · intro tx
      refine ⟨fun nx rest its_eq free => ?_, fun none_left => ?_⟩
      · subst its_eq
        have leaves := barred.exchange_leaves mine deferred 31
        rw [serveHead_of_free (s := { s with
          slc.queue := nx :: rest, hli.deferred := none, hli.tx := tx }) rfl free 30] at leaves
        have served := serves.exec_of_slot (by rw [leaves]; rfl)
        rw [leaves] at served
        exact served
      · subst none_left
        have leaves := (barred.exchange_leaves mine deferred 31).trans (serveHead_of_empty rfl 31)
        rw [leaves] at starts
        exact ⟨_, starts, empty, rfl, rfl, rfl⟩
    · subst none_left
      obtain ⟨no_items, no_slot⟩ := gridAbort_of_empty (s := { s with slc.queue := [] }) rfl held empty .stationExcluded
      have leaves := (barred.grid_aborts mine run 31).trans (serveHead_of_empty no_items 31)
      rw [leaves] at starts
      have rgv := gridAbort_rgv (s := { s with slc.queue := [] }) run .stationExcluded
      refine ⟨_, starts, no_slot, no_items, ?_, ?_, ?_⟩
      · show (gridAbort .stationExcluded { s with slc.queue := [] }).rgv.check.run = none
        rw [rgv]
      · show (gridAbort .stationExcluded { s with slc.queue := [] }).rgv.check.last.outcome = .aborted
        rw [rgv]
      · show (gridAbort .stationExcluded { s with slc.queue := [] }).rgv.check.last.cause = .stationExcluded
        rw [rgv]
    · subst none_left
      exact ⟨_, starts, serveHead_of_isolate barred empty mine run isolate pending addr 30⟩
  case scan =>
    intro c s live up empty halted scan
    have probes : exchangeStart s = startProbe c s := by simp [exchangeStart, up, empty, halted, scan]
    exact (live_of_run exchangeStart live).trans (congrArg _ probes)
  case line =>
    intro k s
    refine ⟨fun empty => loopOut_of_none empty k, fun x slot => ⟨fun inside => ?_, fun beyond => ?_, commandWords_length x⟩⟩
    · rw [loopOut_of_some slot, List.getD_eq_getElem _ _ inside, List.getElem?_eq_getElem inside]
    · rw [loopOut_of_some slot, List.getD_eq_default _ _ beyond]
  case words =>
    intro x inside_addr inside_channel
    have header : ∀ h : LoopWord,
        h.toNat = 32768 + 256 * (x.addr % 64) + 32 * (x.channel % 8) + 8 * funcCode x.func + bit x.size32 2 →
        h.toNat = 2 * 2 ^ 14 + x.addr * 2 ^ 8 + x.channel * 2 ^ 5 + funcCode x.func * 2 ^ 3
          + (if x.size32 then 1 else 0) * 2 ^ 2 := fun h value => by
      have size : bit x.size32 2 = (if x.size32 then 1 else 0) * 2 ^ 2 := by cases x.size32 <;> rfl
      rw [value, size, Nat.mod_eq_of_lt inside_addr, Nat.mod_eq_of_lt inside_channel]
      omega
    have func : funcCode x.func = (match x.func with | .read => 0 | .write => 1 | .act => 2) := by cases x.func <;> rfl
    cases size : x.size32 with
    | false =>
      obtain ⟨h, d, h_value, d_value, words⟩ := commandWords_of_size16 size
      refine ⟨h, ?_, fun _ => ⟨d, d_value, words⟩, fun other => absurd other (by decide)⟩
      have value := header h h_value
      rw [size, func] at value
      exact value
    | true =>
      obtain ⟨h, d, e, h_value, d_value, e_value, words⟩ := commandWords_of_size32 size
      refine ⟨h, ?_, fun other => absurd other (by decide), fun _ => ⟨d, e, d_value, e_value, words⟩⟩
      have value := header h h_value
      rw [size, func] at value
      exact value
  case check =>
    intro ws
    rfl
  case crc =>
    intro bs
    exact crc16_eq bs

end Sys2Proof.Machine
end
